-- ==== Sys2Proof/Word.lean ====
section
/-! DEFINITION. The word types of the Sygal 7480 (R2, R3) and their plainest arithmetic. -/

namespace Sys2Proof

/-- A byte of memory. -/
abbrev Byte := BitVec 8

/-- A 32-bit register or instruction word. -/
abbrev Word := BitVec 32

/-- A 64-bit value: an address, a chit, a pair of registers. -/
abbrev DWord := BitVec 64

/-- One bit as a number. -/
def bit (b : Bool) : Nat := if b then 1 else 0

end Sys2Proof
end

