-- ==== Sys2Proof/Config.lean ====
section
/-! DEFINITION. What the manual leaves to the device or to the outside world. Every constant here is opaque: no proof
can see a value of it, and a statement that names one holds whatever it is. Assumption log 2 to 6 and 9 say what each stands for. -/

namespace Sys2Proof.Config

/-- A fresh open choice between two outcomes, numbered by the counter the step advances (R306, R232, log 2). -/
opaque freeBool : Nat → Bool

/-- A fresh open 64-bit value, numbered by the counter the step advances (log 2). -/
opaque freeBits : Nat → BitVec 64

/-- The special-function unit's own result, where R361 fixes a bound and not the value: function code, tag code, operand
bits (log 3). -/
opaque sfu : BitVec 4 → BitVec 4 → BitVec 64 → BitVec 64

/-- SHA3-256, which the manual names and does not define (R19, R122, log 4). -/
opaque sha3 : List Byte → BitVec 256

/-- ML-DSA-44 verification: public key, message digest, signature (R27, R125, log 4). -/
opaque mldsaVerify : List Byte → BitVec 256 → List Byte → Bool

/-- ML-DSA-44 signature by the module's identity key over a digest (R28, R124, log 4). -/
opaque identitySign : BitVec 256 → List Byte

/-- The configuration root digest held in the boot ROM of I/O die 20 (R27, log 4). -/
opaque configRoot : BitVec 256

/-- The public key whose digest is the configuration root, which checks an owner key (R125, log 4). -/
opaque configRootKey : List Byte

/-- The digest of the boot ROM, the first extension of MR0 (R122, log 4). -/
opaque romDigest : BitVec 256

/-- The detail bytes of an event whose class the manual gives no layout for: the class and what the event concerns (R121,
R468, log 9). -/
opaque eventDetail : Nat → Nat → BitVec 128

/-- Bytes of a context image whose layout the manual does not give: suspended copies and gathers (0) and trays (1), by all
the values they hold (R262, log 15). -/
opaque imageBytes : Nat → List Nat → List Byte

/-- How many packets of a channel, less one, the buffers of a link's receiver hold: for the channel (0) and for its escape sub-channel (1)
(R40, log 125). -/
opaque linkRoom : Nat → Nat

/-- Where in device memory the request ring of a compute die for a service core lies (R115, log 16). -/
opaque requestRing : Nat → Nat → Nat

/-- Where the paired completion ring lies (R115, log 16). -/
opaque completionRing : Nat → Nat → Nat

/-- Where the RX ring of a connection of the byte-stream transport lies (R116, log 16). -/
opaque rxRing : Nat → Nat

/-- Where its TX ring lies (R116, log 16). -/
opaque txRing : Nat → Nat

/-- What a byte of an NVMe drive that nothing has written holds, by I/O die, drive and place (R117, log 126). -/
opaque driveByte : Nat → Nat → Nat → BitVec 8

end Sys2Proof.Config
end

