-- ==== Sys2Proof/Machine/Num.lean ====
section
/-! DEFINITION. Number formats and rounding (R272 to R290): exact values as signed integers times powers of two, one
rounding function for each kind of format, and the flags that it raises. -/

namespace Sys2Proof.Machine

/-! ## Flags (R285) -/

/-- Flags in the order of FPS: NV, DZ, OF, UF, NX, SA from bit 0 (R285). -/
abbrev Flags := BitVec 6

/-- Invalid operation, FPS[0] (R285). -/
def flagNV : Flags := 1
/-- Division by zero, FPS[1] (R285). -/
def flagDZ : Flags := 2
/-- Overflow, FPS[2] (R285). -/
def flagOF : Flags := 4
/-- Underflow, FPS[3] (R285). -/
def flagUF : Flags := 8
/-- Inexact, FPS[4] (R285). -/
def flagNX : Flags := 16
/-- Saturation or tapered clamp, FPS[5] (R285). -/
def flagSA : Flags := 32

/-- A flag raised under a condition. -/
def flagIf (c : Bool) (f : Flags) : Flags := if c then f else 0

/-! ## Exact values -/

/-- An exact value: a NaN (with whether it came from a signaling one), an infinity, or ± m × 2^e, zeros signed (R275). -/
inductive Ext where
  | nan (signaling : Bool)
  | inf (neg : Bool)
  | num (neg : Bool) (m : Nat) (e : Int)
  deriving DecidableEq, Repr

/-- An integer as an exact value. -/
def Ext.ofInt (x : Int) : Ext := .num (decide (x < 0)) x.natAbs 0

/-- m × 2^e over the common exponent e0 ≤ e. -/
def scaleTo (m : Nat) (e e0 : Int) : Nat := m * 2 ^ (e - e0).toNat

/-- m1 × 2^e1 ≤ m2 × 2^e2. -/
def dyLe (m1 : Nat) (e1 : Int) (m2 : Nat) (e2 : Int) : Bool :=
  let e0 := Min.min e1 e2
  decide (scaleTo m1 e1 e0 ≤ scaleTo m2 e2 e0)

/-- m1 × 2^e1 < m2 × 2^e2. -/
def dyLt (m1 : Nat) (e1 : Int) (m2 : Nat) (e2 : Int) : Bool := !dyLe m2 e2 m1 e1

/-- The signed numerator of a finite value over a common exponent. -/
def signedAt (neg : Bool) (m : Nat) (e e0 : Int) : Int :=
  if neg then - (scaleTo m e e0 : Int) else (scaleTo m e e0 : Int)

/-- The order of two values that are no NaN (R332): -1, 0 or 1, with −0 equal to +0. -/
def extCmp (x y : Ext) : Int :=
  match x, y with
  | .inf a, .inf b => if a = b then 0 else if a then -1 else 1
  | .inf a, _ => if a then -1 else 1
  | _, .inf b => if b then 1 else -1
  | .num a m e, .num b n f =>
    let e0 := Min.min e f
    let x := signedAt a m e e0
    let y := signedAt b n f e0
    if x < y then -1 else if x = y then 0 else 1
  | _, _ => 0

/-- Whether a value is a NaN (or NaR, R281). -/
def Ext.isNan : Ext → Bool
  | .nan _ => true
  | _ => false

/-- Whether a value is a signaling NaN. -/
def Ext.isSignaling : Ext → Bool
  | .nan b => b
  | _ => false

/-- Whether a value is exactly zero. -/
def Ext.isZero : Ext → Bool
  | .num _ 0 _ => true
  | _ => false

/-- The value with its sign flipped. -/
def Ext.neg : Ext → Ext
  | .nan b => .nan b
  | .inf a => .inf (!a)
  | .num a m e => .num (!a) m e

/-- The exact product, with NV for ∞ × 0 and for a signaling NaN (R288, R276). -/
def extMul (x y : Ext) : Ext × Flags :=
  match x, y with
  | .nan a, .nan b => (.nan false, flagIf (a || b) flagNV)
  | .nan a, _ => (.nan false, flagIf a flagNV)
  | _, .nan b => (.nan false, flagIf b flagNV)
  | .inf a, .num b m _ => if m = 0 then (.nan false, flagNV) else (.inf (a != b), 0)
  | .num a m _, .inf b => if m = 0 then (.nan false, flagNV) else (.inf (a != b), 0)
  | .inf a, .inf b => (.inf (a != b), 0)
  | .num a m e, .num b n f => (.num (a != b) (m * n) (e + f), 0)

/-- The exact sum of the finite terms of a list over their least exponent: numerator and exponent. -/
def sumFinite (ts : List Ext) : Int × Int :=
  ts.foldl (fun acc t =>
    match t with
    | .num a m e =>
      let e0 := Min.min acc.2 e
      (acc.1 * ((2 : Int) ^ (acc.2 - e0).toNat) + signedAt a m e e0, e0)
    | _ => acc) (0, 0)

/-- Whether a term is a finite value with its sign bit set. -/
def Ext.negNum : Ext → Bool
  | .num a _ _ => a
  | _ => false

/-- The exact sum of terms over the extended reals (R288): ∞ − ∞ gives NV, any NaN makes the sum NaN, and an exact zero of
terms of opposite signs is +0, or −0 when `rd` says the mode is RD (R276). -/
def extSum (rd : Bool) (ts : List Ext) : Ext × Flags :=
  if ts.any Ext.isNan then (.nan false, flagIf (ts.any Ext.isSignaling) flagNV)
  else
    let pos := ts.any (· = .inf false)
    let neg := ts.any (· = .inf true)
    if pos && neg then (.nan false, flagNV)
    else if pos then (.inf false, 0)
    else if neg then (.inf true, 0)
    else
      let r := sumFinite ts
      if r.1 = 0 then
        (.num (if ts.all Ext.negNum then true else if ts.any Ext.negNum then rd else false) 0 0, 0)
      else (.num (decide (r.1 < 0)) r.1.natAbs r.2, 0)

/-! ## Rounding (R283, R284) -/

/-- Rounding modes (R283); SR carries its 24-bit draw U (R284). -/
inductive RMode where
  | rne | rz | rd | ru | rna
  | sr (u : Nat)
  deriving DecidableEq, Repr

/-- The mode of a 3-bit code without draws; the reserved codes and SR never reach it (R283). -/
def rmodeOf (c : BitVec 3) : RMode :=
  if c = 1 then .rz else if c = 2 then .rd else if c = 3 then .ru else if c = 4 then .rna else .rne

/-- Whether a magnitude strictly between q and q + 1 units, at q + r / u, is rounded away from zero. `odd` is the parity
that breaks ties under RNE. -/
def roundsUp (mode : RMode) (neg odd : Bool) (r u : Nat) : Bool :=
  match mode with
  | .rne => decide (2 * r > u) || (decide (2 * r = u) && odd)
  | .rz => false
  | .rd => neg && decide (r ≠ 0)
  | .ru => !neg && decide (r ≠ 0)
  | .rna => decide (2 * r ≥ u)
  | .sr d => if neg then !decide ((u - r) * 2 ^ 24 > d * u) else decide (r * 2 ^ 24 > d * u)

/-- m × 2^e as a whole number of 2^q, rounded by mode: the count and whether it is inexact. -/
def roundAt (mode : RMode) (neg : Bool) (m : Nat) (e q : Int) : Nat × Bool :=
  if q ≤ e then (m * 2 ^ (e - q).toNat, false)
  else
    let u := 2 ^ (q - e).toNat
    let n := m / u
    let r := m % u
    if r = 0 then (n, false)
    else (if roundsUp mode neg (n % 2 == 1) r u then n + 1 else n, true)

/-- An IEEE binary format: its width, exponent bits and fraction bits (R275). -/
structure Ieee where
  width : Nat
  expBits : Nat
  frac : Nat
  deriving DecidableEq, Repr

/-- binary64 (R275). -/
def ieee64 : Ieee := ⟨64, 11, 52⟩
/-- binary32 (R275). -/
def ieee32 : Ieee := ⟨32, 8, 23⟩
/-- binary16 (R275). -/
def ieee16 : Ieee := ⟨16, 5, 10⟩
/-- bfloat16 (R275). -/
def ieeeB16 : Ieee := ⟨16, 8, 7⟩

/-- The exponent bias. -/
def Ieee.bias (f : Ieee) : Nat := 2 ^ (f.expBits - 1) - 1

/-- The exponent of the smallest subnormal. -/
def Ieee.qmin (f : Ieee) : Int := 1 - (f.bias : Int) - (f.frac : Int)

/-- The canonical NaN (R275). -/
def Ieee.canonicalNan (f : Ieee) : Nat := (2 ^ f.expBits - 1) * 2 ^ f.frac + 2 ^ (f.frac - 1)

/-- The sign bit. -/
def Ieee.signBit (f : Ieee) (neg : Bool) : Nat := if neg then 2 ^ (f.width - 1) else 0

/-- An infinity. -/
def Ieee.infBits (f : Ieee) (neg : Bool) : Nat := f.signBit neg + (2 ^ f.expBits - 1) * 2 ^ f.frac

/-- The largest finite value (R275). -/
def Ieee.maxBits (f : Ieee) (neg : Bool) : Nat := f.signBit neg + (2 ^ f.expBits - 1) * 2 ^ f.frac - 1

/-- The value of an element of an IEEE format (R275). -/
def Ieee.value (f : Ieee) (b : Nat) : Ext :=
  let neg := b / 2 ^ (f.width - 1) % 2 == 1
  let ex := b / 2 ^ f.frac % 2 ^ f.expBits
  let fr := b % 2 ^ f.frac
  if ex = 2 ^ f.expBits - 1 then
    if fr = 0 then .inf neg else .nan (decide (fr < 2 ^ (f.frac - 1)))
  else if ex = 0 then .num neg fr f.qmin
  else .num neg (fr + 2 ^ f.frac) ((ex : Int) - f.bias - f.frac)

/-- Whether an element is subnormal (R277). -/
def Ieee.isSubnormal (f : Ieee) (b : Nat) : Bool :=
  b / 2 ^ f.frac % 2 ^ f.expBits == 0 && b % 2 ^ f.frac != 0

/-- What an overflow returns (R283). -/
def Ieee.overflow (f : Ieee) (mode : RMode) (sat neg : Bool) : Nat × Flags :=
  if sat then (f.maxBits neg, flagOF ||| flagNX ||| flagSA)
  else
    let toInf := match mode with
      | .rne => true
      | .rna => true
      | .rz => false
      | .rd => neg
      | .ru => !neg
      | .sr _ => false
    (if toInf then f.infBits neg else f.maxBits neg, flagOF ||| flagNX)

/-- round(x, FMT, mode) of R283 for an IEEE format: the bits and the flags. -/
def Ieee.round (f : Ieee) (mode : RMode) (sat : Bool) (x : Ext) : Nat × Flags :=
  match x with
  | .nan s => (f.canonicalNan, flagIf s flagNV)
  | .inf neg => (f.infBits neg, 0)
  | .num neg 0 _ => (f.signBit neg, 0)
  | .num neg m e =>
    let t : Int := e + (Nat.log2 m : Int)
    let q : Int := Max.max (t - (f.frac : Int)) f.qmin
    let beyond : Bool := match mode with
      | .sr _ => dyLt (2 ^ (f.frac + 1) - 1) ((f.bias : Int) - (f.frac : Int)) m e
      | _ => false
    let r := roundAt mode neg m e q
    let carried := r.1 == 2 ^ (f.frac + 1)
    let top : Int := if carried then q + 1 else q
    let mant := if carried then 2 ^ f.frac else r.1
    if beyond || decide (top > (f.bias : Int) - (f.frac : Int)) then f.overflow mode sat neg
    else
      let bits := if mant < 2 ^ f.frac then mant
        else ((top - f.qmin).toNat + 1) * 2 ^ f.frac + (mant - 2 ^ f.frac)
      let wide := roundAt mode neg m e (t - (f.frac : Int))
      let tiny := decide (t < 1 - (f.bias : Int)) &&
        !(decide (t = - (f.bias : Int)) && wide.1 == 2 ^ (f.frac + 1))
      (f.signBit neg + bits, flagIf r.2 flagNX ||| flagIf (tiny && r.2) flagUF)

/-! ## Tapered formats (R278 to R281) -/

/-- The run of bits equal to `b` at the head of a list, and what follows it. -/
def runOf (b : Bool) : List Bool → Nat × List Bool
  | [] => (0, [])
  | h :: t => if h = b then ((runOf b t).1 + 1, (runOf b t).2) else (0, h :: t)

/-- The bits of a code below bit n, the highest first. -/
def bitsDown (c : Nat) : Nat → List Bool
  | 0 => []
  | n + 1 => (c / 2 ^ n % 2 == 1) :: bitsDown c n

/-- A list of bits as a number, the highest first. -/
def ofBits (l : List Bool) : Nat := l.foldl (fun a b => 2 * a + bit b) 0

/-- The magnitude of a positive tapered code of n bits: m × 2^e (R278). -/
def taperMag (n c : Nat) : Nat × Int :=
  if c = 0 then (0, 0)
  else
    match bitsDown c (n - 1) with
    | [] => (0, 0)
    | b :: t =>
      let r := runOf b (b :: t)
      let k : Int := if b then (r.1 : Int) - 1 else - (r.1 : Int)
      let rest := r.2.drop 1
      let e := match rest with
        | true :: _ => 1
        | _ => 0
      let fr := rest.drop 1
      (2 ^ fr.length + ofBits fr, 2 * k + e - (fr.length : Int))

/-- decode(c, n) of R278; NaR counts as a quiet NaN (R281). -/
def taperValue (n c : Nat) : Ext :=
  if c = 0 then .num false 0 0
  else if c = 2 ^ (n - 1) then .nan false
  else if c ≥ 2 ^ (n - 1) then
    let r := taperMag n (2 ^ n - c)
    .num true r.1 r.2
  else
    let r := taperMag n c
    .num false r.1 r.2

/-- The greatest code below 2^k + c whose magnitude is no more than m × 2^e, bit by bit. -/
def taperFloor (n m : Nat) (e : Int) : Nat → Nat → Nat
  | 0, c => c
  | k + 1, c =>
    let d := c + 2 ^ k
    let r := taperMag n d
    taperFloor n m e k (if dyLe r.1 r.2 m e then d else c)

/-- The code of a magnitude code with its sign (R278). -/
def taperSigned (n : Nat) (neg : Bool) (c : Nat) : Nat := if neg && c != 0 then 2 ^ n - c else c

/-- encode(x, n, mode) of R281: the code and the flags. -/
def taperRound (n : Nat) (mode : RMode) (x : Ext) : Nat × Flags :=
  match x with
  | .nan s => (2 ^ (n - 1), flagIf s flagNV)
  | .inf _ => (2 ^ (n - 1), flagNV)
  | .num _ 0 _ => (0, 0)
  | .num neg m e =>
    let maxc := 2 ^ (n - 1) - 1
    if dyLt 1 (2 * (n : Int) - 4) m e then (taperSigned n neg maxc, flagSA ||| flagNX)
    else
      let lo := taperFloor n m e (n - 1) 0
      let l := taperMag n lo
      if dyLe m e l.1 l.2 then (taperSigned n neg lo, 0)
      else
        let h := taperMag n (lo + 1)
        let e0 := Min.min e (Min.min l.2 h.2)
        let r := scaleTo m e e0 - scaleTo l.1 l.2 e0
        let u := scaleTo h.1 h.2 e0 - scaleTo l.1 l.2 e0
        let c := if roundsUp mode neg (lo % 2 == 1) r u then lo + 1 else lo
        let nearest := match mode with
          | .rne => true
          | .rna => true
          | .sr _ => true
          | _ => false
        let c := if c = 0 && nearest then 1 else c
        (taperSigned n neg c, flagNX ||| flagIf (decide (lo = 0)) flagUF)

/-! ## Integers and block scales -/

/-- x rounded to an integer by mode, and whether that was inexact. -/
def roundToInt (mode : RMode) (neg : Bool) (m : Nat) (e : Int) : Int × Bool :=
  let r := roundAt mode neg m e 0
  (if neg then - (r.1 : Int) else (r.1 : Int), r.2)

/-- The two's complement of width w of an integer. -/
def wrapInt (w : Nat) (x : Int) : Nat := (x % (2 ^ w : Int)).toNat

/-- The integer of w bits, read as signed or not. -/
def readInt (w : Nat) (signed : Bool) (b : Nat) : Int :=
  if signed && decide (b ≥ 2 ^ (w - 1)) then (b : Int) - 2 ^ w else b

/-- The bounds of an integer format (R272). -/
def intLow (w : Nat) (signed : Bool) : Int := if signed then - 2 ^ (w - 1) else 0
/-- The upper bound of an integer format (R272). -/
def intHigh (w : Nat) (signed : Bool) : Int := if signed then 2 ^ (w - 1) - 1 else 2 ^ w - 1

/-- x clamped to an integer format, and whether that changed it (R282). -/
def clampInt (w : Nat) (signed : Bool) (x : Int) : Int × Bool :=
  if x < intLow w signed then (intLow w signed, true)
  else if x > intHigh w signed then (intHigh w signed, true)
  else (x, false)

/-- The value of an E8 scale; 0xFF counts as NaN (R282, R357). -/
def e8Value (b : Nat) : Ext := if b = 255 then .nan false else .num false 1 ((b : Int) - 127)

/-- A value reduced to an E8 scale (R358). -/
def e8Round (mode : RMode) (x : Ext) : Nat × Flags :=
  match x with
  | .nan s => (255, flagIf s flagNV)
  | .inf _ => (255, flagNV)
  | .num _ 0 _ => (0, flagUF ||| flagNX)
  | .num _ m e =>
    let t : Int := e + (Nat.log2 m : Int)
    if m = 2 ^ Nat.log2 m then
      if t > 127 then (254, flagSA ||| flagNX)
      else if t < -127 then (0, flagUF ||| flagNX)
      else ((t + 127).toNat, 0)
    else
      let u := 2 ^ Nat.log2 m
      let up := match mode with
        | .sr _ => decide (t ≥ 127) || (decide (t ≥ -127) && roundsUp mode false false (m - u) u)
        | _ => roundsUp mode false ((t + 127) % 2 == 1) (m - u) u
      let y : Int := if up then t + 1 else t
      if y > 127 then (254, flagSA ||| flagNX)
      else if y < -127 then (0, flagUF ||| flagNX)
      else ((y + 127).toNat, flagNX)

/-- One step of the stochastic state, and the draw U it gives (R284). -/
def srStep (s : BitVec 32) : BitVec 32 × Nat :=
  let s := if s = 0 then 1 else s
  let lsb := s.getLsbD 0
  let s := s >>> 1
  let s := if lsb then s ^^^ 0x80200003 else s
  (s, (s >>> 8).toNat)

end Sys2Proof.Machine
end

