-- ==== Sys2Proof/Syntax.lean ====
section
/-! DEFINITION. The steps of the Sygal 7480: one constructor for each row of the opcode table.
A constructor of a row that has an encoding holds the row's fields as the table cuts them from the word, and, for the
opcodes that accept or require a PFX word (R308), the 26-bit payload of that word. The other rows are the part's own
steps (a packet arriving, a timer, a register write): they have no encoding, and their arguments name the thing acted on;
where one of a list of packets or entries moves, `State.pick` says which, and the row has no argument. -/

namespace Sys2Proof

/-- One sample of a die's sensors: its temperatures, and the droop of each core's voltage (R15). -/
structure SensorReading where
  temps : List Nat
  droops : List Nat
  deriving DecidableEq, Repr

inductive Instr where
  /-- RSTCTL_WARM (R108). -/
  | rstctlWarm (v : BitVec 32)
  /-- POWER_PHASE_DONE (R29). -/
  | powerPhaseDone (err : BitVec 8) (sock : Nat)
  /-- ROM_PHASE_DONE (R29). -/
  | romPhaseDone (seedOk : Bool)
  /-- LINKS_PHASE_DONE (R29). -/
  | linksPhaseDone (failed : Option Nat)
  /-- MEMORY_PHASE_DONE (R29). -/
  | memoryPhaseDone (failed : Option Nat)
  /-- PHASE_BOUND_EXPIRY (R29). -/
  | phaseBoundExpiry (late : Option Nat)
  /-- PCIE_CONFIG_REQUEST (R30). -/
  | pcieConfigRequest (iod : Nat)
  /-- RCVCTL_GO (R33). -/
  | rcvctlGo (v : BitVec 32)
  /-- SENSOR_SAMPLE (R15). -/
  | sensorSample (die : Nat) (read : SensorReading) (watts : Nat) (weights : List (Nat × BitVec 8))
  /-- DUTY_RESTORE_STEP (R16). -/
  | dutyRestoreStep (die : Nat)
  /-- ROUTER_FORWARD (R9). -/
  | routerForward (k : Nat) (next : Nat)
  /-- LINK_PACKET_RECEIVE (R41). -/
  | linkPacketReceive (k : Nat) (flip : BitVec 32)
  /-- LACK_TIMER (R41). -/
  | lackTimer (link : Nat)
  /-- REPLAY_TIMEOUT (R41). -/
  | replayTimeout (link : Nat)
  /-- LINK_RETRAINED (R42). -/
  | linkRetrained (link : Nat)
  /-- RETRAIN_TIMEOUT (R42). -/
  | retrainTimeout (link : Nat)
  /-- HOLDOFF_EXPIRY (R54). -/
  | holdoffExpiry (site sector : Nat)
  /-- MISS_REISSUE (R52). -/
  | missReissue (site k : Nat)
  /-- PREQ_RAISE (R56). -/
  | preqRaise (site k : Nat)
  /-- MEND_START_TIMEOUT (R61). -/
  | mendStartTimeout (sector : Nat)
  /-- MEND_WINDOW_TIMEOUT (R62). -/
  | mendWindowTimeout (sector : Nat)
  /-- EVENT_DELIVER (R121). -/
  | eventDeliver (owner : Nat)
  /-- NMOD_WRITE (R71). -/
  | nmodWrite (v : BitVec 32)
  /-- NPMAP_WRITE (R72). -/
  | npmapWrite (v : BitVec 32)
  /-- NIMCOR_PORT_TRAINED (R71). -/
  | nimcorPortTrained (plane : Nat) (dup : Bool) (spines : BitVec 8)
  /-- PLANE_FAIL (R90). -/
  | planeFail (plane : Nat)
  /-- NPMAP_ADOPT (R90). -/
  | npmapAdopt (sock : Nat)
  /-- RSYN_RESEND (R90). -/
  | rsynResend (sock dmod : Nat)
  /-- RAU_SEND (R79). -/
  | rauSend (sock k : Nat)
  /-- REMOTE_TIMEOUT (R81). -/
  | remoteTimeout (sock k : Nat)
  /-- RRD (R78). -/
  | rrd (iod k : Nat)
  /-- RWR (R85). -/
  | rwr (iod k : Nat)
  /-- RATM (R80). -/
  | ratm (iod k : Nat)
  /-- RCAS (R80). -/
  | rcas (iod k : Nat)
  /-- RFLG (R85). -/
  | rflg (iod k : Nat)
  /-- RNFL (R85). -/
  | rnfl (iod k : Nat)
  /-- RSYN (R90). -/
  | rsyn (iod k : Nat)
  /-- RRSP (R78). -/
  | rrsp (sock k : Nat)
  /-- RACK (R84). -/
  | rack (sock k : Nat)
  /-- RARS (R84). -/
  | rars (sock k : Nat)
  /-- RFAK (R84). -/
  | rfak (sock k : Nat)
  /-- RNAK (R86). -/
  | rnak (sock k : Nat)
  /-- FLAG_RESEND (R86). -/
  | flagResend (sock k : Nat)
  /-- CINV (R95). -/
  | cinv (sock k : Nat)
  /-- CTSK (R94). -/
  | ctsk (sock k : Nat)
  /-- CLOC (R95). -/
  | cloc (sock k : Nat)
  /-- CRES (R95). -/
  | cres (sock k : Nat)
  /-- CFRE (R95). -/
  | cfre (sock k : Nat)
  /-- CACK (R95). -/
  | cack (sock k : Nat)
  /-- CHIT_RESERVE_REFILL (R94). -/
  | chitReserveRefill (die iod : Nat)
  /-- HOST_MEM_READ (R102). -/
  | hostMemRead (iod pa : Nat) (mv : BitVec 2)
  /-- HOST_MEM_WRITE (R102). -/
  | hostMemWrite (iod pa : Nat) (data : BitVec 512) (mask : BitVec 64)
  /-- HOST_ATOMICOP (R102). -/
  | hostAtomicop (iod : Nat) (op : BitVec 2) (pa width : Nat) (x y : BitVec 128)
  /-- BIRSP (R103). -/
  | birsp (iod sector : Nat) (wb : Option (BitVec 512))
  /-- HOST_SNOOP_TIMEOUT (R104). -/
  | hostSnoopTimeout (iod sector : Nat)
  /-- HOST_SNOOP (R106). -/
  | hostSnoop (iod sector : Nat) (op : BitVec 2)
  /-- CXL_CACHE_COMPLETION (R106). -/
  | cxlCacheCompletion (k : Nat) (err : Bool) (data : BitVec 512)
  /-- FMB_WRITE (R105). -/
  | fmbWrite (n : Nat) (v : BitVec 32)
  /-- HMB_ENABLE (R112). -/
  | hmbEnable (v : BitVec 32)
  /-- HMB_DOORBELL (R112). -/
  | hmbDoorbell (v : BitVec 32)
  /-- HMB_REPLY_CONSUME (R112). -/
  | hmbReplyConsume (v : BitVec 32)
  /-- DIE_DRAIN_DONE (R113). -/
  | dieDrainDone (sock : Nat) (why : BitVec 3)
  /-- MEMORY_DIE_RESTORE_DONE (R114). -/
  | memoryDieRestoreDone (sock : Nat)
  /-- ERTDAT_WRITE (R119). -/
  | ertdatWrite (v : BitVec 32)
  /-- EVRING_WRITE (R121). -/
  | evringWrite (owner : Nat) (v : BitVec 64)
  /-- QUEUE_ENABLE (R132). -/
  | queueEnable (disp n : Nat) (v : BitVec 32)
  /-- QUEUE_DISABLE (R132). -/
  | queueDisable (disp n : Nat) (v : BitVec 32)
  /-- QCFG_ERRC_CLEAR (R132). -/
  | qcfgErrcClear (disp n : Nat) (v : BitVec 32)
  /-- RECORD_ACCEPT (R131). -/
  | recordAccept (disp n : Nat)
  /-- HW_PUSH (R133). -/
  | hwPush (disp k : Nat)
  /-- FREE_REPORT (R135). -/
  | freeReport (die : Nat)
  /-- PLACE_ITEM (R137). -/
  | placeItem (die : Nat)
  /-- PRIORITY_PROMOTE (R134). -/
  | priorityPromote (disp k : Nat)
  /-- PEREQ_SUBMIT (R142). -/
  | pereqSubmit (die : Nat) (v : BitVec 32)
  /-- PREEMPT_START (R144). -/
  | preemptStart (die : Nat)
  /-- BUNDLE_SAVE (R145). -/
  | bundleSave (die k : Nat)
  /-- SAVE_DONE (R146). -/
  | saveDone (die k : Nat)
  /-- PREEMPT_TIMEOUT (R145). -/
  | preemptTimeout (die : Nat)
  /-- RESERVATION_LAPSE (R147). -/
  | reservationLapse (die core : Nat)
  /-- GROUP_FORM (R154). -/
  | groupForm (die core part port : Nat)
  /-- RUN_FETCH_DONE (R154). -/
  | runFetchDone (die core part port buf : Nat)
  /-- RUN_END (R156). -/
  | runEnd (die core part port buf : Nat)
  /-- HALT_BROADCAST (R263). -/
  | haltBroadcast (die grid : Nat)
  /-- HALT_FORCE_TIMEOUT (R263). -/
  | haltForceTimeout (die grid : Nat)
  /-- DUMP_WRITE (R264). -/
  | dumpWrite (grid : Nat)
  /-- WRING_DONE (R171). -/
  | wringDone (die core : Nat)
  /-- WALK_DONE (R192). -/
  | walkDone (die k : Nat)
  /-- FRES_RETRY (R196). -/
  | fresRetry (die : Nat) (slot : BitVec 8)
  /-- FRES_DELIVER (R196). -/
  | fresDeliver (die : Nat) (slot : BitVec 8)
  /-- WSCTL_WREQ_SET (R183). -/
  | wsctlWreqSet (die : Nat)
  /-- WSCTL_WREQ_CLEAR (R183). -/
  | wsctlWreqClear (die : Nat)
  /-- WEIGHT_STORE_FILL (R183). -/
  | weightStoreFill (die off pa len : Nat)
  /-- REFRESH_WINDOW_END (R184). -/
  | refreshWindowEnd (die bank : Nat)
  /-- ASRH_WRITE (R189). -/
  | asrhWrite (die n : Nat) (v : BitVec 32)
  /-- ASRL_WRITE (R189). -/
  | asrlWrite (die n : Nat) (v : BitVec 32)
  /-- DBC_EN_WRITE (R229). -/
  | dbcEnWrite (die n : Nat) (v : BitVec 32)
  /-- DBS_BRK_CLEAR (R229). -/
  | dbsBrkClear (die n : Nat)
  /-- COPY_FAULT (R233). -/
  | copyFault (k e : Nat)
  /-- GANG_ARRIVE (R402). -/
  | gangArrive (die core part slot : Nat)
  /-- MULTICAST_WINDOW (R400). -/
  | multicastWindow (die cluster k : Nat)
  /-- JOIN_RELEASE_TIMEOUT (R347). -/
  | joinReleaseTimeout (die core part slot : Nat) (addr : BitVec 64)
  /-- WATCHDOG_EXPIRY (R261). -/
  | watchdogExpiry (die core part slot lane : Nat)
  /-- DEBUG_STOP_SET (R260). -/
  | debugStopSet (die : Nat) (v : BitVec 32)
  /-- SMPCTL_WRITE (R266). -/
  | smpctlWrite (die : Nat) (v : BitVec 32)
  /-- SAMPLE_TICK (R267). -/
  | sampleTick (die core : Nat)
  /-- PERIOD_LOG_WRITE (R268). -/
  | periodLogWrite (die : Nat)
  /-- TILE_STAMP_WRITE (R269). -/
  | tileStampWrite (die core part slot : Nat)
  /-- REG_WRITE (R4). -/
  | regWrite (space off : Nat) (v : BitVec 32)
  /-- ILL (R312). -/
  | ill (x : BitVec 26)
  /-- OP_RESERVED (R312). -/
  | opReserved (o : BitVec 1) (x : BitVec 26)
  /-- ADD (R351). -/
  | add (pfx : Option (BitVec 26)) (g : BitVec 4) (h : BitVec 1) (d : BitVec 7) (a : BitVec 7) (b : BitVec 7)
  /-- SUB (R351). -/
  | sub (pfx : Option (BitVec 26)) (g : BitVec 4) (h : BitVec 1) (d : BitVec 7) (a : BitVec 7) (b : BitVec 7)
  /-- MUL (R351). -/
  | mul (pfx : Option (BitVec 26)) (g : BitVec 4) (h : BitVec 1) (d : BitVec 7) (a : BitVec 7) (b : BitVec 7)
  /-- MULH (R326). -/
  | mulh (pfx : Option (BitVec 26)) (g : BitVec 4) (h : BitVec 1) (d : BitVec 7) (a : BitVec 7) (b : BitVec 7)
  /-- FMA (R351). -/
  | fma (pfx : Option (BitVec 26)) (g : BitVec 4) (h : BitVec 1) (d : BitVec 7) (a : BitVec 7) (b : BitVec 7)
  /-- FMS (R351). -/
  | fms (pfx : Option (BitVec 26)) (g : BitVec 4) (h : BitVec 1) (d : BitVec 7) (a : BitVec 7) (b : BitVec 7)
  /-- DOT (R355). -/
  | dot (pfx : Option (BitVec 26)) (g : BitVec 4) (h : BitVec 1) (d : BitVec 7) (a : BitVec 7) (b : BitVec 7)
  /-- MIN (R354). -/
  | min (g : BitVec 4) (h : BitVec 1) (d : BitVec 7) (a : BitVec 7) (b : BitVec 7)
  /-- MAX (R354). -/
  | max (g : BitVec 4) (h : BitVec 1) (d : BitVec 7) (a : BitVec 7) (b : BitVec 7)
  /-- AND (R328). -/
  | and (g : BitVec 4) (h : BitVec 1) (d : BitVec 7) (a : BitVec 7) (b : BitVec 7)
  /-- OR (R328). -/
  | or (g : BitVec 4) (h : BitVec 1) (d : BitVec 7) (a : BitVec 7) (b : BitVec 7)
  /-- XOR (R328). -/
  | xor (g : BitVec 4) (h : BitVec 1) (d : BitVec 7) (a : BitVec 7) (b : BitVec 7)
  /-- ANDN (R328). -/
  | andn (g : BitVec 4) (h : BitVec 1) (d : BitVec 7) (a : BitVec 7) (b : BitVec 7)
  /-- SHL (R329). -/
  | shl (g : BitVec 4) (h : BitVec 1) (d : BitVec 7) (a : BitVec 7) (b : BitVec 7)
  /-- SHR (R329). -/
  | shr (g : BitVec 4) (h : BitVec 1) (d : BitVec 7) (a : BitVec 7) (b : BitVec 7)
  /-- ADDI (R324). -/
  | addi (pfx : Option (BitVec 26)) (g : BitVec 4) (h : BitVec 1) (d : BitVec 7) (a : BitVec 7) (i : BitVec 7)
  /-- SHLI (R329). -/
  | shli (g : BitVec 4) (h : BitVec 1) (d : BitVec 7) (a : BitVec 7) (i : BitVec 7)
  /-- SHRI (R329). -/
  | shri (g : BitVec 4) (h : BitVec 1) (d : BitVec 7) (a : BitVec 7) (i : BitVec 7)
  /-- ANDI (R328). -/
  | andi (g : BitVec 4) (h : BitVec 1) (d : BitVec 7) (a : BitVec 7) (i : BitVec 7)
  /-- MOVI (R331). -/
  | movi (d : BitVec 7) (i : BitVec 19)
  /-- MOVH (R331). -/
  | movh (d : BitVec 7) (i : BitVec 19)
  /-- CMP (R332). -/
  | cmp (g : BitVec 4) (h : BitVec 1) (i : BitVec 3) (c : BitVec 4) (a : BitVec 7) (b : BitVec 7)
  /-- CMPI (R332). -/
  | cmpi (g : BitVec 4) (h : BitVec 1) (i : BitVec 3) (c : BitVec 4) (a : BitVec 7) (m : BitVec 7)
  /-- MOV (R334). -/
  | mov (g : BitVec 4) (h : BitVec 1) (d : BitVec 7) (a : BitVec 7)
  /-- NOT (R334). -/
  | not (g : BitVec 4) (h : BitVec 1) (d : BitVec 7) (a : BitVec 7)
  /-- NEG (R334). -/
  | neg (g : BitVec 4) (h : BitVec 1) (d : BitVec 7) (a : BitVec 7)
  /-- ABS (R334). -/
  | abs (g : BitVec 4) (h : BitVec 1) (d : BitVec 7) (a : BitVec 7)
  /-- CLZ (R334). -/
  | clz (g : BitVec 4) (h : BitVec 1) (d : BitVec 7) (a : BitVec 7)
  /-- POPC (R334). -/
  | popc (g : BitVec 4) (h : BitVec 1) (d : BitVec 7) (a : BitVec 7)
  /-- BREV (R334). -/
  | brev (g : BitVec 4) (h : BitVec 1) (d : BitVec 7) (a : BitVec 7)
  /-- BSWAP (R334). -/
  | bswap (g : BitVec 4) (h : BitVec 1) (d : BitVec 7) (a : BitVec 7)
  /-- CLS (R334). -/
  | cls (g : BitVec 4) (h : BitVec 1) (d : BitVec 7) (a : BitVec 7)
  /-- CTZ (R334). -/
  | ctz (g : BitVec 4) (h : BitVec 1) (d : BitVec 7) (a : BitVec 7)
  /-- TAGOF (R335). -/
  | tagof (g : BitVec 4) (h : BitVec 1) (d : BitVec 7) (a : BitVec 7)
  /-- RETAG (R335). -/
  | retag (g : BitVec 4) (h : BitVec 1) (d : BitVec 7) (a : BitVec 7) (t : BitVec 4)
  /-- CVT (R356). -/
  | cvt (pfx : Option (BitVec 26)) (g : BitVec 4) (h : BitVec 1) (d : BitVec 7) (a : BitVec 7) (t : BitVec 4) (r : BitVec 3)
  /-- RCP (R360). -/
  | rcp (g : BitVec 4) (h : BitVec 1) (d : BitVec 7) (a : BitVec 7)
  /-- RSQ (R360). -/
  | rsq (g : BitVec 4) (h : BitVec 1) (d : BitVec 7) (a : BitVec 7)
  /-- SQRT (R360). -/
  | sqrt (g : BitVec 4) (h : BitVec 1) (d : BitVec 7) (a : BitVec 7)
  /-- EX2 (R360). -/
  | ex2 (g : BitVec 4) (h : BitVec 1) (d : BitVec 7) (a : BitVec 7)
  /-- LG2 (R360). -/
  | lg2 (g : BitVec 4) (h : BitVec 1) (d : BitVec 7) (a : BitVec 7)
  /-- SIN (R360). -/
  | sin (g : BitVec 4) (h : BitVec 1) (d : BitVec 7) (a : BitVec 7)
  /-- COS (R360). -/
  | cos (g : BitVec 4) (h : BitVec 1) (d : BitVec 7) (a : BitVec 7)
  /-- TANH (R360). -/
  | tanh (g : BitVec 4) (h : BitVec 1) (d : BitVec 7) (a : BitVec 7)
  /-- SIGM (R360). -/
  | sigm (g : BitVec 4) (h : BitVec 1) (d : BitVec 7) (a : BitVec 7)
  /-- PAND (R337). -/
  | pand (g : BitVec 4) (p : BitVec 4) (q : BitVec 4) (r : BitVec 4)
  /-- POR (R337). -/
  | por (g : BitVec 4) (p : BitVec 4) (q : BitVec 4) (r : BitVec 4)
  /-- PXOR (R337). -/
  | pxor (g : BitVec 4) (p : BitVec 4) (q : BitVec 4) (r : BitVec 4)
  /-- PANDN (R337). -/
  | pandn (g : BitVec 4) (p : BitVec 4) (q : BitVec 4) (r : BitVec 4)
  /-- VANY (R339). -/
  | vany (g : BitVec 4) (p : BitVec 4) (a : BitVec 4)
  /-- VALL (R339). -/
  | vall (g : BitVec 4) (p : BitVec 4) (a : BitVec 4)
  /-- VBAL (R339). -/
  | vbal (g : BitVec 4) (d : BitVec 7) (a : BitVec 4)
  /-- VUNI (R339). -/
  | vuni (g : BitVec 4) (p : BitVec 4) (a : BitVec 4)
  /-- P2R (R337). -/
  | p2r (g : BitVec 4) (d : BitVec 7)
  /-- SETP (R337). -/
  | setp (g : BitVec 4) (h : BitVec 1) (a : BitVec 7)
  /-- SHFL (R340). -/
  | shfl (g : BitVec 4) (h : BitVec 1) (d : BitVec 7) (a : BitVec 7) (b : BitVec 7)
  /-- SHFI (R340). -/
  | shfi (g : BitVec 4) (h : BitVec 1) (d : BitVec 7) (a : BitVec 7) (i : BitVec 7)
  /-- RED_ADD (R341). -/
  | redAdd (g : BitVec 4) (h : BitVec 1) (d : BitVec 7) (a : BitVec 7)
  /-- RED_MIN (R341). -/
  | redMin (g : BitVec 4) (h : BitVec 1) (d : BitVec 7) (a : BitVec 7)
  /-- RED_MAX (R341). -/
  | redMax (g : BitVec 4) (h : BitVec 1) (d : BitVec 7) (a : BitVec 7)
  /-- RED_AND (R341). -/
  | redAnd (g : BitVec 4) (h : BitVec 1) (d : BitVec 7) (a : BitVec 7)
  /-- RED_OR (R341). -/
  | redOr (g : BitVec 4) (h : BitVec 1) (d : BitVec 7) (a : BitVec 7)
  /-- RED_XOR (R341). -/
  | redXor (g : BitVec 4) (h : BitVec 1) (d : BitVec 7) (a : BitVec 7)
  /-- RED_SCANI (R341). -/
  | redScani (g : BitVec 4) (h : BitVec 1) (d : BitVec 7) (a : BitVec 7)
  /-- RED_SCANX (R341). -/
  | redScanx (g : BitVec 4) (h : BitVec 1) (d : BitVec 7) (a : BitVec 7)
  /-- SEL (R333). -/
  | sel (g : BitVec 4) (h : BitVec 1) (d : BitVec 7) (a : BitVec 7) (b : BitVec 7)
  /-- BRA (R345). -/
  | bra (g : BitVec 4) (d : BitVec 22)
  /-- CALL (R345). -/
  | call (g : BitVec 4) (d : BitVec 22)
  /-- JR (R346). -/
  | jr (g : BitVec 4) (h : BitVec 1) (a : BitVec 7)
  /-- JALR (R346). -/
  | jalr (g : BitVec 4) (h : BitVec 1) (a : BitVec 7)
  /-- RET (R346). -/
  | ret (g : BitVec 4) (h : BitVec 1)
  /-- JOIN (R347). -/
  | join (g : BitVec 4) (d : BitVec 22)
  /-- RDY (R348). -/
  | rdy (g : BitVec 4) (h : BitVec 1)
  /-- RDY_W (R348). -/
  | rdyW (g : BitVec 4) (h : BitVec 1)
  /-- WND (R342). -/
  | wnd (g : BitVec 4) (h : BitVec 1) (a : BitVec 7) (i : BitVec 7)
  /-- MCALL (R343). -/
  | mcall (x : BitVec 5) (d : BitVec 7) (a : BitVec 7) (b : BitVec 7)
  /-- LD (R367). -/
  | ld (pfx : Option (BitVec 26)) (g : BitVec 4) (s : BitVec 1) (d : BitVec 7) (a : BitVec 7) (s2 : BitVec 2) (o : BitVec 2) (c : BitVec 3)
  /-- ST (R369). -/
  | st (pfx : Option (BitVec 26)) (g : BitVec 4) (s : BitVec 1) (d : BitVec 7) (a : BitVec 7) (s2 : BitVec 2) (o : BitVec 2) (c : BitVec 3)
  /-- ATOM (R380). -/
  | atom (pfx : BitVec 26) (g : BitVec 4) (h : BitVec 1) (d a b : BitVec 7)
  /-- CAS (R381). -/
  | cas (pfx : BitVec 26) (g : BitVec 4) (h : BitVec 1) (d a b : BitVec 7)
  /-- FENCE (R384). -/
  | fence (g : BitVec 4) (h : BitVec 1) (o : BitVec 2) (c : BitVec 3)
  /-- MMA (R395). -/
  | mma (pfx : BitVec 26) (g : BitVec 4) (h : BitVec 1) (d a b : BitVec 7)
  /-- MTX_ZERO (R407). -/
  | mtxZero (g : BitVec 4) (d : BitVec 7) (a : BitVec 7)
  /-- MTX_LD (R407). -/
  | mtxLd (g : BitVec 4) (h : BitVec 1) (d : BitVec 7) (a : BitVec 7)
  /-- MTX_ST (R407). -/
  | mtxSt (g : BitVec 4) (h : BitVec 1) (d : BitVec 7) (a : BitVec 7)
  /-- MTX_RD (R408). -/
  | mtxRd (g : BitVec 4) (h : BitVec 1) (d : BitVec 7) (a : BitVec 7)
  /-- MTX_REL (R407). -/
  | mtxRel (g : BitVec 4) (d : BitVec 7)
  /-- CPY (R413). -/
  | cpy (pfx : BitVec 26) (g : BitVec 4) (h : BitVec 1) (d a b : BitVec 7)
  /-- GTH (R413). -/
  | gth (pfx : BitVec 26) (g : BitVec 4) (h : BitVec 1) (d a b : BitVec 7)
  /-- TRAY_CFG (R416). -/
  | trayCfg (g : BitVec 4) (h : BitVec 1) (d : BitVec 7) (a : BitVec 7)
  /-- TRAY_REL (R416). -/
  | trayRel (g : BitVec 4) (h : BitVec 1) (d : BitVec 7) (a : BitVec 7)
  /-- TRAY_RSV (R416). -/
  | trayRsv (g : BitVec 4) (h : BitVec 1) (d : BitVec 7) (a : BitVec 7)
  /-- TRAY_COMMIT (R416). -/
  | trayCommit (g : BitVec 4) (a : BitVec 7)
  /-- TRAY_POP (R416). -/
  | trayPop (g : BitVec 4) (h : BitVec 1) (d : BitVec 7) (a : BitVec 7)
  /-- TRAY_DONE (R416). -/
  | trayDone (g : BitVec 4) (a : BitVec 7)
  /-- TRAY_CNT (R416). -/
  | trayCnt (g : BitVec 4) (h : BitVec 1) (d : BitVec 7) (a : BitVec 7)
  /-- BAR_INIT (R417). -/
  | barInit (g : BitVec 4) (s : BitVec 7) (a : BitVec 7) (l : BitVec 3)
  /-- BAR_ARV (R417). -/
  | barArv (g : BitVec 4) (s : BitVec 7) (l : BitVec 3)
  /-- BAR_ARVB (R417). -/
  | barArvb (g : BitVec 4) (h : BitVec 1) (s : BitVec 7) (a : BitVec 7) (l : BitVec 3)
  /-- BAR_WAIT (R417). -/
  | barWait (g : BitVec 4) (h : BitVec 1) (s : BitVec 7) (l : BitVec 3)
  /-- BAR_REL (R417). -/
  | barRel (g : BitVec 4) (s : BitVec 7) (l : BitVec 3)
  /-- WAIT (R415). -/
  | wait (g : BitVec 4) (k : BitVec 3) (n : BitVec 7)
  /-- INVK (R419). -/
  | invk (pfx : BitVec 26) (g : BitVec 4) (h : BitVec 1) (d a b : BitVec 7)
  /-- CHIT_AWAIT (R420). -/
  | chitAwait (g : BitVec 4) (a : BitVec 7)
  /-- CHIT_TEST (R420). -/
  | chitTest (g : BitVec 4) (h : BitVec 1) (d : BitVec 7) (a : BitVec 7)
  /-- CHIT_FREE (R420). -/
  | chitFree (g : BitVec 4) (a : BitVec 7)
  /-- CHIT_SLOT (R420). -/
  | chitSlot (g : BitVec 4) (h : BitVec 1) (d : BitVec 7) (a : BitVec 7)
  /-- POOL_SCR (R422). -/
  | poolScr (g : BitVec 4) (h : BitVec 1) (d : BitVec 7) (a : BitVec 7)
  /-- POOL_MXS (R422). -/
  | poolMxs (g : BitVec 4) (h : BitVec 1) (d : BitVec 7) (a : BitVec 7)
  /-- WMON_CFG (R423). -/
  | wmonCfg (g : BitVec 4) (h : BitVec 1) (d : BitVec 7) (a : BitVec 7)
  /-- WMON_REL (R423). -/
  | wmonRel (g : BitVec 4) (h : BitVec 1) (d : BitVec 7) (a : BitVec 7)
  /-- WMON_RDLO (R423). -/
  | wmonRdlo (g : BitVec 4) (h : BitVec 1) (d : BitVec 7) (a : BitVec 7)
  /-- WMON_RDHI (R423). -/
  | wmonRdhi (g : BitVec 4) (h : BitVec 1) (d : BitVec 7) (a : BitVec 7)
  /-- MFS (R431). -/
  | mfs (g : BitVec 4) (n : BitVec 1) (d : BitVec 7) (n2 : BitVec 7)
  /-- MTS (R432). -/
  | mts (g : BitVec 4) (n : BitVec 1) (a : BitVec 7) (n2 : BitVec 7)
  /-- TRAP (R425). -/
  | trap (g : BitVec 4) (c : BitVec 22)
  /-- EXIT (R430). -/
  | exit (g : BitVec 4) (h : BitVec 1)
  /-- BREAK (R426). -/
  | brk (g : BitVec 4) (h : BitVec 1) (a : BitVec 7)
  /-- RESUME (R251). -/
  | resume (g : BitVec 4) (h : BitVec 1)
  /-- FAIL (R251). -/
  | fail (g : BitVec 4) (h : BitVec 1)
  /-- REFQ (R184). -/
  | refq (g : BitVec 4) (h : BitVec 1) (d : BitVec 7) (a : BitVec 7)
  /-- LOCQ (R427). -/
  | locq (g : BitVec 4) (h : BitVec 1) (d : BitVec 7) (a : BitVec 7)
  /-- TIME (R426). -/
  | time (g : BitVec 4) (h : BitVec 1) (d : BitVec 7)
  /-- PLACE (R428). -/
  | place (g : BitVec 4) (h : BitVec 1) (d : BitVec 7) (a : BitVec 7)
  /-- MLOAD (R429). -/
  | mload (g : BitVec 4) (h : BitVec 1) (d : BitVec 7) (a : BitVec 7)
  /-- TSR_OPEN (R424). -/
  | tsrOpen (g : BitVec 4) (h : BitVec 1) (a : BitVec 7)
  /-- TSR_CLOSE (R424). -/
  | tsrClose (g : BitVec 4) (h : BitVec 1) (a : BitVec 7)
  /-- CONTEXT_RESTORE_DONE (R147). -/
  | contextRestoreDone (die k : Nat)
  /-- PCIE_LINK_UP (R30). -/
  | pcieLinkUp (iod : Nat) (cxl : Bool)
  /-- SERVICE_REQUEST (R115). -/
  | serviceRequest (die svc : Nat)
  /-- ETHERNET_FRAME_RECEIVE (R117). -/
  | ethernetFrameReceive (iod conn : Nat) (prio : Nat) (payload : List (BitVec 8))
  /-- COLD_RESET (R29). -/
  | coldReset
  /-- CONFIG_PHASE_DONE (R27). -/
  | configPhaseDone
  /-- MANAGERS_PHASE_DONE (R26). -/
  | managersPhaseDone
  /-- RECOVERY_CHECK_DONE (R33). -/
  | recoveryCheckDone
  /-- UNDERVOLT_TIMEOUT (R17). -/
  | undervoltTimeout
  /-- LACK (R41). -/
  | lack
  /-- LNAK (R41). -/
  | lnak
  /-- DIE_CACHE_ACCESS (R50). -/
  | dieCacheAccess
  /-- GETS (R53). -/
  | gets
  /-- GETX (R53). -/
  | getx
  /-- GETR (R66). -/
  | getr
  /-- TOKD (R53). -/
  | tokd
  /-- TOKN (R53). -/
  | tokn
  /-- DATR (R66). -/
  | datr
  /-- RMIS (R66). -/
  | rmis
  /-- DLOSS (R64). -/
  | dloss
  /-- PREQ (R57). -/
  | preq
  /-- PACT (R59). -/
  | pact
  /-- PDONE (R58). -/
  | pdone
  /-- PDEACT (R59). -/
  | pdeact
  /-- PACK (R58). -/
  | pack
  /-- LOST (R61). -/
  | lost
  /-- MEND (R63). -/
  | mend
  /-- MRET (R62). -/
  | mret
  /-- MDONE (R63). -/
  | mdone
  /-- BRDQ (R66). -/
  | brdq
  /-- BRDR (R67). -/
  | brdr
  /-- EPRQ (R110). -/
  | eprq
  /-- EPRS (R110). -/
  | eprs
  /-- NXRQ (R110). -/
  | nxrq
  /-- NXRS (R110). -/
  | nxrs
  /-- OCHK (R85). -/
  | ochk
  /-- OCNF (R85). -/
  | ocnf
  /-- EVNT (R121). -/
  | evnt
  /-- NCTL_EN_SET (R71). -/
  | nctlEnSet
  /-- NCTL_EN_CLEAR (R71). -/
  | nctlEnClear
  /-- REPLY_WRITE (R112). -/
  | replyWrite
  /-- PING (R111). -/
  | ping
  /-- REGRD (R111). -/
  | regrd
  /-- REGWR (R111). -/
  | regwr
  /-- UNMAP (R193). -/
  | unmap
  /-- RDROP (R66). -/
  | rdrop
  /-- LOSTCLR (R111). -/
  | lostclr
  /-- DIEOFF (R113). -/
  | dieoff
  /-- DIEON (R114). -/
  | dieon
  /-- EVPOST (R120). -/
  | evpost
  /-- MEXT (R123). -/
  | mext
  /-- ATTEST (R124). -/
  | attest
  /-- OWNKEY (R125). -/
  | ownkey
  /-- ENDPOINT_BADTYPE (R111). -/
  | endpointBadtype
  /-- BATCH_SEND (R135). -/
  | batchSend
  /-- COPY_DONE (R234). -/
  | copyDone
  /-- GATHER_DONE (R236). -/
  | gatherDone
  /-- ENGINE_SLOT_COMMIT (R238). -/
  | engineSlotCommit
  /-- SFU_RESULT (R360). -/
  | sfuResult
  /-- MMA_COMMIT (R395). -/
  | mmaCommit
  /-- MTX_TRANSFER_DONE (R407). -/
  | mtxTransferDone
  /-- PENDING_REGISTER_WRITE (R305). -/
  | pendingRegisterWrite
  deriving DecidableEq, Repr

end Sys2Proof
end

