-- ==== Sys2Proof/Machine/State.lean ====
section
/-! DEFINITION. The state of one Sygal 7480 module: everything the manual gives the machine, as plain data. Tables are
lists of (key, value) pairs read with a default; memory is a list of (address, byte) pairs in one canonical form. -/

namespace Sys2Proof.Machine

/-! ## Tables -/

/-- The value a table lists under a key. -/
def lookup? {κ α : Type} [DecidableEq κ] (k : κ) : List (κ × α) → Option α
  | [] => none
  | (j, v) :: t => if j = k then some v else lookup? k t

/-- The value a table lists under a key, or the default. -/
def lookupD {κ α : Type} [DecidableEq κ] (k : κ) (d : α) (m : List (κ × α)) : α :=
  (lookup? k m).getD d

/-- The table with a key's value replaced, or added at the end. -/
def put {κ α : Type} [DecidableEq κ] (k : κ) (v : α) : List (κ × α) → List (κ × α)
  | [] => [(k, v)]
  | (j, w) :: t => if j = k then (k, v) :: t else (j, w) :: put k v t

/-- The table without a key. -/
def drop {κ α : Type} [DecidableEq κ] (k : κ) (m : List (κ × α)) : List (κ × α) :=
  m.filter (fun p => decide (p.1 ≠ k))

/-! ## Names -/

/-- A core of a compute die (R126). -/
structure CoreId where
  die : Nat
  core : Nat
  deriving DecidableEq, Repr

/-- A warp slot of a partition (R150). -/
structure WarpId where
  die : Nat
  core : Nat
  part : Nat
  slot : Nat
  deriving DecidableEq, Repr

/-- A thread: one lane of one warp slot (R126, R152). -/
structure ThreadId where
  warp : WarpId
  lane : Nat
  deriving DecidableEq, Repr

/-- A formed group: its partition, its port (0 main, 1 narrow) and its run buffer (R154, R156). -/
structure GroupKey where
  die : Nat
  core : Nat
  part : Nat
  port : Nat
  buf : Nat
  deriving DecidableEq, Repr

/-! ## Registers, threads and warps -/

/-- A register: 32 bits of data and a 4-bit format tag (R272). -/
structure Reg where
  data : BitVec 32
  tag : BitVec 4
  deriving DecidableEq, Repr

/-- Zero with tag B32, which every register holds when its warp starts (R128) and every temporary at formation (R296). -/
def Reg.zero : Reg := ⟨0, 0⟩

/-- The states of a thread (R152). -/
inductive ThreadState where
  | ready | blocked | fetchWait | grouped | halted | exited
  deriving DecidableEq, Repr

/-- What a BLOCKED thread waits for (R152); `gang` holds the two words of the MMA, and whether its run marks a region entry,
`pendingReg` the physical registers that the next run reads; `released` says that the generation has completed, the scope of the
acquire that the wait then is, and the failed check of its weigh monitors, if any (R226, R245). -/
inductive WaitCond where
  | counter (cls n : Nat)
  | barrier (level slot gen : Nat)
  | tray (name : Nat)
  | chit (c : BitVec 64)
  | meet (whole : Bool) (m : BitVec 16)
  | join (addr : BitVec 64) (since : Nat)
  | gang (mma : BitVec 64) (entry : Bool)
  | pendingReg (regs : List Nat)
  | parked (slot : Nat)
  | broken (level slot : Nat)
  | released (level slot scope : Nat) (fail : Option (Nat × Nat))
  deriving DecidableEq, Repr

/-- A trap to be taken: class, subcode, detail address, FLAGS beyond V, and where it resumes if not at REPC (R247 to R255). -/
structure Trap where
  cls : Nat
  sub : Nat
  addr : BitVec 64
  flags : BitVec 8
  xpc : Option (BitVec 64)
  deriving DecidableEq, Repr

/-- An entry of the trap detail buffer (R249). -/
structure TrapDetail where
  addr : BitVec 64
  cls : BitVec 8
  sub : BitVec 8
  flags : BitVec 8
  recn : BitVec 32
  deriving DecidableEq, Repr

/-- Where a thread stands with its last class 12 (R260): none at the place where it stands; its handler runs, which it entered at an
address; it resumes there; it stands there again, and takes no second one there. -/
inductive StopMark where
  | clear
  | handling (pc : BitVec 64)
  | returning
  | standing
  deriving DecidableEq, Repr

/-- One thread (R152, R250, R252, R258, R262). `regs` lists the physical registers of the thread counted from the first
of its warp's range; `pending` names the registers whose value has not arrived, with the mark of the write due (R305); `counted` is the RDY
function whose meet the thread stands at and has been counted for (R348); `atSafe` says that it stands at a safe point (R257); `stopped` that
a STOP that stays set has stopped it, and it has passed no safe point since, and `bpHeld` that it passed the breakpoint in handler mode
(R251, R260); `mmaBase` is its warp's `mmaCount` as it last entered a region (R256). -/
structure Thread where
  st : ThreadState
  pc : BitVec 64
  regs : List (Nat × Reg)
  preds : BitVec 12
  pending : List (Nat × Nat)
  wb : Nat
  lr : BitVec 64
  repc : BitVec 64
  recn : BitVec 32
  reenter : Bool
  newRegion : Bool
  xpc : BitVec 64
  xcs : BitVec 24
  hm : Bool
  lsp : BitVec 32
  rsp : BitVec 16
  meet0 : BitVec 16
  meet1 : BitVec 16
  tdb : TrapDetail
  wait : Option WaitCond
  readyAt : Nat
  safeAt : Nat
  atSafe : Bool
  stopped : Bool
  bpHeld : Bool
  stopMark : StopMark
  mmaBase : Nat
  late : List Trap
  counted : Option Bool
  settled : Nat
  faultVa : BitVec 64
  deriving DecidableEq, Repr

/-- Kinds of halt a warp is under (R145, R263). -/
inductive Halt where
  | save (req : Nat)
  | fatal (grid : Nat)
  deriving DecidableEq, Repr

/-- An engine operation issued and not yet retired: its class, its number, whether it has completed (R216). -/
structure EngOp where
  cls : Nat
  id : Nat
  done : Bool
  deriving DecidableEq, Repr

/-- An engine fault that waits for its delivery point (R414), with what each issuing lane recorded (R255). -/
structure EngFault where
  id : Nat
  cls : Nat
  trap : Trap
  lanes : List (Nat × BitVec 64 × BitVec 32)
  deriving DecidableEq, Repr

/-- An accumulator tile (R386): tag, elements by index 64 × i + j, segment indices, commit stamp. -/
structure Tile where
  tag : BitVec 4
  elems : List (Nat × BitVec 64)
  segs : List Nat
  stamp : Option (BitVec 32 × Nat)
  live : Bool
  deriving DecidableEq, Repr

/-- A tile stamp record, open or closed; `ops` are the operations issued before its close (R269). -/
structure StampRec where
  tag : BitVec 32
  t0 : Nat
  t1 : Option Nat
  t3 : Nat
  owt : Nat
  ops : List Nat
  deriving DecidableEq, Repr

/-- One warp (R128, R215, R256, R431); `firing` is the gang firing that its next MMA is part of (R402), `got` the sectors that have
been read for a run or a microprogram of it, by 52-bit address, a single byte standing for the subcode of a failure; `tsr` is the
open tile stamp record, `stamps` those closed and not yet written (R269). -/
structure Warp where
  bslot : Nat
  wp : Nat
  base : Nat
  lgw : BitVec 32
  gang : BitVec 32
  fps : BitVec 32
  fpc : BitVec 32
  chk : BitVec 32
  tbase : BitVec 64
  wdog : BitVec 32
  cpy : Nat
  gth : Nat
  mtx : Nat
  rmt : Nat
  inv : Nat
  ops : List EngOp
  faults : List EngFault
  mmaCount : Nat
  tiles : List (Nat × Tile)
  tsr : Option StampRec
  stamps : List StampRec
  halt : Option Halt
  poolPending : Bool
  firing : Option (Nat × List WarpId)
  got : List (Nat × List Byte)
  deriving DecidableEq, Repr

/-- A register or predicate write of a fixed-latency instruction whose latency has not passed (R304, R306): the lane,
what was written (register: physical number; temporaries from 1000; predicates from 2000; the window base 3000), the
issue cycle at which it may be read, and what stood there before. -/
structure Hazard where
  lane : Nat
  what : Nat
  due : Nat
  old : Reg
  deriving DecidableEq, Repr

/-- A formed group and its run buffer (R154, R156, R160, R296, R299). `here` and `next` are the word indices of the current
and the next instruction, `cycle` the issue cycles that the stall counts have set so far (R303), `varDests` the word index and
field of each variable-latency destination named so far (R305), `entered` whether the members have entered their region
(R252), `targets` the control transfers taken by lane, `seed` the slot of the thread that the group was formed for (R154), `dueAt` the
earliest time of the next issue (R303), `held` that its next instruction could not issue when it was tried. -/
structure Group where
  members : List (Option Nat)
  addr : BitVec 64
  words : List Word
  trailerA : Word
  trailerB : Word
  fetched : Bool
  here : Nat
  next : Nat
  cycle : Nat
  temps : List ((Nat × Nat) × Reg)
  hazards : List Hazard
  latch : List (Nat × Nat × Nat)
  targets : List (Nat × BitVec 64)
  varDests : List (Nat × Nat)
  entered : Bool
  seed : Nat
  formedAt : Nat
  dueAt : Nat
  held : Bool
  deriving DecidableEq, Repr

/-- A bundle resident on a core, in a bundle slot 0–63 (R126, R128, R163). It was ready from `since` with priority `base`, and was placed
at `placedAt` with `prio` (R134). `ready` says that its core's wring has completed, `begun`
that its warps have begun. -/
structure Bundle where
  bn : Nat
  grid : Nat
  member : Nat
  element : Nat
  wpb : Nat
  regs : Nat
  accw : Nat
  scrSegs : Nat
  mxs : List Nat
  scr : List Host.Cell
  frame : BitVec 64
  asid : BitVec 8
  prio : Nat
  since : Nat
  base : Nat
  placedAt : Nat
  ready : Bool
  begun : Bool
  deriving DecidableEq, Repr

/-! ## The pool -/

/-- Roles of a pool segment (R161). -/
inductive Role where
  | reg | cch | mxs | scr
  deriving DecidableEq, Repr

/-- An entry of the segment map (R163). -/
structure Segment where
  role : Role
  wrg : Bool
  own : Option Nat
  idx : Nat
  deriving DecidableEq, Repr

/-- A value on its way to pending registers (R305), or a completion failure that ends the wait (R375). -/
structure Return where
  thread : ThreadId
  mark : Nat
  regs : List (Nat × Reg)
  trap : Option Trap
  deriving DecidableEq, Repr

/-- What the pool controller is carrying out (R169, R171): the map that will hold, the POOL it answers with the values that its
destinations wait for, and the bundle it places. -/
structure Wring where
  planned : List Segment
  pool : Option (WarpId × List Return)
  place : Option Nat
  deriving DecidableEq, Repr

/-- A line of the first-level data cache (R164, R213): 128 bytes, valid and dirty marks by byte, and the threads whose
stores are among the dirty bytes (R375). -/
structure L1Line where
  pa : Nat
  set : Nat
  way : Nat
  data : BitVec 1024
  valid : BitVec 128
  dirty : BitVec 128
  cls : BitVec 2
  consumed : Bool
  used : Nat
  writers : List ThreadId
  deriving DecidableEq, Repr

/-- A slot of the microprogram control store (R177, R343). -/
structure MicroSlot where
  grid : Nat
  addr : BitVec 64
  words : List Word
  deriving DecidableEq, Repr

/-- A TLB entry: address space, page base and size, leaf (R192). -/
structure TlbEntry where
  asid : BitVec 8
  va : Nat
  size : Nat
  leaf : BitVec 64
  deriving DecidableEq, Repr

/-- States of a tray slot (R238). -/
inductive SlotState where
  | free | filling | filled | reading | spent
  deriving DecidableEq, Repr

/-- A physical tray of a core (R237, R238). -/
structure Tray where
  bslot : Nat
  name : Nat
  offset : Nat
  size : Nat
  n : Nat
  p : Nat
  c : Nat
  f : Nat
  freec : Nat
  slots : List SlotState
  deriving DecidableEq, Repr

/-- A barrier slot (R224, R225): holder, name, GEN, membership, arrivals, PEND, BRK. `part` holds the arrivals of single
threads of units that have not wholly arrived; `last` the generation for which each unit last arrived (R226, R227);
`failed` the check failures of completed generations, by generation (R245); `landed` says that an engine has subtracted pending
bytes in the open generation, and `pended` names the completed ones in which one did (R207). -/
structure BarSlot where
  holder : Nat
  name : Nat
  gen : BitVec 16
  mask : BitVec 64
  arrv : BitVec 64
  count : Nat
  pend : Nat
  brk : Bool
  part : List (Nat × Nat × Nat)
  last : List (Nat × BitVec 16)
  failed : List (BitVec 16 × Nat × Nat)
  landed : Bool
  pended : List (BitVec 16)
  deriving DecidableEq, Repr

/-- An arrival recorded in a rendezvous latch (R402). -/
structure GangArrival where
  part : Nat
  slot : Nat
  gang : BitVec 32
  offA : BitVec 32
  offB : BitVec 32
  computing : Bool
  deriving DecidableEq, Repr

/-- One core (R150, R162). `samplePart`, `sampleSlot` and `sampledAt` are the sampler's place and its last period (R267): the slot
sampled next in each partition stands in four bits of `sampleSlot`. `busy` gives when a partition's main port (0), narrow port (1),
F64 rate (2) and special-function lanes (3) take the next instruction (R150, R353, R360); `mainReads` the time and the lane pairs
and banks of a partition's last main-port reads (R159); `gens` the GEN of physical slots that nothing holds (R225). -/
structure Core where
  bundles : List (Nat × Bundle)
  segs : List Segment
  wring : Option Wring
  l1 : List L1Line
  icache : List (Nat × BitVec 1024)
  micro : List (Nat × MicroSlot)
  trays : List (Nat × Tray)
  bars : List (Nat × BarSlot)
  gens : List (Nat × BitVec 16)
  latches : List ((Nat × Nat) × List GangArrival)
  tlb : List TlbEntry
  samplePart : Nat
  sampleSlot : Nat
  sampledAt : Nat
  duty : List (Nat × Nat)
  busy : List ((Nat × Nat) × Nat)
  mainReads : List (Nat × (Nat × List (Nat × Nat)))
  deriving DecidableEq, Repr

/-- A weigh monitor (R242, R243). `early` holds what counts towards the next generation: marks (1 OV, 2 NF, 4 PF) and addends;
`total` is TOTAL of the last completed generation (R244). -/
structure Monitor where
  spread : Nat
  name : Nat
  block : BitVec 512
  asid : BitVec 8
  level : Nat
  slot : Nat
  acc : Int
  ov : Bool
  nf : Bool
  pf : Bool
  early : List (Nat × Int)
  total : Int
  deriving DecidableEq, Repr

/-- One cluster (R192, R224, R242, R400); `gens` holds the GEN of physical slots that nothing holds (R225). -/
structure Cluster where
  bars : List (Nat × BarSlot)
  gens : List (Nat × BitVec 16)
  monitors : List (Nat × Monitor)
  tlb : List TlbEntry
  fetches : List (Nat × Nat × List Nat)
  deriving DecidableEq, Repr

/-! ## Memory accesses in flight -/

/-- What an access does to the bytes it names. `atom` holds the operation code of R379 (8 for CAS), and the kind and
width follow R382. -/
inductive AccKind where
  | read | write | atom (opn : Nat) (kind : Nat) | flag
  deriving DecidableEq, Repr

/-- Who waits for an access (R44, R78, R213); `words` is a warp that waits for the words of a run or of a microprogram, `hart` a service
core (0 to 15) or the die manager of a compute die (16 to 23) (R222). -/
inductive AccFor where
  | hart (n : Nat)
  | lane (t : ThreadId)
  | writeBack (c : CoreId) (ts : List ThreadId)
  | host (iod : Nat)
  | remote (iod : Nat) (k : Nat)
  | engine (id : Nat)
  | words (w : WarpId)
  | service
  deriving DecidableEq, Repr

/-- One access to one sector of global memory (R376). `dest` lists the registers a read or atomic writes, with tags; `wmask` and
`wdata` are the bytes written, or for a read the bytes that the first-level cache supplied when it issued; `acq` is the scope
of an acquire, zero for none. Of a host's read `mark` is the meta value: 0 I, 1 S, 2 A (R102). `op`, where it is
not 0, names the instruction whose lanes' reads of the same bytes are one access (R376). -/
structure Access where
  id : Nat
  who : AccFor
  site : Nat
  kind : AccKind
  va : BitVec 64
  pa : Nat
  size : Nat
  wdata : BitVec 512
  wmask : BitVec 64
  comp : BitVec 128
  dest : List (Nat × BitVec 4)
  signed : Bool
  cls : BitVec 2
  rep : Bool
  mark : Nat
  acq : Nat
  op : Nat := 0
  deriving DecidableEq, Repr

/-- A special-function operation whose result is still to be written (R360). -/
structure SfuOp where
  thread : ThreadId
  fn : BitVec 4
  tag : BitVec 4
  arg : BitVec 64
  dest : Option Nat
  mark : Nat
  fz : Bool
  ten : BitVec 6
  due : Nat
  deriving DecidableEq, Repr

/-- Who waits for a walk: a thread's access, an engine operation, or a matrix operation. -/
inductive Asker where
  | thread (x : ThreadId)
  | engine (id : Nat)
  | matrix (id : Nat)
  deriving DecidableEq, Repr

/-- An access that waits for a walk: whose it is and of which core, its own address, and its kind: 0 read, 1 write, 2 fetch, 3
atomic. -/
structure WalkAsk where
  core : CoreId
  who : Asker
  va : BitVec 64
  kind : Nat
  deriving DecidableEq, Repr

/-- A page-table walk of a die, queued or running, with every access of the die that misses the same page (R192). -/
structure Walk where
  asid : BitVec 8
  va : BitVec 64
  asks : List WalkAsk
  deriving DecidableEq, Repr

/-- A fault slot of a die (R196). -/
structure FaultSlot where
  asid : BitVec 8
  page : Nat
  sub : Nat
  va : BitVec 64
  kind : Nat
  copies : List (Nat × BitVec 64)
  deriving DecidableEq, Repr

/-! ## Engines -/

/-- An operation of a copy or gather engine (R231 to R236, R255): the parts moved, the fault slot it is suspended in, the tray
slots it has claimed and popped, in order, which claimed ones it has committed, and what it has read of other modules; `done` names
the pieces stored of parts not yet moved, part and offset, and `before` holds the former values of bytes that a copy has overwritten and
may yet read as its source (R232). -/
structure EngineJob where
  id : Nat
  gather : Bool
  warp : WarpId
  desc : List Byte
  lanes : List (Nat × BitVec 64 × BitVec 32)
  sent : List Nat
  suspended : Option Nat
  fills : List Nat
  committed : Nat
  pops : List Nat
  rowPops : List Nat
  got : List (Nat × List Byte)
  asked : List Nat
  done : List (Nat × Nat)
  before : List (BitVec 64 × Byte)
  deriving DecidableEq, Repr

/-- An operation of a matrix unit (R388). `fn` 0 ZERO, 1 LD, 2 ST, 3 RD, 4 REL, 5 MMA. `fresh` says that it reserved its tile's
segments; `firing` names the gang firing it is part of and the computing members; `reads` are the elements that RD returns
(lane, mark, first register, column); `got` and `waits` are the lines that its cluster's fetch unit has delivered, and those still
to come; `ten` are FPC's trap enables at its issue, and `passed` says that a later write of FPS comes after its flags (R285). -/
structure MatrixJob where
  id : Nat
  warp : WarpId
  fn : Nat
  tile : Nat
  recA : List Byte
  recB : List Byte
  rm : BitVec 3
  za : Bool
  tag : BitVec 4
  stamp : BitVec 32 × Nat
  fresh : Bool
  firing : Option (Nat × List WarpId)
  reads : List (Nat × Nat × Nat × Nat)
  got : List (Nat × List Byte)
  waits : List Nat
  issued : Nat
  ten : BitVec 6
  passed : Bool
  deriving DecidableEq, Repr

/-! ## Transport and coherence -/

/-- A packet of the interposer transport (R34, R35). -/
structure Packet where
  opc : BitVec 8
  dlen : Nat
  vcl : BitVec 2
  src : Nat
  dst : Nat
  rsock : Nat
  rmod : BitVec 8
  txn : BitVec 12
  sector : Nat
  tok : Nat
  own : Bool
  dirty : Bool
  ser : BitVec 8
  attempt : BitVec 2
  pk : Bool
  cause : BitVec 4
  rqlen : Nat
  data : List (BitVec 256)
  deriving DecidableEq, Repr

/-- A packet of the Nimcor fabric (R75). -/
structure NPacket where
  nopc : BitVec 8
  ndlen : Nat
  cm : Bool
  ce : Bool
  ep : Bool
  fsyn : BitVec 3
  smod : BitVec 8
  dmod : BitVec 8
  ssock : Nat
  plane : Nat
  pent : BitVec 8
  ntag : BitVec 16
  pa : BitVec 52
  stat : BitVec 4
  aop : BitVec 8
  bmask : BitVec 128
  opa : BitVec 64
  opb : BitVec 64
  fseq : BitVec 16
  cnt : List Nat
  data : List (BitVec 512)
  deriving DecidableEq, Repr

/-- What a link carries: an interposer packet, or one flit of a Nimcor packet (R41, R74). -/
inductive Payload where
  | packet (p : Packet)
  | flit (n : NPacket) (i : Nat)
  deriving DecidableEq, Repr

/-- One direction of a link (R41, R42); `esc` names by LSEQ the packets in its replay buffer that went on the escape sub-channel (R40). -/
structure Link where
  nextSeq : Nat
  expect : Nat
  replay : List (Nat × Payload)
  rounds : Nat
  progressAt : Nat
  lackAt : Nat
  lackDue : Bool
  retrainAt : Option Nat
  down : Bool
  esc : List Nat
  deriving DecidableEq, Repr

/-- An item on the wire of a link, with its LSEQ and its integrity tag (R34, R37). -/
structure WireItem where
  link : Nat
  seq : Nat
  item : Payload
  crc : BitVec 32
  deriving DecidableEq, Repr

/-- A LACK or LNAK on its way back to the sender of a link (R41). -/
structure LinkMsg where
  link : Nat
  nak : Bool
  seq : Nat
  deriving DecidableEq, Repr

/-- The router error register XERR (R43). -/
structure Xerr where
  crce : BitVec 12
  rply : BitVec 8
  disc : BitVec 7
  ldown : BitVec 5
  deriving DecidableEq, Repr

/-- A packet in a router: in the buffers of the link that it came by, if any, for its channel or for the channel's escape sub-channel
(R40). -/
structure Buffered where
  router : Nat
  link : Option Nat
  esc : Bool
  packet : Packet
  deriving DecidableEq, Repr

/-- The interposer transport (R34 to R45). -/
structure Net where
  links : List (Nat × Link)
  wire : List WireItem
  msgs : List LinkMsg
  routers : List Buffered
  inbox : List (Nat × Packet)
  xerr : List (Nat × Xerr)
  deriving DecidableEq, Repr

/-- Host states of a sector at a far cache (R102). -/
inductive HostState where
  | i | s | e
  deriving DecidableEq, Repr

/-- A sector of a die cache or far cache (R48, R188). `cls` and `consumed` are its line's, the same in both sectors of a die cache's line;
`filled` marks a sector whose fill no access has used yet, so that the access it was filled for is no hit. -/
structure Line where
  tok : Nat
  own : Bool
  dirty : Bool
  dv : Bool
  rep : Bool
  ser : BitVec 8
  data : BitVec 512
  cls : BitVec 2
  consumed : Bool
  filled : Bool
  used : Nat
  hs : HostState
  far : Bool
  deriving DecidableEq, Repr

/-- A miss entry (R48, R52, R56): `rmod` is the module named in the persistent request that it raised, `covered` marks a sector that only
a BRDQ's range covers (R67). -/
structure Miss where
  sector : Nat
  write : Bool
  txn : BitVec 12
  attempt : Nat
  first : Nat
  last : Nat
  raised : Bool
  rmod : BitVec 8
  replica : Bool
  covered : Bool
  sent : BitVec 10
  deriving DecidableEq, Repr

/-- A sector at its home (R48). -/
structure HomeEntry where
  htok : Nat
  hown : Bool
  ser : BitVec 8
  lostb : Bool
  deriving DecidableEq, Repr

/-- Stages of an entry of the persistent request table (R57, R58). -/
inductive PreqStage where
  | waiting | marked | active | ending
  deriving DecidableEq, Repr

/-- An entry of a home's persistent request table (R57, R58). -/
structure PreqEntry where
  sector : Nat
  rmod : BitVec 8
  rsock : Nat
  pk : Bool
  stage : PreqStage
  packs : Nat
  pdone : Bool
  since : Nat
  deriving DecidableEq, Repr

/-- An active request known to a holder site (R59). -/
structure Active where
  site : Nat
  sector : Nat
  rmod : BitVec 8
  rsock : Nat
  pk : Bool
  deriving DecidableEq, Repr

/-- A sector being mended at its home (R62). -/
structure Mend where
  sector : Nat
  since : Nat
  got : List Nat
  current : Bool
  deriving DecidableEq, Repr

/-- An entry of a destination-set predictor (R51). -/
structure PredEntry where
  tag : BitVec 14
  mask : BitVec 10
  deriving DecidableEq, Repr

/-- A back-invalidate snoop of a far cache, and the demand that waits for it (R103, R104); `sent` once it is among the 256 outstanding of
its port (R100). -/
structure Snoop where
  iod : Nat
  sector : Nat
  inval : Bool
  since : Nat
  raised : Bool
  sent : Bool
  demand : Option Packet
  deriving DecidableEq, Repr

/-- What a die cache's agent asks of the host, or tells it (R100, R106). -/
inductive CxlOp where
  | rdShared | rdOwn | rdCurr | itoMWr | dirtyEvict | cleanEvict
  deriving DecidableEq, Repr

/-- The coherence state of the module (R46 to R69); `hostReads` is what the PCIe ports have sent the host: port, address,
data; `hostRefused` the requests that they have answered as not supported: port, address (R30, R101); `cxlSent` the CXL.cache messages
sent: port, address, kind (R100). `doneEarly` are the PDONEs whose PREQ is not in its home's table yet (R58); `farFails` the sectors of far
memory that a unit of a die asked for in vain, and when (R106). -/
structure Coherence where
  lines : List ((Nat × Nat) × Line)
  misses : List (Nat × Miss)
  homes : List (Nat × HomeEntry)
  preqs : List PreqEntry
  preqHeld : List Packet
  active : List Active
  lasting : List (Nat × Nat)
  mends : List Mend
  mendNotes : List ((Nat × Nat) × BitVec 8)
  mendTimes : List (Nat × Nat)
  pred : List ((Nat × Nat) × PredEntry)
  holdoff : List ((Nat × Nat) × Nat)
  heldReqs : List (Nat × Packet)
  accesses : List Access
  snoops : List Snoop
  hostReads : List (Nat × Nat × BitVec 512)
  hostRefused : List (Nat × Nat)
  cxlSent : List (Nat × Nat × CxlOp)
  doneEarly : List (Nat × Nat)
  farFails : List ((Nat × Nat) × Nat)
  cxlReqs : List Access
  farSnoop : List (Nat × Nat)
  nextTxn : BitVec 12
  deriving DecidableEq, Repr

/-! ## The Nimcor fabric -/

/-- State a remote access unit keeps for one destination module (R83). -/
structure FlagState where
  fseqn : BitVec 16
  snc : List (Nat × Nat)
  ufl : Nat
  fsyn : BitVec 3
  shold : Bool
  rnfl : Option Nat
  rsynAt : Option Nat
  deriving DecidableEq, Repr

/-- An entry of the outstanding-transaction table (R79, R81). -/
structure Txn where
  idx : Nat
  pkt : NPacket
  accs : List Access
  warp : Option WarpId
  opId : Nat
  grid : Nat
  sentAt : Nat
  resendAt : Option Nat
  kept : Bool
  deriving DecidableEq, Repr

/-- A remote access held in the unit until it may be sent (R78, R79, R84); `since` is from when its 1 ms runs where its plane has failed, and
`kept` marks a read that a failed plane had carried (R90). -/
structure Held where
  pkt : NPacket
  accs : List Access
  warp : Option WarpId
  opId : Nat
  grid : Nat
  since : Option Nat
  kept : Bool
  deriving DecidableEq, Repr

/-- A remote access unit (R78 to R88). `fence` lists the fences under way: the epoch each waits for, none once it has waited (R88);
`flagBase` is the flag state of every destination not listed. -/
structure Rau where
  pent : List ((Nat × Nat) × BitVec 8)
  rotated : List ((Nat × Nat) × Nat)
  gens : List (Nat × BitVec 6)
  txns : List Txn
  held : List Held
  flags : List (Nat × FlagState)
  epoch : Bool
  out : List ((Bool × Nat × Nat) × Nat)
  fence : List (GroupKey × Option Bool)
  flagBase : FlagState
  map : BitVec 24
  inbox : List NPacket
  deriving DecidableEq, Repr

/-- A waiting flag at an I/O die (R85, R86): `checked` once the order check has been sent. -/
structure WaitingFlag where
  pkt : NPacket
  checked : Bool
  confirmed : Bool
  deriving DecidableEq, Repr

/-- What an I/O die keeps for each source of remote writes (R85). -/
structure SourceState where
  arr : List ((Nat × Nat) × Nat)
  nextf : BitVec 16
  sync : BitVec 3
  deriving DecidableEq, Repr

/-- The fabric side of one I/O die (R79, R85, R86). -/
structure FabPort where
  sources : List ((BitVec 8 × Nat) × SourceState)
  flags : List WaitingFlag
  checks : List NPacket
  service : List (Nat × NPacket)
  arrivals : List NPacket
  deriving DecidableEq, Repr

/-- The fabric registers (R72), the units and the ports. -/
structure Fabric where
  nmod : BitVec 8
  lock : Bool
  en : Bool
  map : BitVec 24
  live : BitVec 8
  up : BitVec 8
  dup : BitVec 8
  spn : List (Nat × BitVec 8)
  cmk : List (Nat × BitVec 16)
  raus : List (Nat × Rau)
  ports : List (Nat × FabPort)
  outbox : List NPacket
  deriving DecidableEq, Repr

/-! ## Chits -/

/-- States of a chit table entry (R93). -/
inductive ChitState where
  | free | wait | placed | done | broken
  deriving DecidableEq, Repr

/-- An invocation queued at a chit entry: the task record and its own chit (R95). -/
structure Invocation where
  record : BitVec 512
  chit : BitVec 64
  deriving DecidableEq, Repr

/-- An entry of a chit table (R93); `locOnly` marks one that is only the location of a chit whose home is another table (R95). -/
structure ChitEntry where
  state : ChitState
  gen : BitVec 39
  loc : Option (BitVec 64)
  result : BitVec 512
  queue : List Invocation
  spill : List Invocation
  forwarded : Nat
  release : Bool
  locOnly : Bool
  home : BitVec 64
  deriving DecidableEq, Repr

/-- A chit message between dies or modules (R76, R95), with its congestion mark and echo (R77). -/
structure ChitMsg where
  nopc : BitVec 8
  dsock : Nat
  dmod : BitVec 8
  ssock : Nat
  smod : BitVec 8
  chit : BitVec 64
  other : BitVec 64
  payload : BitVec 512
  broken : Bool
  warp : Option WarpId
  opId : Nat
  plane : Nat
  cm : Bool
  ce : Bool
  deriving DecidableEq, Repr

/-- The chit tables (R93 to R98). `unacked` names the (die, chit) pairs with a message outstanding (R95). -/
structure Chits where
  tables : List ((Nat × Nat) × ChitEntry)
  reserves : List ((Nat × Nat) × List Nat)
  msgs : List ChitMsg
  waiting : List ChitMsg
  unacked : List (Nat × BitVec 64)
  deriving DecidableEq, Repr

/-! ## Host attachment and management -/

/-- A message of a die endpoint (R109). -/
structure EpMsg where
  dsock : Nat
  dep : Nat
  ssock : Nat
  sep : Nat
  typ : BitVec 16
  seq : BitVec 16
  len : Nat
  sts : BitVec 16
  arg : BitVec 32
  body : List Byte
  deriving DecidableEq, Repr

/-- An event record (R121, R468), and the owner it is held for once the arbiter has numbered it. -/
structure EventRec where
  cls : BitVec 16
  sock : Nat
  seq : BitVec 32
  time : BitVec 64
  detail : BitVec 128
  owner : Option Nat
  deriving DecidableEq, Repr

/-- An entry of the page tables that maps a page: its address space, the first address it covers, its own physical address, and the
entry. -/
structure MappedLeaf where
  asid : BitVec 8
  va : Nat
  place : Nat
  entry : Nat
  deriving DecidableEq, Repr

/-- A page of local memory on its way to far memory (R113, R193): the leaves that map it, those whose V is still to be cleared, how many
bytes have been moved, and the leaves still to be written anew. -/
structure Migration where
  src : Nat
  size : Nat
  dest : Nat
  leaves : List MappedLeaf
  clear : List Nat
  moved : Nat
  renew : List MappedLeaf
  deriving DecidableEq, Repr

/-- Host and management state (R105 to R125). Owners of events are numbered as the bits of ERTDAT: 0 the host, 1 to 16
the service cores, 17 to 24 the die managers (R118). `requests` are endpoint requests that have reached their die, `delivered` the messages
handed to firmware, `draining` the offline and online requests not yet answered, `unmaps` the unmaps whose old accesses are still to be
performed (physical address of the page, size), `migration` the page that the die managers are moving to far memory. -/
structure Mgmt where
  fmb : List (Nat × BitVec 32)
  fml : List (Nat × BitVec 32)
  hmblo : BitVec 32
  hmbhi : BitVec 32
  hmbLog : BitVec 4
  hmbEn : Bool
  hmbProd : BitVec 16
  hmbRcons : BitVec 16
  hmbCons : BitVec 16
  hmbRprod : BitVec 16
  replies : List EpMsg
  delivered : List EpMsg
  requests : List EpMsg
  dieState : List (Nat × BitVec 2)
  draining : List (Nat × EpMsg)
  ertidx : BitVec 8
  ert : List (Nat × BitVec 32)
  evbl : BitVec 32
  evbh : BitVec 32
  evLog : BitVec 5
  evEn : Bool
  evPi : BitVec 32
  evCi : BitVec 32
  evring : List (Nat × BitVec 64)
  evSeq : BitVec 32
  events : List EventRec
  mr : List (Nat × BitVec 256)
  hostMem : List Host.Cell
  writeErrors : Nat
  unmaps : List (EpMsg × Nat × Nat)
  migration : Option Migration
  deriving DecidableEq, Repr

/-! ## Bring-up, configuration and power -/

/-- Phases of bring-up (R29). -/
inductive Phase where
  | power | rom | config | links | memory | managers | ready | recovery
  deriving DecidableEq, Repr

/-- Bring-up, configuration, recovery and power (R15 to R33). `since` is when the phase began, `owner` the owner key in force since the last
reset and `ownerStored` the one in the flash, `answer` the last answer to a configuration request (true normal), `hot` the dies
under a power or thermal limit, `droops` the readings of each die's 192 voltage-droop sensors, `dutyAt` when a core's duty last changed or
a sample last showed it above a limit, `railBad` whether a rail of the module does not reach the set-point given to it, `linkUp` the PCIe ports up and whether in CXL mode. -/
structure Boot where
  phase : Phase
  err : BitVec 8
  sock : BitVec 5
  sockv : Bool
  idok : Bool
  cfgok : Bool
  cold : Bool
  faultOff : Bool
  since : Nat
  flash : List Host.Cell
  flashCounter : BitVec 32
  ownerStored : Option (BitVec 256)
  owner : Option (BitVec 256)
  svn : BitVec 32
  page : BitVec 3
  busy : Bool
  res : BitVec 8
  staging : List Host.Cell
  plim : BitVec 32
  rails : List ((Nat × Nat) × Nat)
  hbm : List ((Nat × Nat) × Nat)
  tthr : Nat
  toff : Nat
  taps : List ((Nat × Nat) × BitVec 32)
  ports : List (Nat × BitVec 256)
  images : List ((Nat × Nat) × (Nat × Nat × BitVec 256))
  linkUp : List (Nat × Bool)
  answer : Option (Nat × Bool)
  temps : List (Nat × List Nat)
  droops : List (Nat × List Nat)
  watts : Nat
  hot : List Nat
  dutyAt : List (CoreId × Nat)
  railBad : Bool
  deriving DecidableEq, Repr

/-! ## Launch and dispatch -/

/-- Registers of one task queue (R132, R189, R264). -/
structure Queue where
  en : Bool
  log : BitVec 4
  thrm : Bool
  errc : BitVec 8
  base : BitVec 57
  asid : BitVec 8
  stuck : Bool
  dumpLo : BitVec 32
  dumpHi : BitVec 12
  dumpSize : BitVec 20
  deriving DecidableEq, Repr

/-- The first fatal cause of a grid and its second faults (R263 to R265). -/
structure Fatal where
  trap : Trap
  time : Nat
  die : Nat
  bn : Nat
  wp : Nat
  lane : Nat
  lsp : BitVec 32
  rsp : BitVec 16
  recn : BitVec 32
  dbl : Bool
  second : Nat
  secondFirst : Option (Trap × Nat × Nat × Nat × Nat)
  secondTime : Nat
  forced : Bool
  werr : Bool
  reached : List (Nat × Nat)
  deriving DecidableEq, Repr

/-- A grid accepted by a dispatcher (R128, R134, R139). -/
structure Grid where
  disp : Nat
  queue : Option Nat
  index : Nat
  record : BitVec 512
  acceptedAt : Nat
  asid : BitVec 8
  thrm : Bool
  nextElem : Nat
  finished : Nat
  brk : Option (BitVec 32)
  loc : Option (BitVec 64)
  fatal : Option Fatal
  gone : Bool
  deriving DecidableEq, Repr

/-- An item of a dispatcher's order: an element of a grid, new or saved by pre-emption (R134, R135). It has been ready from `since`
with effective priority `base`, which has risen to `prio`. -/
structure Item where
  grid : Nat
  element : Nat
  saved : Bool
  since : Nat
  base : Nat
  prio : Nat
  deriving DecidableEq, Repr

/-- A record that hardware pushes, and the queue it enters (R133). -/
structure Push where
  record : BitVec 512
  queue : Nat
  cont : Bool
  jaddr : BitVec 64
  frameCopy : Option (BitVec 512)
  op : Option (WarpId × Nat)
  deriving DecidableEq, Repr

/-- States of PESTAT (R142). -/
inductive PeStage where
  | idle | queued | halting | saving | done | late | none
  deriving DecidableEq, Repr

/-- PESTAT of one ID (R142). -/
structure Pestat where
  st : PeStage
  trim : Bool
  got : BitVec 8
  deriving DecidableEq, Repr

/-- A pre-emption request (R142 to R145). -/
structure PeReq where
  id : Nat
  count : Nat
  clusters : Bool
  prio : Nat
  cmask : BitVec 4
  tout : Nat
  start : Nat
  victims : List (Nat × Nat)
  saved : List (Nat × Nat)
  dieoff : Bool
  begun : Bool
  late : Bool
  deriving DecidableEq, Repr

/-- A saved context (R145, R262): in the shadow store of its die, or where `far` in device memory (R148). `restoring` names the core
and slot where it is being restored. -/
structure Saved where
  die : Nat
  bundle : Bundle
  warps : List (Nat × Warp)
  threads : List ((Nat × Nat) × Thread)
  bars : List BarSlot
  spreadBars : List BarSlot
  monitors : List Monitor
  trays : List Tray
  jobs : List EngineJob
  far : Bool
  restoring : Option (Nat × Nat)
  pnote : Bool
  deriving DecidableEq, Repr

/-- A dispatcher: those of dies 0 to 7, and the global one numbered 20 (R132 to R138, R142, R147). -/
structure Dispatcher where
  queues : List (Nat × Queue)
  items : List Item
  hold : List Push
  holdSpill : List Push
  batch : List Item
  free : List (Nat × Nat)
  weights : List (Nat × BitVec 8)
  lastDie : Nat
  coreCursor : Nat
  clusterCursor : Nat
  pestat : List (Nat × Pestat)
  reqs : List PeReq
  reserved : List (Nat × Nat × Option Nat)
  deriving DecidableEq, Repr

/-! ## Memory, translation and per-die registers -/

/-- Address-space root registers (R189). -/
structure AsRoot where
  en : Bool
  pfs : Bool
  root : BitVec 44
  staged : BitVec 12
  deriving DecidableEq, Repr

/-- Registers of one die slot of the barrier network (R229). -/
structure DbReg where
  en : Bool
  cmask : BitVec 8
  exp : BitVec 24
  asid : BitVec 8
  deriving DecidableEq, Repr

/-- Sampling, debug and trace registers of one die (R260, R266, R270). -/
structure Observe where
  stop : Bool
  bpen : Bool
  dbgAsid : BitVec 8
  bp : BitVec 32
  en : Bool
  tsen : Bool
  per : BitVec 5
  cur : BitVec 5
  base : BitVec 44
  log : BitVec 5
  pi : BitVec 32
  ci : BitVec 32
  lost : BitVec 32
  pendingLog : List (BitVec 256)
  trc : BitVec 25
  deriving DecidableEq, Repr

/-- One compute die beside its cores and caches (R181 to R196, R229). -/
structure Die where
  wreq : Bool
  roots : List (Nat × AsRoot)
  walkCache : List (BitVec 8 × Nat × Nat)
  walks : List Walk
  slots : List (Nat × FaultSlot)
  slotWaits : List (FaultSlot × Option ThreadId)
  bars : List (Nat × BarSlot)
  dbregs : List (Nat × DbReg)
  refreshWaits : List (Nat × Nat × Return)
  obs : Observe
  deriving DecidableEq, Repr

/-! ## Service cores and network ports -/

/-- An access of the firmware of a service core or die manager to device memory, at a physical address of the module (R222): `aq` and `rl`
are the bits of an AMO or LR/SC, or stand for its loads and stores with such an order; `opn` and `kind` are those of R380. -/
inductive HartOp where
  | load (pa size : Nat) (aq rl : Bool)
  | store (pa size : Nat) (data : BitVec 64) (aq rl : Bool)
  | amo (opn kind pa size : Nat) (data : BitVec 64) (aq rl : Bool)
  | lr (pa size : Nat) (aq rl : Bool)
  | sc (pa size : Nat) (data : BitVec 64) (aq rl : Bool)
  | fence
  deriving DecidableEq, Repr

/-- A service core or die manager as device memory sees it (R222): accesses not yet issued, oldest first; the values its reads returned,
oldest first, by access; and the sector it has reserved. -/
structure Hart where
  queue : List HartOp
  values : List (Nat × BitVec 64)
  resv : Option Nat
  deriving DecidableEq, Repr

/-- Service cores and the network and storage side (R115 to R117): `harts` are the service cores and die managers by number, `requests` the
descriptors taken and not completed by compute die and service core, `paused` the priorities of each Ethernet port that flow control holds
back, `heldTx` those that the other end holds back, `sent` the data given to the network by I/O die and connection, `closed` the
connections that are closed, `drives` what the NVMe drives hold by I/O die and drive. -/
structure Service where
  harts : List (Nat × Hart)
  requests : List ((Nat × Nat) × BitVec 512)
  paused : List (Nat × BitVec 8)
  heldTx : List (Nat × BitVec 8)
  sent : List (Nat × Nat × List Byte)
  closed : List Nat
  drives : List ((Nat × Nat) × List Host.Cell)
  deriving DecidableEq, Repr

/-- What firmware, the network and the drives do (R116, R117, R222): an access of a hart appended to its program and the next one issued;
data of a TX ring sent; the other end closing or resetting a connection; a pause frame for a priority; a connection opened anew; a command's
data moved between a drive and device memory. -/
inductive ServiceOp where
  | hartOp (n : Nat) (op : HartOp)
  | hartNext (n : Nat)
  | transmit (iod conn prio n : Nat)
  | peerClose (iod conn : Nat) (reset : Bool)
  | pauseFrame (iod prio : Nat) (on : Bool)
  | connect (conn : Nat)
  | drive (iod drive qp : Nat) (write : Bool) (place pa n : Nat)
  deriving DecidableEq, Repr

/-! ## What moves next -/

/-- One entry of the agenda: what moves next, where several agents could: a step of the part with the entry it takes, a group's
next instruction, the clock, a packet from another module, a byte the host stores, one part of an engine's operation, a request of
firmware, whether the rails reach their set-points. -/
inductive Move where
  | event (i : Instr) (pick : Nat)
  | issue (g : GroupKey)
  | tick (n : Nat)
  | arrive (p : NPacket)
  | hostStore (addr : Nat) (b : Byte)
  | element (job e : Nat)
  | endpoint (m : EpMsg)
  | service (o : ServiceOp)
  | rails (bad : Bool)
  deriving DecidableEq, Repr

/-- The whole module. `time` counts CCLK cycles (R13, TIME of R431). `cur` is the group whose instruction is being
carried out. `agenda`, `pick`, `fresh` and `openVals` are the model's own: what moves next, which of several waiting
packets or entries moves, the next unused identifier, and how many open values have been taken. -/
structure State where
  time : Nat
  boot : Boot
  net : Net
  coh : Coherence
  fab : Fabric
  chits : Chits
  mgmt : Mgmt
  disp : List (Nat × Dispatcher)
  grids : List (Nat × Grid)
  shadow : List Saved
  cores : List (CoreId × Core)
  clusters : List ((Nat × Nat) × Cluster)
  dies : List (Nat × Die)
  devBars : List (Nat × BarSlot)
  devRegs : List (Nat × DbReg)
  warps : List (WarpId × Warp)
  threads : List (ThreadId × Thread)
  groups : List (GroupKey × Group)
  mem : List Host.Cell
  weights : List Host.Cell
  returns : List Return
  sfu : List SfuOp
  jobs : List EngineJob
  matrix : List MatrixJob
  service : Service
  agenda : List Move
  pick : Nat
  cur : Option GroupKey
  fresh : Nat
  openVals : Nat
  deriving DecidableEq, Repr

/-! ## How a step can stop -/

/-- The reasons a step can stop with a fault. There is none: what the manual calls a fault is a trap, a broken chit, an event or an
error code, and the machine goes on. -/
inductive Fault where
  deriving DecidableEq, Repr

/-- The reasons a step can be refused. -/
inductive Refusal where
  /-- Raised by the dispatcher for an instruction with no meaning yet. Safe: nothing is claimed of it. -/
  | notModelled (mnemonic : String)
  deriving DecidableEq, Repr

/-! ## Reset -/

/-- A thread as its warp starts (R128, R431), at CODE 0. -/
def Thread.reset : Thread :=
  { st := .ready, pc := 0, regs := [], preds := 0, pending := [], wb := 0, lr := 0, repc := 0, recn := 0,
    reenter := false, newRegion := true, xpc := 0, xcs := 0, hm := false, lsp := 0xFFFFFFFF, rsp := 0,
    meet0 := 0, meet1 := 0, tdb := ⟨0, 0, 0, 0, 0⟩, wait := none, readyAt := 0, safeAt := 0, atSafe := false,
    stopped := false, bpHeld := false, stopMark := .clear, mmaBase := 0,
    late := [], counted := none, settled := 0, faultVa := 0 }

/-- A warp as it starts (R128, R431). -/
def Warp.reset : Warp :=
  { bslot := 0, wp := 0, base := 0, lgw := 4, gang := 0, fps := 0, fpc := 0, chk := 0, tbase := 0, wdog := 0,
    cpy := 0, gth := 0, mtx := 0, rmt := 0, inv := 0, ops := [], faults := [], mmaCount := 0, tiles := [],
    tsr := none, stamps := [], halt := none, poolPending := false, firing := none, got := [] }

/-- A bundle with nothing in it. -/
def Bundle.reset : Bundle :=
  { bn := 0, grid := 0, member := 0, element := 0, wpb := 1, regs := 1, accw := 0, scrSegs := 0, mxs := [0, 0, 0, 0],
    scr := [], frame := 0, asid := 0, prio := 0, since := 0, base := 0, placedAt := 0, ready := false, begun := false }

/-- The ten segments of quadrant q in the reset partition (R162). -/
def quadReset (q : Nat) : List Segment :=
  [⟨.reg, false, none, 0⟩, ⟨.reg, false, none, 1⟩, ⟨.reg, false, none, 2⟩, ⟨.reg, false, none, 3⟩,
   ⟨.reg, false, none, 4⟩, ⟨.reg, false, none, 5⟩, ⟨.cch, false, none, 2 * q⟩, ⟨.cch, false, none, 2 * q + 1⟩,
   ⟨.mxs, false, none, 0⟩, ⟨.mxs, false, none, 0⟩]

/-- A core with no bundle, in the reset partition (R162). -/
def Core.reset : Core :=
  { bundles := [], segs := quadReset 0 ++ quadReset 1 ++ quadReset 2 ++ quadReset 3, wring := none, l1 := [],
    icache := [], micro := [], trays := [], bars := [], gens := [], latches := [], tlb := [], samplePart := 0, sampleSlot := 0, sampledAt := 0,
    duty := [], busy := [], mainReads := [] }

/-- A cluster with nothing bound. -/
def Cluster.reset : Cluster := { bars := [], gens := [], monitors := [], tlb := [], fetches := [] }

/-- A barrier slot never initialised (R225). -/
def BarSlot.reset : BarSlot :=
  { holder := 0, name := 0, gen := 0, mask := 0, arrv := 0, count := 0, pend := 0, brk := false, part := [],
    last := [], failed := [], landed := false, pended := [] }

/-- Observation registers at reset (R260, R266, R270). -/
def Observe.reset : Observe :=
  { stop := false, bpen := false, dbgAsid := 0, bp := 0xFFFFFFFF, en := false, tsen := false, per := 0x10,
    cur := 0x10, base := 0, log := 0x0C, pi := 0, ci := 0, lost := 0, pendingLog := [], trc := 0 }

/-- A die's registers at reset (R183, R189, R229). -/
def Die.reset : Die :=
  { wreq := false, roots := [], walkCache := [], walks := [], slots := [], slotWaits := [], bars := [], dbregs := [],
    refreshWaits := [], obs := Observe.reset }

/-- An address-space root at reset (R189). -/
def AsRoot.reset : AsRoot := ⟨false, false, 0, 0⟩

/-- Barrier registers at reset (R229). -/
def DbReg.reset : DbReg := ⟨false, 0, 0, 0⟩

/-- A queue's registers at reset (R132, R189, R264). -/
def Queue.reset : Queue :=
  { en := false, log := 4, thrm := false, errc := 0, base := 0, asid := 0, stuck := false, dumpLo := 0,
    dumpHi := 0, dumpSize := 0 }

/-- PESTAT at reset (R142). -/
def Pestat.reset : Pestat := ⟨.idle, false, 0⟩

/-- A dispatcher at reset (R132 to R138). -/
def Dispatcher.reset : Dispatcher :=
  { queues := [], items := [], hold := [], holdSpill := [], batch := [], free := [], weights := [], lastDie := 7,
    coreCursor := 0, clusterCursor := 0, pestat := [], reqs := [], reserved := [] }

/-- A link direction at reset (R41). -/
def Link.reset : Link :=
  { nextSeq := 0, expect := 0, replay := [], rounds := 0, progressAt := 0, lackAt := 0, lackDue := false,
    retrainAt := none, down := false, esc := [] }

/-- XERR at reset (R43). -/
def Xerr.reset : Xerr := ⟨0, 0, 0, 0⟩

/-- A sector a cache holds nothing of (R48). -/
def Line.reset : Line :=
  { tok := 0, own := false, dirty := false, dv := false, rep := false, ser := 0, data := 0, cls := 0,
    consumed := false, filled := false, used := 0, hs := .i, far := false }

/-- A sector after phase MEMORY: all 16 tokens at home, mend serial 0 (R29). -/
def HomeEntry.reset : HomeEntry := ⟨16, true, 0, false⟩

/-- Flag state towards a destination at reset (R83). -/
def FlagState.reset : FlagState :=
  { fseqn := 0, snc := [], ufl := 0, fsyn := 0, shold := false, rnfl := none, rsynAt := none }

/-- A remote access unit at reset (R77, R83); its map is that of NPMAP (R72). -/
def Rau.reset : Rau :=
  { pent := [], rotated := [], gens := [], txns := [], held := [], flags := [], epoch := false, out := [],
    fence := [], flagBase := FlagState.reset, map := 0xFAC688, inbox := [] }

/-- A source at reset (R85). -/
def SourceState.reset : SourceState := ⟨[], 0, 0⟩

/-- The fabric side of an I/O die at reset. -/
def FabPort.reset : FabPort := { sources := [], flags := [], checks := [], service := [], arrivals := [] }

/-- A free chit entry; the generation the entry will issue first is 1 (R92). -/
def ChitEntry.reset : ChitEntry :=
  { state := .free, gen := 1, loc := none, result := 0, queue := [], spill := [], forwarded := 0, release := false,
    locOnly := false, home := 0 }

/-- The transport at reset. -/
def Net.reset : Net := { links := [], wire := [], msgs := [], routers := [], inbox := [], xerr := [] }

/-- The coherence state at reset: nothing cached (R29). -/
def Coherence.reset : Coherence :=
  { lines := [], misses := [], homes := [], preqs := [], preqHeld := [], active := [], lasting := [], mends := [],
    mendNotes := [], mendTimes := [], pred := [], holdoff := [], heldReqs := [], accesses := [], snoops := [],
    hostReads := [], hostRefused := [], cxlSent := [], doneEarly := [], farFails := [], cxlReqs := [], farSnoop := [], nextTxn := 0 }

/-- The fabric registers at reset (R71, R72). -/
def Fabric.reset : Fabric :=
  { nmod := 0, lock := false, en := false, map := 0xFAC688, live := 0, up := 0, dup := 0, spn := [], cmk := [],
    raus := [], ports := [], outbox := [] }

/-- The management state at reset (R105 to R122); every event class is the host's without section 0x0006 (R26). -/
def Mgmt.reset : Mgmt :=
  { fmb := [], fml := [], hmblo := 0, hmbhi := 0, hmbLog := 0, hmbEn := false, hmbProd := 0, hmbRcons := 0,
    hmbCons := 0, hmbRprod := 0, replies := [], delivered := [], requests := [], dieState := [], draining := [], ertidx := 0,
    ert := [], evbl := 0, evbh := 0, evLog := 6, evEn := false, evPi := 0, evCi := 0, evring := [], evSeq := 0,
    events := [], mr := [], hostMem := [], writeErrors := 0, unmaps := [], migration := none }

/-- The service cores and ports at reset. -/
def Service.reset : Service :=
  { harts := [], requests := [], paused := [], heldTx := [], sent := [], closed := [], drives := [] }

/-- Bring-up right after a cold reset (R29), with the settings of R16 and R21 to R25 that hold without a section. -/
def Boot.reset : Boot :=
  { phase := .power, err := 0, sock := 0, sockv := false, idok := false, cfgok := false, cold := true,
    faultOff := false, since := 0, flash := [], flashCounter := 0, ownerStored := none, owner := none, svn := 0,
    page := 0, busy := false, res := 0, staging := [], plim := 3600, rails := [], hbm := [], tthr := 95, toff := 110,
    taps := [], ports := [], images := [], linkUp := [], answer := none, temps := [], droops := [], watts := 0, hot := [],
    dutyAt := [], railBad := false }

/-- The module right after a cold reset: bring-up in phase POWER, no bundle placed, nothing in flight (R29). -/
def State.reset : State :=
  { time := 0, boot := Boot.reset, net := Net.reset, coh := Coherence.reset, fab := Fabric.reset,
    chits := { tables := [], reserves := [], msgs := [], waiting := [], unacked := [] }, mgmt := Mgmt.reset,
    disp := [], grids := [], shadow := [], cores := [], clusters := [], dies := [], devBars := [], devRegs := [],
    warps := [], threads := [], groups := [], mem := [], weights := [], returns := [], sfu := [],
    jobs := [], matrix := [], service := Service.reset, agenda := [],
    pick := 0,
    cur := none, fresh := 0, openVals := 0 }

end Sys2Proof.Machine
end

