-- ==== Sys2Proof/Machine/Ops.lean ====
section
/-! DEFINITION. The named operations over State: reading and replacing each piece, memory, taking a trap (R248) and
returning from one (R251), and the records that other units receive. -/

namespace Sys2Proof.Machine

/-! ## Pieces of State -/

/-- A thread; one never started is `Thread.reset`. -/
def State.thread (s : State) (t : ThreadId) : Thread := lookupD t Thread.reset s.threads
/-- The state with a thread replaced. -/
def State.setThread (s : State) (t : ThreadId) (v : Thread) : State := { s with threads := put t v s.threads }
/-- A warp. -/
def State.warp (s : State) (w : WarpId) : Warp := lookupD w Warp.reset s.warps
/-- The state with a warp replaced. -/
def State.setWarp (s : State) (w : WarpId) (v : Warp) : State := { s with warps := put w v s.warps }
/-- A core. -/
def State.core (s : State) (c : CoreId) : Core := lookupD c Core.reset s.cores
/-- The state with a core replaced. -/
def State.setCore (s : State) (c : CoreId) (v : Core) : State := { s with cores := put c v s.cores }
/-- A cluster, by die and cluster number (R126). -/
def State.cluster (s : State) (d k : Nat) : Cluster := lookupD (d, k) Cluster.reset s.clusters
/-- The state with a cluster replaced. -/
def State.setCluster (s : State) (d k : Nat) (v : Cluster) : State := { s with clusters := put (d, k) v s.clusters }
/-- A compute die. -/
def State.die (s : State) (d : Nat) : Die := lookupD d Die.reset s.dies
/-- The state with a die replaced. -/
def State.setDie (s : State) (d : Nat) (v : Die) : State := { s with dies := put d v s.dies }
/-- A dispatcher: 0 to 7 of the dies, 20 the global one (R133). -/
def State.dispatcher (s : State) (d : Nat) : Dispatcher := lookupD d Dispatcher.reset s.disp
/-- The state with a dispatcher replaced. -/
def State.setDispatcher (s : State) (d : Nat) (v : Dispatcher) : State := { s with disp := put d v s.disp }
/-- A grid, if it is known. -/
def State.grid? (s : State) (g : Nat) : Option Grid := lookup? g s.grids
/-- The state with a grid replaced. -/
def State.setGrid (s : State) (g : Nat) (v : Grid) : State := { s with grids := put g v s.grids }
/-- A formed group. -/
def State.group? (s : State) (k : GroupKey) : Option Group := lookup? k s.groups
/-- The state with a group replaced. -/
def State.setGroup (s : State) (k : GroupKey) (v : Group) : State := { s with groups := put k v s.groups }

/-- The coherence state changed. -/
def State.onCoh (s : State) (f : Coherence → Coherence) : State := { s with coh := f s.coh }
/-- The transport changed. -/
def State.onNet (s : State) (f : Net → Net) : State := { s with net := f s.net }
/-- The fabric registers changed. -/
def State.onFab (s : State) (f : Fabric → Fabric) : State := { s with fab := f s.fab }
/-- The chits changed. -/
def State.onChits (s : State) (f : Chits → Chits) : State := { s with chits := f s.chits }
/-- The management state changed. -/
def State.onMgmt (s : State) (f : Mgmt → Mgmt) : State := { s with mgmt := f s.mgmt }
/-- The bring-up and power state changed. -/
def State.onBoot (s : State) (f : Boot → Boot) : State := { s with boot := f s.boot }
/-- The module is READY and not in fault-off (R17, R29). -/
def State.moduleReady (s : State) : Bool := decide (s.boot.phase = .ready) && !s.boot.faultOff
/-- A thread changed. -/
def State.onThread (s : State) (t : ThreadId) (f : Thread → Thread) : State := s.setThread t (f (s.thread t))
/-- A warp changed. -/
def State.onWarp (s : State) (w : WarpId) (f : Warp → Warp) : State := s.setWarp w (f (s.warp w))
/-- A core changed. -/
def State.onCore (s : State) (c : CoreId) (f : Core → Core) : State := s.setCore c (f (s.core c))
/-- A die changed. -/
def State.onDie (s : State) (d : Nat) (f : Die → Die) : State := s.setDie d (f (s.die d))
/-- A dispatcher changed. -/
def State.onDisp (s : State) (d : Nat) (f : Dispatcher → Dispatcher) : State := s.setDispatcher d (f (s.dispatcher d))
/-- A grid changed, if it is known. -/
def State.onGrid (s : State) (g : Nat) (f : Grid → Grid) : State :=
  match s.grid? g with | some v => s.setGrid g (f v) | none => s

/-- The core of a warp. -/
def WarpId.coreId (w : WarpId) : CoreId := ⟨w.die, w.core⟩
/-- The core of a group. -/
def GroupKey.coreId (k : GroupKey) : CoreId := ⟨k.die, k.core⟩
/-- The warp in a slot of a group's partition. -/
def GroupKey.warpId (k : GroupKey) (slot : Nat) : WarpId := ⟨k.die, k.core, k.part, slot⟩
/-- The cluster of a core within its die: 48 cores each (R126). -/
def CoreId.cluster (c : CoreId) : Nat := c.core / 48

/-- The bundle of a warp. -/
def State.bundle (s : State) (w : WarpId) : Bundle :=
  lookupD (s.warp w).bslot Bundle.reset (s.core w.coreId).bundles

/-- The state with a bundle of a core replaced. -/
def State.setBundle (s : State) (c : CoreId) (b : Nat) (v : Bundle) : State :=
  s.setCore c { s.core c with bundles := put b v (s.core c).bundles }

/-- Element n of a list with a default; structural, for any n. -/
def nth {α : Type} (d : α) : List α → Nat → α
  | [], _ => d
  | x :: _, 0 => x
  | _ :: t, n + 1 => nth d t n

/-- Element n of a list, if there is one. -/
def nth? {α : Type} : List α → Nat → Option α
  | [], _ => none
  | x :: _, 0 => some x
  | _ :: t, n + 1 => nth? t n

/-- The list with element n replaced. -/
def setNth {α : Type} (v : α) : List α → Nat → List α
  | [], _ => []
  | _ :: t, 0 => v :: t
  | x :: t, n + 1 => x :: setNth v t n

/-- The list without element n. -/
def removeNth {α : Type} : List α → Nat → List α
  | [], _ => []
  | _ :: t, 0 => t
  | x :: t, n + 1 => x :: removeNth t n

/-- The threads of a group with their lanes, in ascending lane order. -/
def membersOf (k : GroupKey) (g : Group) : List (Nat × ThreadId) :=
  (g.members.zipIdx).filterMap (fun p =>
    match p.1 with
    | some slot => some (p.2, ⟨k.warpId slot, p.2⟩)
    | none => none)

/-- Every thread of a warp, lanes 0 to 31. -/
def WarpId.threads (w : WarpId) : List ThreadId := (List.range 32).map (fun l => ⟨w, l⟩)

/-! ## The canonical memory list -/

/-- The byte a list of cells holds at an address; an unlisted address reads zero (R29, R164, R182). -/
def readCell (a : Nat) : List Host.Cell → Byte
  | [] => 0
  | (b, v) :: t => if b = a then v else readCell a t

/-- A byte stored in a list of cells: addresses stay strictly rising, and a zero is not listed. -/
def writeCell (a : Nat) (v : Byte) : List Host.Cell → List Host.Cell
  | [] => if v = 0 then [] else [(a, v)]
  | (b, w) :: t =>
    if a < b then (if v = 0 then (b, w) :: t else (a, v) :: (b, w) :: t)
    else if a = b then (if v = 0 then t else (a, v) :: t)
    else (b, w) :: writeCell a v t

/-- The canonical form: addresses above `lo` and strictly rising, and no byte zero. -/
def cellsFrom (lo : Nat) : List Host.Cell → Bool
  | [] => true
  | (a, v) :: t => decide (lo ≤ a) && v != 0 && cellsFrom (a + 1) t

/-- Memory in canonical form. -/
def Memory.wf (m : List Host.Cell) : Bool := cellsFrom 0 m

/-- n bytes from an address. -/
def readCells (a : Nat) (m : List Host.Cell) : Nat → List Byte
  | 0 => []
  | n + 1 => readCell a m :: readCells (a + 1) m n

/-- Bytes stored one after another. -/
def writeCells (a : Nat) : List Byte → List Host.Cell → List Host.Cell
  | [], m => m
  | b :: t, m => writeCells (a + 1) t (writeCell a b m)

/-- Bytes as a number, the first lowest (R3). -/
def natOfBytes : List Byte → Nat
  | [] => 0
  | b :: t => b.toNat + 256 * natOfBytes t

/-- The low n bytes of a number, the lowest first (R3). -/
def bytesOfNat : Nat → Nat → List Byte
  | 0, _ => []
  | n + 1, x => BitVec.ofNat 8 (x % 256) :: bytesOfNat n (x / 256)

/-- A number read from n bytes (R3). -/
def readNum (a n : Nat) (m : List Host.Cell) : Nat := natOfBytes (readCells a m n)

/-- A number written to n bytes (R3). -/
def writeNum (a n x : Nat) (m : List Host.Cell) : List Host.Cell := writeCells a (bytesOfNat n x) m

/-! ## Records to other units -/

/-- A fresh number, and the state that has used it. -/
def State.nextFresh (s : State) : Nat × State := (s.fresh, { s with fresh := s.fresh + 1 })

/-- The GENs of free physical slots once the slots that `gone` names are freed too (R225). -/
def keepGens (gone : Nat × BarSlot → Bool) (bars : List (Nat × BarSlot)) (gens : List (Nat × BitVec 16)) : List (Nat × BitVec 16) :=
  (bars.filter gone).foldl (fun g p => put p.1 p.2.gen g) gens

/-- An open choice, and the state that has taken it. -/
def State.choose (s : State) : Bool × State := (Config.freeBool s.openVals, { s with openVals := s.openVals + 1 })

/-! ## Groups -/

/-- The slot a group holds for a lane. -/
def Group.member (g : Group) (lane : Nat) : Option Nat := nth none g.members lane

/-- A thread taken out of one group; a group that loses its last member is gone (R157). -/
def leaveOne (t : ThreadId) (p : GroupKey × Group) : Option (GroupKey × Group) :=
  if p.1.die = t.warp.die ∧ p.1.core = t.warp.core ∧ p.1.part = t.warp.part ∧ p.2.member t.lane = some t.warp.slot then
    let g := { p.2 with members := setNth none p.2.members t.lane }
    if g.members.all Option.isNone then none else some (p.1, g)
  else some p

/-- A thread leaves the group it is a member of. -/
def State.leaveGroup (s : State) (t : ThreadId) : State := { s with groups := s.groups.filterMap (leaveOne t) }

/-- The address of a group's current instruction (R319). -/
def Group.hereAddr (g : Group) : BitVec 64 := g.addr + BitVec.ofNat 64 (4 * g.here)

/-- LEN of a group's run (R300). -/
def Group.len (g : Group) : Nat := g.words.length

/-- The address of the run after a group's run: trailer word A + 8 (R301). -/
def Group.afterAddr (g : Group) : BitVec 64 := g.addr + BitVec.ofNat 64 (4 * g.len + 8)

/-! ## Taking a trap (R248) and returning from one (R251) -/

/-- The trap detail address as plain class, subcode and address, resumed at REPC. -/
def Trap.sync (c sb : Nat) (a : BitVec 64) : Trap := ⟨c, sb, a, 0, none⟩

/-- FLAGS of a trap: V, and the other bits it carries (R249). -/
def Trap.allFlags (t : Trap) : BitVec 8 := t.flags ||| 1

/-- The trap detail entry that a trap writes (R249). -/
def Trap.detail (t : Trap) (recn : BitVec 32) : TrapDetail :=
  ⟨t.addr, BitVec.ofNat 8 t.cls, BitVec.ofNat 8 t.sub, t.allFlags, recn⟩

/-- The thread as trap entry leaves it: saved position and cause, handler mode, PC at the class's vector (R248). In handler mode
`safeAt` holds the cycles counted since the last safe point, which do not grow there (R261). -/
def Thread.enterTrap (th : Thread) (t : Trap) (tbase : BitVec 64) (now : Nat) : Thread :=
  { th with
    tdb := t.detail th.recn
    xpc := t.xpc.getD th.repc
    xcs := t.allFlags ++ BitVec.ofNat 8 t.sub ++ BitVec.ofNat 8 t.cls
    hm := true
    pc := tbase + BitVec.ofNat 64 (t.cls * 0x200)
    st := .ready, wait := none, readyAt := now, reenter := false, safeAt := now - th.safeAt, atSafe := false
    stopMark := if t.xpc = some th.pc ∧ (t.cls = 12 ∨ th.stopMark = .standing) then .handling th.pc else .clear }

/-- Whether a trap is another lane's delivery of an engine fault that its grid has recorded: one fault, which counts once (R414, R456,
R457). -/
def Fatal.delivered (f : Fatal) (t : Trap) (die bn wp : Nat) : Bool :=
  t.flags.getLsbD 2 &&
  ((f.trap == t && decide (f.die = die) && decide (f.bn = bn) && decide (f.wp = wp)) ||
    (match f.secondFirst with
      | some r => r.1 == t && decide (r.2.1 = die) && decide (r.2.2.1 = bn) && decide (r.2.2.2.1 = wp)
      | none => false))

/-- A cause as a grid records it, of a thread that takes a trap now (R263 step 1, R264). -/
def State.fatalOf (s : State) (t : Trap) (x : ThreadId) : Fatal :=
  let th := s.thread x
  { trap := t, time := s.time, die := x.warp.die, bn := (s.bundle x.warp).bn, wp := (s.warp x.warp).wp, lane := x.lane, lsp := th.lsp
    rsp := th.rsp, recn := th.recn, dbl := th.hm, second := 0, secondFirst := none, secondTime := 0, forced := false, werr := false, reached := [] }

/-- Whether a cause comes before another of the same cycle: the lower socket, then the lower bundle (R263 step 1). -/
def Fatal.before (n f : Fatal) : Bool :=
  decide (n.time = f.time) && (decide (n.die < f.die) || (decide (n.die = f.die) && decide (n.bn < f.bn)))

/-- A grid's record with one second fault more: counted; it is recorded where it is the first of them, those of one cycle taken in the
order of R263 step 1 (R265). -/
def Fatal.addSecond (f n : Fatal) : Fatal :=
  let better := match f.secondFirst with
    | none => true
    | some r => decide (n.time = f.secondTime) && (decide (n.die < r.2.1) || (decide (n.die = r.2.1) && decide (n.bn < r.2.2.1)))
  { f with
    second := Nat.min (f.second + 1) 0xFFFFFFFF
    secondFirst := if better then some (n.trap, n.die, n.bn, n.wp, n.lane) else f.secondFirst
    secondTime := if better then n.time else f.secondTime }

/-- A grid's record of its faults with one more (R265); one of the first cause's own cycle that comes before it takes its place (R263
step 1). -/
def Fatal.adds (f n : Fatal) : Fatal :=
  if n.before f then
    { n with second := f.second, secondFirst := f.secondFirst, secondTime := f.secondTime, forced := f.forced, werr := f.werr
             reached := f.reached }.addSecond f
  else f.addSecond n

/-- A second fault of a grid that is already ending noted: counted, and the halt sent to its warp (R265). -/
def State.noteSecond (s : State) (n : Fatal) (x : ThreadId) (gid : Nat) (g : Grid) (f : Fatal) : State :=
  let w := s.warp x.warp
  let f' := if f.delivered n.trap x.warp.die (s.bundle x.warp).bn w.wp then f else f.adds n
  (s.setGrid gid { g with fatal := some f' }).setWarp x.warp { w with halt := some (.fatal gid) }

/-- A fatal cause of a thread acted on: the first is recorded by the grid's dispatcher (R263 step 1), a later one is a second fault (R265);
the thread halts, and writes no detail entry (R248, R456). -/
def fatalAs (n : Fatal) (x : ThreadId) (s : State) : State :=
  let gid := (s.bundle x.warp).grid
  let s := match s.grid? gid with
    | some g =>
      match g.fatal with
      | some f => s.noteSecond n x gid g f
      | none => s.setGrid gid { g with fatal := some n }
    | none => s
  s.setThread x { s.thread x with st := .halted, wait := none }

/-- A fatal trap (R248, R251, R263, R265). -/
def fatal (t : Trap) (x : ThreadId) (s : State) : State := fatalAs (s.fatalOf t x) x s

/-- The grid of a thread that has met its first fatal cause, with its record of it. -/
def State.endingGrid (s : State) (x : ThreadId) : Option (Nat × Grid × Fatal) :=
  match s.grid? (s.bundle x.warp).grid with
  | some g => g.fatal.map (fun f => ((s.bundle x.warp).grid, g, f))
  | none => none

/-- Whether the grid of a thread has met its first fatal cause (R265). -/
def State.gridEnding (s : State) (x : ThreadId) : Bool :=
  match s.grid? (s.bundle x.warp).grid with
  | some g => g.fatal.isSome
  | none => false

/-- Taking a trap: THE entry of every class (R248). The thread leaves its group, and enters its handler unless TBASE is
zero, it is in handler mode, or its grid is already ending. -/
def takeTrap (t : Trap) (x : ThreadId) (s : State) : State :=
  let s := s.leaveGroup x
  let w := s.warp x.warp
  let th := s.thread x
  if w.tbase = 0 ∨ th.hm ∨ s.gridEnding x then fatal t x s
  else s.setThread x (th.enterTrap t w.tbase s.time)

/-- The thread as a resume leaves it: handler mode off, PC at XPC, and a return to REPC re-enters the same region (R251); one that returns
to the stop position of its class 12 takes no second one there (R260). -/
def Thread.resumed (th : Thread) (now : Nat) : Thread :=
  { th with
    hm := false, pc := th.xpc, reenter := decide (th.xpc = th.repc), safeAt := now - th.safeAt
    stopMark := match th.stopMark with
      | .handling p => if th.xpc = p then .returning else .clear
      | m => m }

/-- XCS as software reads it: HM in bit 24 (R250). -/
def Thread.xcsWord (th : Thread) : BitVec 32 := (if th.hm then 1#8 else 0#8) ++ th.xcs

/-! ## Values that arrive (R305) -/

/-- Values written to the registers of a thread that still wait for them under this mark, which stop being pending. -/
def Thread.deliver (th : Thread) (mark : Nat) (vals : List (Nat × Reg)) : Thread :=
  vals.foldl (fun th v =>
    if th.pending.contains (v.1, mark) then
      { th with regs := put v.1 v.2 th.regs, pending := th.pending.filter (fun x => x ≠ (v.1, mark)) }
    else th) th

/-- The registers that wait under a mark stop being pending, unchanged (R375). -/
def Thread.release (th : Thread) (mark : Nat) : Thread := { th with pending := th.pending.filter (fun x => x.2 ≠ mark) }

/-- Values delivered to a thread, where it is still there. -/
def State.deliver (s : State) (x : ThreadId) (mark : Nat) (vals : List (Nat × Reg)) : State :=
  if (lookup? x s.threads).isSome then s.setThread x ((s.thread x).deliver mark vals) else s

/-! ## Outstanding operations (R215, R216) -/

/-- Operations without those that have retired: complete, with every older one of their class complete. `open'` lists the
classes that have an older operation still open. -/
def retireOps (open' : List Nat) : List EngOp → List EngOp
  | [] => []
  | o :: t =>
    if open'.contains o.cls then o :: retireOps open' t
    else if o.done then retireOps open' t
    else o :: retireOps (o.cls :: open') t

/-- The number of a warp's operations of a class issued and not retired. -/
def Warp.count (w : Warp) (cls : Nat) : Nat := w.ops.countP (fun o => decide (o.cls = cls))

/-- The counters as the list of operations gives them. -/
def Warp.recount (w : Warp) : Warp :=
  { w with cpy := w.count 0, gth := w.count 1, mtx := w.count 2, rmt := w.count 3, inv := w.count 4 }

/-- An operation issued. -/
def Warp.issueOp (w : Warp) (cls id : Nat) : Warp := Warp.recount { w with ops := w.ops ++ [⟨cls, id, false⟩] }

/-- An operation completed, and the oldest complete ones retired. -/
def Warp.opDone (w : Warp) (cls id : Nat) : Warp :=
  Warp.recount { w with ops := retireOps [] (w.ops.map (fun o => if o.id = id ∧ o.cls = cls then { o with done := true } else o)) }

/-- A warp changed, where it is still there. -/
def State.onLiveWarp (s : State) (w : WarpId) (f : Warp → Warp) : State :=
  match lookup? w s.warps with
  | some v => s.setWarp w (f v)
  | none => s

/-- An operation of a warp completed. -/
def State.opDone (s : State) (w : WarpId) (cls id : Nat) : State := s.onLiveWarp w (fun v => v.opDone cls id)

/-! ## Special-register views of the pool (R174, R175) -/

/-- How many segments of a quadrant of a list have a role. -/
def countRole (r : Role) (q : Nat) (segs : List Segment) : Nat :=
  ((segs.drop (10 * q)).take 10).countP (fun x => decide (x.role = r))

/-- POOLOCC (R174). -/
def poolOcc (segs : List Segment) : BitVec 64 :=
  let quad (q : Nat) : Nat :=
    countRole .reg q segs + 16 * countRole .cch q segs + 256 * countRole .mxs q segs + 4096 * countRole .scr q segs
  BitVec.ofNat 64 (quad 0 + 65536 * quad 1 + 65536 ^ 2 * quad 2 + 65536 ^ 3 * quad 3)

end Sys2Proof.Machine
end

