-- ==== Sys2Proof/Machine/Operands.lean ====
section
/-! DEFINITION. Operands of the instructions of a group: what each lane reads under a register field (R272 to R274, R294 to
R296), what it writes, and the reads that come too early (R304, R306). -/

namespace Sys2Proof.Machine

/-! ## Tags (R272) -/

/-- Tag B32. -/
def tagB32 : BitVec 4 := 0
/-- Tag S32. -/
def tagS32 : BitVec 4 := 1
/-- Tag N32. -/
def tagN32 : BitVec 4 := 2
/-- Tag F32. -/
def tagF32 : BitVec 4 := 3
/-- Tag F64. -/
def tagF64 : BitVec 4 := 4
/-- Tag S64. -/
def tagS64 : BitVec 4 := 5
/-- Tag N64. -/
def tagN64 : BitVec 4 := 6
/-- Tag BF16x2. -/
def tagBF16 : BitVec 4 := 7
/-- Tag F16x2. -/
def tagF16 : BitVec 4 := 8
/-- Tag S16x2. -/
def tagS16 : BitVec 4 := 9
/-- Tag S8x4. -/
def tagS8 : BitVec 4 := 10
/-- Tag N8x4. -/
def tagN8 : BitVec 4 := 11
/-- Tag T8x4. -/
def tagT8 : BitVec 4 := 12
/-- Tag T6x5. -/
def tagT6 : BitVec 4 := 13
/-- Tag E8x4. -/
def tagE8 : BitVec 4 := 14

/-- Whether a tag takes a pair of registers (R272). -/
def isPairTag (t : BitVec 4) : Bool := t == 4 || t == 5 || t == 6

/-- The number of elements of a tag (R272, R356). -/
def tagCount (t : BitVec 4) : Nat :=
  if t = 7 ∨ t = 8 ∨ t = 9 then 2 else if t = 10 ∨ t = 11 ∨ t = 12 ∨ t = 14 then 4 else if t = 13 then 5 else 1

/-- The width of an element of a tag (R272). -/
def tagWidth (t : BitVec 4) : Nat :=
  if isPairTag t then 64 else if t = 7 ∨ t = 8 ∨ t = 9 then 16
  else if t = 10 ∨ t = 11 ∨ t = 12 ∨ t = 14 then 8 else if t = 13 then 6 else 32

/-- Tags whose elements are two's complement integers. -/
def isSignedTag (t : BitVec 4) : Bool := t == 1 || t == 5 || t == 9 || t == 10

/-- The integer tags of R323. -/
def isIntTag (t : BitVec 4) : Bool := t == 1 || t == 2 || t == 5 || t == 6 || t == 9 || t == 10 || t == 11

/-- The IEEE tags (R275). -/
def isIeeeTag (t : BitVec 4) : Bool := t == 3 || t == 4 || t == 7 || t == 8

/-- The tapered tags (R278). -/
def isTaperTag (t : BitVec 4) : Bool := t == 12 || t == 13

/-- The floating and tapered tags. -/
def isFloatTag (t : BitVec 4) : Bool := isIeeeTag t || isTaperTag t

/-- The IEEE format of an element of a tag. -/
def ieeeOf (t : BitVec 4) : Ieee := if t = 4 then ieee64 else if t = 7 then ieeeB16 else if t = 8 then ieee16 else ieee32

/-- The code width of a tapered tag. -/
def taperBits (t : BitVec 4) : Nat := if t = 13 then 6 else 8

/-- An operand: its bits, the high half zero for one register, and its tag. -/
structure Val where
  bits : BitVec 64
  tag : BitVec 4
  deriving DecidableEq, Repr

/-- Element e of a value, as a number of its width (R272). -/
def Val.elem (v : Val) (e : Nat) : Nat := v.bits.toNat / 2 ^ (tagWidth v.tag * e) % 2 ^ tagWidth v.tag

/-- The elements of a value (R272). -/
def Val.elems (v : Val) : List Nat := (List.range (tagCount v.tag)).map v.elem

/-- Elements packed under a tag; T6x5 leaves bits [31:30] zero (R273). -/
def packElems (t : BitVec 4) (es : List Nat) : Val :=
  ⟨BitVec.ofNat 64 (es.foldr (fun x acc => x % 2 ^ tagWidth t + 2 ^ tagWidth t * acc) 0), t⟩

/-- The exact value of an element under a tag (R357). -/
def elemValue (t : BitVec 4) (x : Nat) : Ext :=
  if isIeeeTag t then (ieeeOf t).value x
  else if isTaperTag t then taperValue (taperBits t) x
  else if t = 14 then e8Value x
  else Ext.ofInt (readInt (tagWidth t) (isSignedTag t) x)

/-- The integer value of an element: B32 reads as unsigned (R323). -/
def elemInt (t : BitVec 4) (x : Nat) : Int := readInt (tagWidth t) (isSignedTag t) x

/-! ## What a lane sees -/

/-- A member lane of the current group with all it reads from. -/
structure LaneCtx where
  lane : Nat
  tid : ThreadId
  th : Thread
  warp : Warp
  bundle : Bundle
  key : GroupKey
  group : Group
  seed : Nat
  deriving DecidableEq, Repr

/-- The context of one member. -/
def laneCtx (s : State) (k : GroupKey) (g : Group) (p : Nat × ThreadId) : LaneCtx :=
  { lane := p.1, tid := p.2, th := s.thread p.2, warp := s.warp p.2.warp, bundle := s.bundle p.2.warp, key := k,
    group := g, seed := s.openVals + 64 * p.1 }

/-- The members of the current group, in ascending lane order; none where no group is current. -/
def laneCtxs (s : State) : List LaneCtx :=
  match s.cur with
  | none => []
  | some k =>
    match s.group? k with
    | none => []
    | some g => (membersOf k g).map (laneCtx s k g)

/-- Whether a lane's warp checks stall counts (R306). -/
def LaneCtx.chk (c : LaneCtx) : Bool := c.warp.chk.getLsbD 0

/-- The lane's registers: REGS × 8 (R158). -/
def LaneCtx.limit (c : LaneCtx) : Nat := c.bundle.regs * 8

/-- What the table of recent writes calls a temporary, a predicate and the window base. -/
def hazTemp (i : Nat) : Nat := 1000 + i
/-- See `hazTemp`. -/
def hazPred (i : Nat) : Nat := 2000 + i
/-- See `hazTemp`. -/
def hazWindow : Nat := 3000

/-- The latest write of something by a lane whose latency has not passed when the current instruction issues (R304). -/
def LaneCtx.early (c : LaneCtx) (what : Nat) : Option Hazard :=
  (c.group.hazards.reverse.filter (fun h => h.lane == c.lane && h.what == what && decide (c.group.cycle < h.due))).head?

/-- Class 02 detail: what was read, and the word index of the reader (R306). -/
def LaneCtx.earlyAddr (c : LaneCtx) (x : Nat) : BitVec 64 := BitVec.ofNat 64 (x % 128 + 256 * c.group.here)

/-- The lane's window base; an instruction within WND's latency reads it early (R342). -/
def LaneCtx.wb (c : LaneCtx) : Except Trap Nat :=
  match c.early hazWindow with
  | none => .ok c.th.wb
  | some h =>
    if c.chk then .error (Trap.sync 2 1 (c.earlyAddr 0))
    else .ok (if Config.freeBool (c.seed + 63) then h.old.data.toNat else c.th.wb)

/-- A predicate of a lane; an early read takes a choice of its own, by predicate and by the number `n` of the read (R297, R306). -/
def LaneCtx.pred (c : LaneCtx) (p : Nat) (n : Nat := 0) : Except Trap Bool :=
  match c.early (hazPred p) with
  | none => .ok (c.th.preds.getLsbD p)
  | some h =>
    if c.chk then .error (Trap.sync 2 2 (c.earlyAddr p))
    else .ok (if Config.freeBool (c.seed + 16 + 12 * n + p) then h.old.data.getLsbD 0 else c.th.preds.getLsbD p)

/-- One register as held, or as it stood before a write that is not yet due (R306). `n` numbers the read. -/
def LaneCtx.held (c : LaneCtx) (what field n : Nat) (now : Reg) : Except Trap Reg :=
  match c.early what with
  | none => .ok now
  | some h =>
    if c.chk then .error (Trap.sync 2 1 (c.earlyAddr field))
    else .ok (if Config.freeBool (c.seed + n) then h.old else now)

/-- The class 04 detail of a register beyond the warp's range (R342). -/
def boundsAddr (field p : Nat) : BitVec 64 := BitVec.ofNat 64 (field + 65536 * (p % 512))

/-- One register by its field (R294). `n` numbers the read. -/
def LaneCtx.reg (c : LaneCtx) (f n : Nat) : Except Trap Reg :=
  if f < 112 then
    match c.wb with
    | .error t => .error t
    | .ok wb =>
      if wb + f < c.limit then c.held (wb + f) f n (lookupD (wb + f) Reg.zero c.th.regs)
      else .error (Trap.sync 4 1 (boundsAddr f (wb + f)))
  else if f < 120 then c.held (hazTemp (f - 112)) f n (lookupD (f - 112, c.lane) Reg.zero c.group.temps)
  else if f = 121 then .ok ⟨BitVec.ofNat 32 c.lane, tagN32⟩
  else if f = 122 then .ok ⟨BitVec.ofNat 32 c.warp.wp, tagN32⟩
  else if f = 123 then .ok ⟨BitVec.ofNat 32 c.bundle.bn, tagN32⟩
  else if f = 124 then .ok ⟨c.bundle.frame.extractLsb' 0 32, tagN64⟩
  else if f = 125 then .ok ⟨c.bundle.frame.extractLsb' 32 32, tagN32⟩
  else if f = 126 then .ok ⟨0x3F800000, tagF32⟩
  else .ok Reg.zero

/-- The other register of a pair; kp pairs with kh (R294). -/
def LaneCtx.regHigh (c : LaneCtx) (f n : Nat) : Except Trap Reg :=
  if f = 124 then .ok ⟨c.bundle.frame.extractLsb' 32 32, tagN64⟩ else c.reg (f + 1) n

/-- The tag that a register field holds, seen without the checks of a read. -/
def LaneCtx.tagSeen (c : LaneCtx) (f : Nat) : BitVec 4 :=
  if f < 112 then (lookupD (c.th.wb + f) Reg.zero c.th.regs).tag
  else if f < 120 then (lookupD (f - 112, c.lane) Reg.zero c.group.temps).tag
  else 0

/-- The tag that a read of a register field meets; one that comes too early under CHK has that of the register as it stands. -/
def LaneCtx.tagMet (c : LaneCtx) (f n : Nat) : Option (BitVec 4) :=
  match c.reg f n with
  | .ok r => some r.tag
  | .error t => if t.cls = 2 then some (c.tagSeen f) else none

/-- A tag fault: the subcode and the field (R274). -/
def tagTrap (sb f : Nat) : Trap := Trap.sync 1 sb (BitVec.ofNat 64 f)

/-- A source under its own tag: one register, or the pair a 64-bit tag names (R273, R274). `n` numbers the read. -/
def LaneCtx.src (c : LaneCtx) (f n : Nat) : Except Trap Val :=
  match c.reg f n with
  | .error t => .error t
  | .ok r =>
    if r.tag = 15 then .error (tagTrap 1 f)
    else if isPairTag r.tag then
      if f % 2 = 1 then .error (tagTrap 3 f)
      else
        match c.regHigh f (n + 1) with
        | .error t => .error t
        | .ok q => if q.tag = r.tag then .ok ⟨q.data ++ r.data, r.tag⟩ else .error (tagTrap 3 f)
    else .ok ⟨BitVec.setWidth 64 r.data, r.tag⟩

/-- Two registers as 64 raw bits, whatever their tags but 15; `n` numbers the read. The two tags are returned. -/
def LaneCtx.srcPair (c : LaneCtx) (f n : Nat) : Except Trap (BitVec 64 × BitVec 4 × BitVec 4) :=
  match c.reg f n with
  | .error t => .error t
  | .ok r =>
    if r.tag = 15 then .error (tagTrap 1 f)
    else if f % 2 = 1 then .error (tagTrap 3 f)
    else
      match c.regHigh f (n + 1) with
      | .error t => .error t
      | .ok q => if q.tag = 15 then .error (tagTrap 1 (f + 1)) else .ok (q.data ++ r.data, r.tag, q.tag)

/-- The place of a class in the order of checks of R320. -/
def checkRank (t : Trap) : Nat :=
  if t.cls = 0 then 0 else if t.cls = 2 then 1 else if t.cls = 1 then 2 else if t.cls = 4 ∧ t.sub = 1 then 3 else 4

/-- The values of a list of reads, or the fault that R320 puts first. -/
def allOk {α : Type} : List (Except Trap α) → Except Trap (List α)
  | [] => .ok []
  | .ok v :: t =>
    match allOk t with
    | .ok vs => .ok (v :: vs)
    | .error e => .error e
  | .error e :: t =>
    match allOk t with
    | .ok _ => .error e
    | .error u => .error (if checkRank u < checkRank e then u else e)

/-- The value of zr beside another source: zero under that source's tag, B32 where there is none (R294). -/
def zrLike : Option (Except Trap Val) → Except Trap Val
  | some (.ok v) => .ok ⟨0, v.tag⟩
  | _ => .ok ⟨0, tagB32⟩

/-- The sources of an instruction, in the order given: read, tags checked one by one, zr under the tag of another source,
and the first fault of R320 if any. -/
def LaneCtx.sources (c : LaneCtx) (fs : List Nat) : Except Trap (List Val) :=
  let reads := (fs.zipIdx).map (fun p => if p.1 = 120 then none else some (c.src p.1 (2 * p.2)))
  let giver := (reads.filterMap id).head?
  allOk (reads.map (fun r =>
    match r with
    | some v => v
    | none => zrLike giver))

/-- A destination field, one register or a pair: class 00 for an odd pair, class 04 beyond the range (R294, R295). -/
def LaneCtx.dest (c : LaneCtx) (d : Nat) (pair : Bool) : Except Trap Nat :=
  if d = 127 then .ok 0
  else if pair && d % 2 == 1 then .error (Trap.sync 0 5 c.group.hereAddr)
  else if d < 112 then
    match c.wb with
    | .error t => .error t
    | .ok wb =>
      let top := if pair then wb + d + 1 else wb + d
      if top < c.limit then .ok (wb + d)
      else .error (Trap.sync 4 1 (boundsAddr (if wb + d < c.limit then d + 1 else d) top))
  else .ok 0

/-- The fields of a predicate list read together. -/
def LaneCtx.predVal (c : LaneCtx) (p : Nat) (n : Nat := 1) : Except Trap Bool := if p = 12 then .ok true else c.pred p n

/-! ## Writing -/

/-- What a lane of an instruction writes. -/
inductive Write where
  | reg (f : Nat) (data : BitVec 32) (tag : BitVec 4)
  | pred (p : Nat) (v : Bool)
  deriving DecidableEq, Repr

/-- A value written under a destination field: a pair writes its tag into both registers (R273); nil takes nothing (R294). -/
def writesOf (d : Nat) (v : Val) : List Write :=
  if d = 127 then []
  else if isPairTag v.tag then
    [.reg d (v.bits.extractLsb' 0 32) v.tag, .reg (d + 1) (v.bits.extractLsb' 32 32) v.tag]
  else [.reg d (v.bits.extractLsb' 0 32) v.tag]

/-- The entries of the operand latch that do not cover a field (R160). -/
def latchWithout (f : Nat) (l : List (Nat × Nat × Nat)) : List (Nat × Nat × Nat) :=
  l.filter (fun e => !(decide (e.1 ≤ f) && decide (f < e.1 + e.2.1)))

/-- The current group with a recent write noted and the latch entries of the field gone (R304, R160). -/
def noteWrite (k : GroupKey) (f : Option Nat) (h : Option Hazard) (s : State) : State :=
  match s.group? k with
  | none => s
  | some g =>
    let g := match h with
      | some h => { g with hazards := g.hazards ++ [h] }
      | none => g
    let g := match f with
      | some f => { g with latch := latchWithout f g.latch }
      | none => g
    s.setGroup k g

/-- A write of a fixed-latency instruction: the register or predicate holds the new value, and until `lat` cycles have
passed a read of it is early (R304). A pending mark on the register ends, since writes take effect in issue order (R305). -/
def LaneCtx.write (c : LaneCtx) (lat : Nat) (s : State) : Write → State
  | .reg f data tag =>
    if f < 112 then
      let th := s.thread c.tid
      let p := (match c.wb with | .ok wb => wb | .error _ => c.th.wb) + f
      let s := noteWrite c.key (some f) (some ⟨c.lane, p, c.group.cycle + lat, lookupD p Reg.zero th.regs⟩) s
      s.setThread c.tid { th with regs := put p ⟨data, tag⟩ th.regs, pending := th.pending.filter (fun x => x.1 ≠ p) }
    else if f < 120 then
      match s.group? c.key with
      | none => s
      | some g =>
        let i := f - 112
        let h : Hazard := ⟨c.lane, hazTemp i, c.group.cycle + lat, lookupD (i, c.lane) Reg.zero g.temps⟩
        s.setGroup c.key { g with temps := put (i, c.lane) ⟨data, tag⟩ g.temps, hazards := g.hazards ++ [h],
                                  latch := latchWithout f g.latch }
    else s
  | .pred p v =>
    let th := s.thread c.tid
    let h : Hazard := ⟨c.lane, hazPred p, c.group.cycle + lat, ⟨if th.preds.getLsbD p then 1 else 0, 0⟩⟩
    let bit : BitVec 12 := 1#12 <<< p
    (noteWrite c.key none (some h) s).setThread c.tid
      { th with preds := if v then th.preds ||| bit else th.preds &&& ~~~bit }

/-- All writes of a lane, in order. -/
def LaneCtx.writeAll (c : LaneCtx) (lat : Nat) (ws : List Write) (s : State) : State := ws.foldl (c.write lat) s

/-- The fields that a variable-latency instruction writes noted for the rest of its run (R305). -/
def noteDests (k : GroupKey) (d n : Nat) (s : State) : State :=
  match s.group? k with
  | none => s
  | some g =>
    let new := ((List.range n).map (fun i => (g.here, d + i))).filter (fun v => !g.varDests.contains v)
    if 120 ≤ d then s else s.setGroup k { g with varDests := g.varDests ++ new }

/-- The destination registers of a variable-latency instruction become pending under a mark (R305): `n` registers from a
field. A temporary is not marked: no later run sees it (R296). -/
def LaneCtx.markPending (c : LaneCtx) (d n mark : Nat) (s : State) : State :=
  let s := noteDests c.key d n s
  if d < 112 then
    match c.wb with
    | .error _ => s
    | .ok wb =>
      let th := s.thread c.tid
      let ps := (List.range n).map (fun i => wb + d + i)
      s.setThread c.tid { th with pending := th.pending.filter (fun x => !(ps.contains x.1)) ++ ps.map (fun p => (p, mark)) }
  else s

/-- The physical registers a variable-latency destination names, for the value's return; none for nil and temporaries. -/
def LaneCtx.physical (c : LaneCtx) (d n : Nat) : List Nat :=
  if d < 112 then
    match c.wb with
    | .error _ => []
    | .ok wb => (List.range n).map (fun i => wb + d + i)
  else []

end Sys2Proof.Machine
end

