-- ==== Sys2Proof/Machine/Flags.lean ====
section
/-! DEFINITION. Flags and the arithmetic trap (R285 to R287), and the comparisons that set predicates (R313, R332). -/

namespace Sys2Proof.Machine

/-- FPC.FZ of a lane's warp (R277). -/
def LaneCtx.fz (c : LaneCtx) : Bool := c.warp.fpc.getLsbD 6

/-- FPC.TEN of a lane's warp (R285). -/
def LaneCtx.ten (c : LaneCtx) : Flags := c.warp.fpc.extractLsb' 0 6

/-- Class 06 with every enabled flag raised (R287). -/
def arithTrap (ten raised : Flags) : Option Trap :=
  if ten &&& raised = 0 then none else some (Trap.sync 6 (ten &&& raised).toNat 0)

/-- Flags ORed into FPS of a warp (R285). -/
def raiseFlags (w : WarpId) (f : Flags) (s : State) : State :=
  if f = 0 then s
  else s.setWarp w { s.warp w with fps := (s.warp w).fps ||| BitVec.setWidth 32 f }

/-- A condition of CMP on an order: -1, 0 or 1, or unordered (R313). -/
def condHolds (cond : Nat) (unordered : Bool) (o : Int) : Bool :=
  match cond with
  | 0 => !unordered && o == 0
  | 1 => unordered || o != 0
  | 2 => !unordered && o == -1
  | 3 => !unordered && (o == -1 || o == 0)
  | 4 => !unordered && o == 1
  | 5 => !unordered && (o == 1 || o == 0)
  | 6 => unordered
  | _ => !unordered

/-- Whether a condition is one of lt, le, gt and ge, which raise NV for any NaN (R332). -/
def condOrders (cond : Nat) : Bool := decide (2 ≤ cond) && decide (cond ≤ 5)

/-- The order of two integers. -/
def intCmp (x y : Int) : Int := if x < y then -1 else if x = y then 0 else 1

/-- One element compared: tapered codes in code order with NaR below all, 0xFF of E8 unordered, the rest by value (R332). -/
def compareElem (t : BitVec 4) (cond a b : Nat) : Bool × Flags :=
  if isTaperTag t then
    let n := taperBits t
    let nar := 2 ^ (n - 1)
    let o := intCmp (readInt n true a) (readInt n true b)
    if cond = 6 then (a == nar || b == nar, 0)
    else if cond = 7 then (!(a == nar || b == nar), 0)
    else (condHolds cond false o, 0)
  else
    let x := elemValue t a
    let y := elemValue t b
    let un := x.isNan || y.isNan
    let nv := isIeeeTag t && un && (condOrders cond || x.isSignaling || y.isSignaling)
    (condHolds cond un (extCmp x y), flagIf nv flagNV)

end Sys2Proof.Machine
end

