-- ==== Sys2Proof/Machine/Alu.lean ====
section
/-! DEFINITION. What the fixed-latency instructions compute from their operands, as functions of values alone (R323 to R335,
R350 to R359), and their latencies (R304). -/

namespace Sys2Proof.Machine

/-- Why an evaluation fails: a tag fault with the number of the source at fault (R274), or a class 00 subcode that only the
tags decide (R324, R355). -/
inductive EvalErr where
  | tag (sb which : Nat)
  | code (sb : Nat)
  deriving DecidableEq, Repr

/-- A result value with the flags it raises. -/
abbrev Eval := Except EvalErr (Val × Flags)

/-! ## Latencies (R304) -/

/-- Tags of the second row of R304 for the tag-dependent instructions, F64 apart. -/
def slowTag (t : BitVec 4) : Bool := t == 3 || t == 5 || t == 6 || t == 7 || t == 8 || t == 12 || t == 13

/-- ADD, SUB, MIN, MAX, ADDI, CMP and CMPI (R304). -/
def latArith (ts : List (BitVec 4)) : Nat := if ts.any (· == 4) then 8 else if ts.any slowTag then 4 else 2

/-- AND, OR, XOR, ANDN, ANDI, SEL, shifts, and UNA but RETAG and TAGOF (R304). -/
def latLogic (ts : List (BitVec 4)) : Nat := if ts.any (fun t => t == 4 || slowTag t) then 4 else 2

/-- MUL, FMA and FMS (R304). -/
def latMul (ts : List (BitVec 4)) : Nat := if ts.any (· == 4) then 8 else 4

/-! ## Operation tags -/

/-- Tags read as 32-bit integers beside a pair (R323). -/
def isWord32 (t : BitVec 4) : Bool := t == 0 || t == 1 || t == 2

/-- The operation tag of two integer or raw tags (R323); `e8s8` where E8x4 may meet S8x4. -/
def intTag (e8s8 : Bool) (ta tb : BitVec 4) : Except EvalErr (BitVec 4) :=
  if isFloatTag ta || isFloatTag tb then .error (.tag 2 1)
  else if isIntTag ta && ta == tb then .ok ta
  else if (ta == 1 || ta == 2) && tb == 0 then .ok ta
  else if ta == 0 && (tb == 1 || tb == 2) then .ok tb
  else if ta == 0 && tb == 0 then .ok tagN32
  else if (ta == 5 || ta == 6) && isWord32 tb then .ok ta
  else if ta == 14 && (tb == 14 || (e8s8 && tb == 10)) then .ok tagE8
  else if !isPairTag ta && (tb == 5 || tb == 6) then .error (.tag 4 1)
  else .error (.tag 2 1)

/-- The operation tag of two sources: floating and tapered ones must agree (R350), the rest pair under R323. -/
def opTag (e8s8 : Bool) (ta tb : BitVec 4) : Except EvalErr (BitVec 4) :=
  if isFloatTag ta && isFloatTag tb then
    if ta = tb then .ok ta else if isPairTag ta = isPairTag tb then .error (.tag 2 1) else .error (.tag 4 1)
  else intTag e8s8 ta tb

/-! ## Integer results -/

/-- An exact integer taken to an element of T: clamped with SA, or wrapped (R324). -/
def intElem (t : BitVec 4) (sat : Bool) (x : Int) : Nat × Flags :=
  if sat then
    let r := clampInt (tagWidth t) (isSignedTag t) x
    (wrapInt (tagWidth t) r.1, flagIf r.2 flagSA)
  else (wrapInt (tagWidth t) x, 0)

/-- The flags of several elements ORed together (R285). -/
def orFlags (fs : List Flags) : Flags := fs.foldl (· ||| ·) 0

/-- Elements with flags packed under a tag. -/
def packWith (t : BitVec 4) (es : List (Nat × Flags)) : Val × Flags := (packElems t (es.map Prod.fst), orFlags (es.map Prod.snd))

/-- One integer operation on each element (R324). -/
def intOp2 (f : Int → Int → Int) (t : BitVec 4) (sat : Bool) (a b : Val) : Val × Flags :=
  packWith t (List.zipWith (fun x y => intElem t sat (f (elemInt a.tag x) (elemInt b.tag y))) a.elems b.elems)

/-- The biased sum or difference of two scales (R325): clamped with SA, 0xFF kept. -/
def e8Clamp (x : Int) : Nat × Flags := if x < 0 then (0, flagSA) else if x > 254 then (254, flagSA) else (x.toNat, 0)

/-- Scales of A with elements of B under f (R325). -/
def e8Op2 (f : Int → Int → Int) (a b : Val) : Val × Flags :=
  packWith tagE8 (List.zipWith (fun (x y : Nat) =>
    if x = 255 ∨ (b.tag = tagE8 ∧ y = 255) then (255, 0) else e8Clamp (f x (elemInt b.tag y))) a.elems b.elems)

/-! ## Floating results -/

/-- An F32 element read under FPC.FZ: a subnormal is a zero of its sign (R277). -/
def readFz (t : BitVec 4) (fz : Bool) (x : Nat) : Ext :=
  if fz && t == 3 && ieee32.isSubnormal x then .num (decide (x ≥ 2 ^ 31)) 0 0 else elemValue t x

/-- A result under FPC.FZ: one that is subnormal becomes a zero of its sign with UF and NX (R277). -/
def writeFz (t : BitVec 4) (fz : Bool) (r : Nat × Flags) : Nat × Flags :=
  if fz && t == 3 && ieee32.isSubnormal r.1 then (r.1 / 2 ^ 31 * 2 ^ 31, r.2 ||| flagUF ||| flagNX) else r

/-- round(x, T, mode) for a floating or tapered tag (R283, R281). -/
def roundTag (t : BitVec 4) (mode : RMode) (sat : Bool) (x : Ext) : Nat × Flags :=
  if isTaperTag t then taperRound (taperBits t) mode x else (ieeeOf t).round mode sat x

/-- Whether a mode is RD, which signs an exact zero sum (R276). -/
def RMode.isRd : RMode → Bool
  | .rd => true
  | _ => false

/-- A sum rounded to an element of T (R351): FZ on inputs and result, NV of the sum. -/
def floatSum (t : BitVec 4) (fz : Bool) (mode : RMode) (sat : Bool) (x y : Ext) (nv : Flags) : Nat × Flags :=
  let s := extSum mode.isRd [x, y]
  let r := writeFz t fz (roundTag t mode sat s.1)
  (r.1, r.2 ||| s.2 ||| nv)

/-- A product rounded to an element of T (R351). -/
def floatProd (t : BitVec 4) (fz : Bool) (mode : RMode) (sat : Bool) (x y : Ext) : Nat × Flags :=
  let p := extMul x y
  let r := writeFz t fz (roundTag t mode sat p.1)
  (r.1, r.2 ||| p.2)

/-- One floating operation on each element. -/
def floatOp2 (f : Ext → Ext → Nat × Flags) (t : BitVec 4) (fz : Bool) (a b : Val) : Val × Flags :=
  packWith t (List.zipWith (fun x y => f (readFz t fz x) (readFz t fz y)) a.elems b.elems)

/-! ## ADD, SUB, MUL, MULH, MIN, MAX, ADDI -/

/-- ADD, SUB or MUL: `kind` 0, 1, 2 (R324, R325, R351). -/
def evalArith (kind : Nat) (fz : Bool) (rm : BitVec 3) (sat : Bool) (a b : Val) : Eval :=
  match opTag (decide (kind < 2)) a.tag b.tag with
  | .error e => .error e
  | .ok t =>
    if isFloatTag t then
      let m := rmodeOf rm
      .ok (floatOp2 (fun x y =>
        match kind with
        | 0 => floatSum t fz m sat x y 0
        | 1 => floatSum t fz m sat x y.neg 0
        | _ => floatProd t fz m sat x y) t fz a b)
    else if t = tagE8 ∧ 2 ≤ kind then .error (.tag 2 0)
    else if rm ≠ 0 then .error (.code 8)
    else if t = tagE8 then
      match kind with
      | 0 => .ok (e8Op2 (fun x y => if b.tag = tagE8 then x + y - 127 else x + y) a b)
      | 1 => .ok (e8Op2 (fun x y => if b.tag = tagE8 then x - y + 127 else x - y) a b)
      | _ => .error (.tag 2 0)
    else
      .ok (intOp2 (fun x y => match kind with | 0 => x + y | 1 => x - y | _ => x * y) t sat a b)

/-- MULH: the high half of the exact product (R326). -/
def evalMulh (a b : Val) : Eval :=
  match opTag false a.tag b.tag with
  | .error e => .error e
  | .ok t =>
    if isFloatTag t || t == tagE8 then .error (.tag 2 0)
    else .ok (intOp2 (fun x y => (x * y) / (2 ^ tagWidth t)) t false a b)

/-- One element of MIN or MAX on a floating tag (R354). -/
def floatMinMax (max : Bool) (t : BitVec 4) (fz : Bool) (x y : Nat) : Nat × Flags :=
  let flush (z : Nat) : Nat := if fz && t == 3 && ieee32.isSubnormal z then z / 2 ^ 31 * 2 ^ 31 else z
  let x := flush x
  let y := flush y
  let u := elemValue t x
  let v := elemValue t y
  let nv := flagIf (u.isSignaling || v.isSignaling) flagNV
  if u.isNan && v.isNan then ((ieeeOf t).canonicalNan, nv)
  else if u.isNan then (y, nv)
  else if v.isNan then (x, nv)
  else
    let o := extCmp u v
    let xFirst := if o = 0 then u.negNum else o == -1
    (if xFirst != max then x else y, 0)

/-- One element of MIN or MAX under any operation tag (R325, R327, R354). -/
def minMaxElem (max : Bool) (t ta tb : BitVec 4) (fz : Bool) (x y : Nat) : Nat × Flags :=
  if isIeeeTag t then floatMinMax max t fz x y
  else
    let u := if isTaperTag t then readInt (taperBits t) true x else elemInt ta x
    let v := if isTaperTag t then readInt (taperBits t) true y else elemInt tb y
    let z := if t = tagE8 ∧ (x = 255 ∨ y = 255) then 255
      else if max then (if u < v then v else u) else (if v < u then v else u)
    (wrapInt (tagWidth t) z, 0)

/-- MIN and MAX (R325, R327, R354). -/
def evalMinMax (max fz : Bool) (a b : Val) : Eval :=
  match opTag false a.tag b.tag with
  | .error e => .error e
  | .ok t => .ok (packWith t (List.zipWith (minMaxElem max t a.tag b.tag fz) a.elems b.elems))

/-- ADDI: the immediate added as a value (R324, R325); FZ is not for it (R277). -/
def evalAddi (rm : BitVec 3) (sat : Bool) (a : Val) (imm : Int) : Eval :=
  if a.tag = tagF32 ∨ a.tag = tagF64 then
    .ok (packWith a.tag (a.elems.map (fun x =>
      floatSum a.tag false (rmodeOf rm) sat (elemValue a.tag x) (Ext.ofInt imm) 0)))
  else if isFloatTag a.tag then .error (.tag 2 0)
  else if rm ≠ 0 then .error (.code 8)
  else if a.tag = tagE8 then
    .ok (packWith tagE8 (a.elems.map (fun (x : Nat) => if x = 255 then (255, 0) else e8Clamp (x + imm))))
  else
    let t := if a.tag = tagB32 then tagN32 else a.tag
    .ok (packWith t (a.elems.map (fun x => intElem t sat (elemInt t x + imm))))

/-! ## FMA, FMS, DOT -/

/-- One element of FMA or FMS on a floating or tapered tag (R351). -/
def floatFma (sub : Bool) (t : BitVec 4) (fz : Bool) (m : RMode) (sat : Bool) (x y z : Nat) : Nat × Flags :=
  let p := extMul (readFz t fz x) (readFz t fz y)
  let d := readFz t fz z
  floatSum t fz m sat p.1 (if sub then d.neg else d) p.2

/-- Three lists taken together. -/
def zip3With {α β γ δ : Type} (f : α → β → γ → δ) : List α → List β → List γ → List δ
  | a :: as, b :: bs, c :: cs => f a b c :: zip3With f as bs cs
  | _, _, _ => []

/-- What the rows of R350 say of three sources of FMA and FMS where a floating or tapered tag is among them: none where they agree. -/
def fmaFault (ta tb td : BitVec 4) : Option EvalErr :=
  if ta = tb ∧ tb = td then none
  else if !(isFloatTag ta && isFloatTag tb && isFloatTag td) then some (.tag 2 (if isFloatTag ta != isFloatTag tb then 1 else 2))
  else if (!isPairTag ta && !isPairTag tb && ta != tb) || (!isPairTag ta && !isPairTag td && ta != td) ||
    (!isPairTag tb && !isPairTag td && tb != td) then some (.tag 2 (if ta = tb then 2 else 1))
  else some (.tag 4 (if isPairTag ta = isPairTag tb then 2 else 1))

/-- FMA and FMS (R350, R351, R352); the third operand is D. -/
def evalFma (sub fz : Bool) (rm : BitVec 3) (sat : Bool) (a b d : Val) : Eval :=
  if isFloatTag a.tag || isFloatTag b.tag || isFloatTag d.tag then
    match fmaFault a.tag b.tag d.tag with
    | some e => .error e
    | none => .ok (packWith a.tag (zip3With (floatFma sub a.tag fz (rmodeOf rm) sat) a.elems b.elems d.elems))
  else
    match intTag false a.tag b.tag with
    | .error e => .error e
    | .ok t =>
      if t = tagE8 then .error (.tag 2 0)
      else if d.tag ≠ t then .error (.tag (if isPairTag d.tag = isPairTag t then 2 else 4) 2)
      else if rm ≠ 0 then .error (.code 8)
      else
        .ok (packWith t (zip3With (fun x y z =>
          let p := elemInt a.tag x * elemInt b.tag y
          intElem t sat (if sub then p - elemInt t z else p + elemInt t z)) a.elems b.elems d.elems))

/-- Whether A, B and D carry tags of one row of R355. -/
def dotTags (a b d : BitVec 4) : Bool :=
  (a == 9 && b == 9 && (d == 1 || d == 5)) ||
  ((a == 10 || a == 11) && (b == 10 || b == 11) && d == 1) ||
  (a == 11 && b == 11 && d == 2) ||
  ((a == 7 || a == 8 || a == 12 || a == 13) && a == b && d == 3) ||
  ((a == 10 || a == 11) && b == 12 && d == 3) || (a == 12 && (b == 10 || b == 11) && d == 3) ||
  (a == 3 && b == 3 && d == 4)

/-- DOT: the exact sum of D and every product, rounded or saturated once (R355, R290). -/
def evalDot (rm : BitVec 3) (sat : Bool) (a b d : Val) : Eval :=
  if !dotTags a.tag b.tag d.tag then
    .error (if isPairTag a.tag then .tag 4 0 else if isPairTag b.tag then .tag 4 1
      else if !(dotTags a.tag b.tag 1 || dotTags a.tag b.tag 3 || dotTags a.tag b.tag 4) then .tag 2 1
      else if isPairTag d.tag != (a.tag == 3 && b.tag == 3) && !(a.tag == 9 && b.tag == 9) then .tag 4 2 else .tag 2 2)
  else if isFloatTag d.tag then
    let m := rmodeOf rm
    let ps := List.zipWith (fun x y => extMul (elemValue a.tag x) (elemValue b.tag y)) a.elems b.elems
    let s := extSum m.isRd (elemValue d.tag (d.elem 0) :: ps.map Prod.fst)
    let r := (ieeeOf d.tag).round m sat s.1
    .ok (packElems d.tag [r.1], r.2 ||| s.2 ||| orFlags (ps.map Prod.snd))
  else if rm ≠ 0 then .error (.code 8)
  else
    let x := (List.zipWith (fun x y => elemInt a.tag x * elemInt b.tag y) a.elems b.elems).foldl (· + ·)
      (elemInt d.tag (d.elem 0))
    .ok (packWith d.tag [intElem d.tag sat x])

/-! ## Logic, shifts, UNA -/

/-- A bitwise function of two values of one width; T6x5 results leave bits [31:30] zero (R328). -/
def evalLogic (f : BitVec 64 → BitVec 64 → BitVec 64) (a b : Val) : Eval :=
  if isPairTag a.tag ≠ isPairTag b.tag then .error (.tag 4 1)
  else
    let r := f a.bits b.bits
    let m : BitVec 64 := if isPairTag a.tag then BitVec.allOnes 64 else if a.tag = tagT6 then 0x3FFFFFFF else 0xFFFFFFFF
    .ok (⟨r &&& m, a.tag⟩, 0)

/-- The tags that shifts accept on A (R329). -/
def shiftTag (t : BitVec 4) : Bool := t == 0 || isIntTag t

/-- One element shifted by n (R329). -/
def shiftElem (left : Bool) (t : BitVec 4) (n x : Nat) : Nat :=
  let w := tagWidth t
  if left then (if n < w then x * 2 ^ n % 2 ^ w else 0)
  else if isSignedTag t then wrapInt w (readInt w true x / (2 ^ (Nat.min n w) : Int))
  else if n < w then x / 2 ^ n else 0

/-- SHL, SHR, SHLI and SHRI by an amount (R329). -/
def evalShift (left : Bool) (a : Val) (n : Nat) : Eval :=
  if shiftTag a.tag then .ok (packElems a.tag (a.elems.map (shiftElem left a.tag n)), 0) else .error (.tag 2 0)

/-- The amount of SHL and SHR: B as an unsigned 32-bit value (R329). -/
def shiftAmount (b : Val) : Except EvalErr Nat :=
  if isWord32 b.tag then .ok b.bits.toNat else .error (.tag (if isPairTag b.tag then 4 else 2) 1)

/-- NEG and ABS (R334): `neg` tells which. -/
def evalNegAbs (neg : Bool) (a : Val) : Eval :=
  if a.tag = tagE8 then .error (.tag 2 0)
  else if isIeeeTag a.tag then
    let f := ieeeOf a.tag
    .ok (packWith a.tag (a.elems.map (fun x =>
      match f.value x with
      | .nan s => (f.canonicalNan, flagIf s flagNV)
      | _ => (if neg then (x + 2 ^ (f.width - 1)) % 2 ^ f.width else x % 2 ^ (f.width - 1), 0))))
  else if isTaperTag a.tag then
    let n := taperBits a.tag
    .ok (packElems a.tag (a.elems.map (fun x =>
      if x = 2 ^ (n - 1) then x else if neg || decide (x > 2 ^ (n - 1)) then (2 ^ n - x) % 2 ^ n else x)), 0)
  else
    let t := if neg ∧ a.tag = tagB32 then tagN32 else a.tag
    .ok (packElems t (a.elems.map (fun x =>
      let v := elemInt t x
      wrapInt (tagWidth t) (if neg then -v else if v < 0 then -v else v))), 0)

/-- The tags of CLZ, CTZ, POPC, CLS, BREV and BSWAP (R334). -/
def bitTag (t : BitVec 4) : Bool := isWord32 t || t == 5 || t == 6

/-- The bits of a number of w bits, the lowest first. -/
def bitsUp (x w : Nat) : List Bool := (List.range w).map (fun i => x / 2 ^ i % 2 == 1)

/-- A bit count written as one N32 register (R334). -/
def evalCount (f : List Bool → Nat) (a : Val) : Eval :=
  if bitTag a.tag then .ok (⟨BitVec.ofNat 64 (f (bitsUp a.bits.toNat (tagWidth a.tag))), tagN32⟩, 0) else .error (.tag 2 0)

/-- Leading zero bits (R334). -/
def clzBits (l : List Bool) : Nat := (l.reverse.takeWhile (fun b => !b)).length
/-- Trailing zero bits (R334). -/
def ctzBits (l : List Bool) : Nat := (l.takeWhile (fun b => !b)).length
/-- Bits set (R334). -/
def popBits (l : List Bool) : Nat := l.countP id
/-- Bits below the sign bit that equal it (R334). -/
def clsBits (l : List Bool) : Nat :=
  match l.reverse with
  | [] => 0
  | s :: t => (t.takeWhile (fun b => b == s)).length

/-- Bits or bytes in reverse order, under A's tag (R334): groups of n bits. -/
def evalReverse (n : Nat) (a : Val) : Eval :=
  if bitTag a.tag then
    let w := tagWidth a.tag
    .ok (⟨BitVec.ofNat 64 ((List.range (w / n)).foldl (fun acc i => acc * 2 ^ n + a.bits.toNat / 2 ^ (n * i) % 2 ^ n) 0), a.tag⟩, 0)
  else .error (.tag 2 0)

/-- A value under a tag that keeps T6x5 bits [31:30] zero (R273). -/
def retagVal (bits : BitVec 64) (t : BitVec 4) : Val := if t = tagT6 then ⟨bits &&& 0x3FFFFFFF, t⟩ else ⟨bits, t⟩

/-! ## Comparison (R332) -/

/-- Every element of the pair meets the condition; flags ORed. -/
def compareAll (rs : List (Bool × Flags)) : Bool × Flags := (rs.all Prod.fst, orFlags (rs.map Prod.snd))

/-- The tag under which CMP compares: integer tags pair under R323, any other tag needs itself, and widths that differ are subcode
0x04 (R332). -/
def cmpTag (ta tb : BitVec 4) : Except EvalErr (BitVec 4) :=
  if isFloatTag ta || isFloatTag tb || ta == 14 || tb == 14 then
    if ta = tb then .ok ta else .error (.tag (if isPairTag ta = isPairTag tb then 2 else 4) 1)
  else intTag false ta tb

/-- CMP (R332). -/
def evalCmp (cond : Nat) (a b : Val) : Except EvalErr (Bool × Flags) :=
  match cmpTag a.tag b.tag with
  | .error e => .error e
  | .ok t =>
    if isFloatTag t || t == tagE8 then .ok (compareAll (List.zipWith (compareElem t cond) a.elems b.elems))
    else .ok (compareAll (List.zipWith (fun x y =>
      (condHolds cond false (intCmp (elemInt a.tag x) (elemInt b.tag y)), (0 : Flags))) a.elems b.elems))

/-- CMPI: each element against the exact value of the immediate (R332). -/
def evalCmpi (cond : Nat) (a : Val) (imm : Int) : Bool × Flags :=
  compareAll (a.elems.map (fun x =>
    if isIeeeTag a.tag then
      let v := elemValue a.tag x
      (condHolds cond v.isNan (extCmp v (Ext.ofInt imm)), flagIf (v.isNan && (condOrders cond || v.isSignaling)) flagNV)
    else if isTaperTag a.tag then
      let n := taperBits a.tag
      let nar := x == 2 ^ (n - 1)
      let o := if nar then -1 else extCmp (taperValue n x) (Ext.ofInt imm)
      (if cond = 6 then nar else if cond = 7 then !nar else condHolds cond false o, (0 : Flags))
    else if a.tag = tagE8 then (condHolds cond (x == 255) (intCmp x imm), 0)
    else (condHolds cond false (intCmp (elemInt a.tag x) imm), 0)))

/-! ## CVT (R356 to R359) -/

/-- conv(x, t, m) of R357 and R358 for one element. -/
def convElem (src t : BitVec 4) (mode : RMode) (sat : Bool) (x : Nat) : Nat × Flags :=
  let v := elemValue src x
  if src = t ∧ !isIeeeTag t then (x, 0)
  else if isFloatTag t then roundTag t mode sat v
  else if t = tagE8 then e8Round mode v
  else
    let w := tagWidth t
    let sg := isSignedTag t
    match v with
    | .nan _ => (0, flagNV)
    | .inf neg => (wrapInt w (if neg then intLow w sg else intHigh w sg), flagNV)
    | .num neg m e =>
      let fromFloat := isFloatTag src || src == tagE8
      let lo := intLow w sg
      let hi := intHigh w sg
      let below := decide (extCmp v (Ext.ofInt lo) = -1)
      let above := decide (extCmp v (Ext.ofInt hi) = 1)
      match mode with
      | .sr _ =>
        if below || above then (wrapInt w (if below then lo else hi), if fromFloat then flagNV else flagSA)
        else
          let r := roundToInt mode neg m e
          (wrapInt w r.1, flagIf r.2 flagNX)
      | _ =>
        let r := roundToInt mode neg m e
        let k := clampInt w sg r.1
        if k.2 then (wrapInt w k.1, if fromFloat then flagNV else flagSA) else (wrapInt w r.1, flagIf r.2 flagNX)

/-- The converted elements under a mode code, and the stochastic state after them (R356, R359). -/
def convElems (src t : BitVec 4) (r : BitVec 3) (sat : Bool) : List Nat → BitVec 32 → List (Nat × Flags) × BitVec 32
  | [], seed => ([], seed)
  | x :: xs, seed =>
    let st := srStep seed
    let mode := if r = 5 then RMode.sr st.2 else rmodeOf r
    let rest := convElems src t r sat xs (if r = 5 then st.1 else seed)
    (convElem src t mode sat x :: rest.1, rest.2)

/-- CVT: the new value of D, its flags and the final seed (R356). `old` is D's raw bits. -/
def evalCvt (t : BitVec 4) (r : BitVec 3) (sat : Bool) (a : Val) (old : BitVec 64) (seed : BitVec 32) : Val × Flags × BitVec 32 :=
  let n := tagCount t
  let c := convElems a.tag t r sat (a.elems.take n) seed
  let w := tagWidth t
  let kept := (List.range (n - c.1.length)).map (fun i => old.toNat / 2 ^ (w * i) % 2 ^ w)
  (packElems t (c.1.map Prod.fst ++ kept), orFlags (c.1.map Prod.snd), c.2)

end Sys2Proof.Machine
end

