-- ==== Sys2Proof/Decode.lean ====
section
/-! DEFINITION. The decoder and the encoder of instruction words (R292, R308, R312 to R318). The decoder is total: a word
or a pair of words is an instruction of the table, or is turned away under a name of `NotDecoded`. It reads a row by its
fixed bits alone; what the field values may be is checked when the instruction issues (R319). -/

namespace Sys2Proof

/-- Why a word is no instruction of the table. `reserved`: a function code or a zero field that no row has (R314, R293).
`needsPfx`: one of the six opcodes that require a PFX stands without one (R308). `badPfx`: a PFX before a word that does
not accept one. `lonePfx`: a PFX with no word after it. `trailer`: OP 0x3F, which ends the run (R299). `noWords`: nothing. -/
inductive NotDecoded where
  | reserved | needsPfx | badPfx | lonePfx | trailer | noWords
  deriving DecidableEq, Repr

/-- A field of a word: `n` bits from bit `lo` up. -/
def field (w : Word) (lo n : Nat) : BitVec n := w.extractLsb' lo n

/-- OP, bits [31:26] (R292). -/
def opOf (w : Word) : Nat := (field w 26 6).toNat

/-- The function code of formats F, bits [6:0] (R292). -/
def fnOf (w : Word) : Nat := (field w 0 7).toNat

/-- Whether an opcode accepts a PFX: LD, ST, 0x01 to 0x07, ADDI and CVT (R308). -/
def acceptsPfx (op : Nat) : Bool := (1 ≤ op && op ≤ 7) || op == 0x10 || op == 0x19 || op == 0x27 || op == 0x28

/-- Whether an opcode requires a PFX (R308). -/
def requiresPfx (op : Nat) : Bool :=
  op == 0x29 || op == 0x2A || op == 0x2C || op == 0x2E || op == 0x2F || op == 0x33

/-- The rows of OP 0x18 (R334, R335). -/
def decodeUna (w : Word) : Option Instr :=
  match fnOf w with
  | 0x00 => some (.mov (field w 22 4) (field w 21 1) (field w 14 7) (field w 7 7))
  | 0x01 => some (.not (field w 22 4) (field w 21 1) (field w 14 7) (field w 7 7))
  | 0x02 => some (.neg (field w 22 4) (field w 21 1) (field w 14 7) (field w 7 7))
  | 0x03 => some (.abs (field w 22 4) (field w 21 1) (field w 14 7) (field w 7 7))
  | 0x04 => some (.clz (field w 22 4) (field w 21 1) (field w 14 7) (field w 7 7))
  | 0x05 => some (.popc (field w 22 4) (field w 21 1) (field w 14 7) (field w 7 7))
  | 0x06 => some (.brev (field w 22 4) (field w 21 1) (field w 14 7) (field w 7 7))
  | 0x07 => some (.bswap (field w 22 4) (field w 21 1) (field w 14 7) (field w 7 7))
  | 0x08 => some (.cls (field w 22 4) (field w 21 1) (field w 14 7) (field w 7 7))
  | 0x09 => some (.ctz (field w 22 4) (field w 21 1) (field w 14 7) (field w 7 7))
  | 0x0A => some (.tagof (field w 22 4) (field w 21 1) (field w 14 7) (field w 7 7))
  | _ => if field w 4 3 = 1 then some (.retag (field w 22 4) (field w 21 1) (field w 14 7) (field w 7 7) (field w 0 4)) else none

/-- The rows of OP 0x1A (R360). -/
def decodeSfu (w : Word) : Option Instr :=
  match fnOf w with
  | 0x00 => some (.rcp (field w 22 4) (field w 21 1) (field w 14 7) (field w 7 7))
  | 0x01 => some (.rsq (field w 22 4) (field w 21 1) (field w 14 7) (field w 7 7))
  | 0x02 => some (.sqrt (field w 22 4) (field w 21 1) (field w 14 7) (field w 7 7))
  | 0x03 => some (.ex2 (field w 22 4) (field w 21 1) (field w 14 7) (field w 7 7))
  | 0x04 => some (.lg2 (field w 22 4) (field w 21 1) (field w 14 7) (field w 7 7))
  | 0x05 => some (.sin (field w 22 4) (field w 21 1) (field w 14 7) (field w 7 7))
  | 0x06 => some (.cos (field w 22 4) (field w 21 1) (field w 14 7) (field w 7 7))
  | 0x07 => some (.tanh (field w 22 4) (field w 21 1) (field w 14 7) (field w 7 7))
  | 0x08 => some (.sigm (field w 22 4) (field w 21 1) (field w 14 7) (field w 7 7))
  | _ => none

/-- The rows of OP 0x1B (R337, R339). -/
def decodePrd (w : Word) : Option Instr :=
  match fnOf w with
  | 0x00 => if field w 7 2 = 0 ∧ field w 21 1 = 0 then some (.pand (field w 22 4) (field w 17 4) (field w 13 4) (field w 9 4)) else none
  | 0x01 => if field w 7 2 = 0 ∧ field w 21 1 = 0 then some (.por (field w 22 4) (field w 17 4) (field w 13 4) (field w 9 4)) else none
  | 0x02 => if field w 7 2 = 0 ∧ field w 21 1 = 0 then some (.pxor (field w 22 4) (field w 17 4) (field w 13 4) (field w 9 4)) else none
  | 0x03 => if field w 7 2 = 0 ∧ field w 21 1 = 0 then some (.pandn (field w 22 4) (field w 17 4) (field w 13 4) (field w 9 4)) else none
  | 0x08 => if field w 7 2 = 0 ∧ field w 13 4 = 0 ∧ field w 21 1 = 0 then some (.vany (field w 22 4) (field w 17 4) (field w 9 4)) else none
  | 0x09 => if field w 7 2 = 0 ∧ field w 13 4 = 0 ∧ field w 21 1 = 0 then some (.vall (field w 22 4) (field w 17 4) (field w 9 4)) else none
  | 0x0A => if field w 7 2 = 0 ∧ field w 13 1 = 0 ∧ field w 21 1 = 0 then some (.vbal (field w 22 4) (field w 14 7) (field w 9 4)) else none
  | 0x0B => if field w 7 2 = 0 ∧ field w 13 4 = 0 ∧ field w 21 1 = 0 then some (.vuni (field w 22 4) (field w 17 4) (field w 9 4)) else none
  | 0x10 => if field w 7 7 = 0 ∧ field w 21 1 = 0 then some (.p2r (field w 22 4) (field w 14 7)) else none
  | 0x11 => if field w 14 7 = 0 then some (.setp (field w 22 4) (field w 21 1) (field w 7 7)) else none
  | _ => none

/-- The rows of OP 0x1E (R341). -/
def decodeRed (w : Word) : Option Instr :=
  match fnOf w with
  | 0x00 => some (.redAdd (field w 22 4) (field w 21 1) (field w 14 7) (field w 7 7))
  | 0x01 => some (.redMin (field w 22 4) (field w 21 1) (field w 14 7) (field w 7 7))
  | 0x02 => some (.redMax (field w 22 4) (field w 21 1) (field w 14 7) (field w 7 7))
  | 0x03 => some (.redAnd (field w 22 4) (field w 21 1) (field w 14 7) (field w 7 7))
  | 0x04 => some (.redOr (field w 22 4) (field w 21 1) (field w 14 7) (field w 7 7))
  | 0x05 => some (.redXor (field w 22 4) (field w 21 1) (field w 14 7) (field w 7 7))
  | 0x08 => some (.redScani (field w 22 4) (field w 21 1) (field w 14 7) (field w 7 7))
  | 0x09 => some (.redScanx (field w 22 4) (field w 21 1) (field w 14 7) (field w 7 7))
  | _ => none

/-- The rows of OP 0x22 (R346). -/
def decodeJmp (w : Word) : Option Instr :=
  match fnOf w with
  | 0x00 => if field w 14 7 = 0 then some (.jr (field w 22 4) (field w 21 1) (field w 7 7)) else none
  | 0x01 => if field w 14 7 = 0 then some (.jalr (field w 22 4) (field w 21 1) (field w 7 7)) else none
  | 0x02 => if field w 7 14 = 0 then some (.ret (field w 22 4) (field w 21 1)) else none
  | _ => none

/-- The rows of OP 0x24 (R348). -/
def decodeRdy (w : Word) : Option Instr :=
  match fnOf w with
  | 0x00 => if field w 7 14 = 0 then some (.rdy (field w 22 4) (field w 21 1)) else none
  | 0x01 => if field w 7 14 = 0 then some (.rdyW (field w 22 4) (field w 21 1)) else none
  | _ => none

/-- The rows of OP 0x25 (R342). -/
def decodeWnd (w : Word) : Option Instr :=
  if field w 14 7 = 0 then some (.wnd (field w 22 4) (field w 21 1) (field w 7 7) (field w 0 7)) else none

/-- The rows of OP 0x2B (R384). -/
def decodeFence (w : Word) : Option Instr :=
  if field w 5 16 = 0 then some (.fence (field w 22 4) (field w 21 1) (field w 3 2) (field w 0 3)) else none

/-- The rows of OP 0x2D (R407, R408). -/
def decodeMtx (w : Word) : Option Instr :=
  match fnOf w with
  | 0x00 => if field w 21 1 = 0 then some (.mtxZero (field w 22 4) (field w 14 7) (field w 7 7)) else none
  | 0x01 => some (.mtxLd (field w 22 4) (field w 21 1) (field w 14 7) (field w 7 7))
  | 0x02 => some (.mtxSt (field w 22 4) (field w 21 1) (field w 14 7) (field w 7 7))
  | 0x03 => some (.mtxRd (field w 22 4) (field w 21 1) (field w 14 7) (field w 7 7))
  | 0x04 => if field w 7 7 = 0 ∧ field w 21 1 = 0 then some (.mtxRel (field w 22 4) (field w 14 7)) else none
  | _ => none

/-- The rows of OP 0x30 (R416). -/
def decodeTray (w : Word) : Option Instr :=
  match fnOf w with
  | 0x00 => some (.trayCfg (field w 22 4) (field w 21 1) (field w 14 7) (field w 7 7))
  | 0x01 => some (.trayRel (field w 22 4) (field w 21 1) (field w 14 7) (field w 7 7))
  | 0x02 => some (.trayRsv (field w 22 4) (field w 21 1) (field w 14 7) (field w 7 7))
  | 0x03 => if field w 14 8 = 0 then some (.trayCommit (field w 22 4) (field w 7 7)) else none
  | 0x04 => some (.trayPop (field w 22 4) (field w 21 1) (field w 14 7) (field w 7 7))
  | 0x05 => if field w 14 8 = 0 then some (.trayDone (field w 22 4) (field w 7 7)) else none
  | 0x06 => some (.trayCnt (field w 22 4) (field w 21 1) (field w 14 7) (field w 7 7))
  | _ => none

/-- The rows of OP 0x31 (R417). -/
def decodeBar (w : Word) : Option Instr :=
  match (field w 0 4).toNat with
  | 0x00 => if field w 21 1 = 0 then some (.barInit (field w 22 4) (field w 14 7) (field w 7 7) (field w 4 3)) else none
  | 0x01 => if field w 7 7 = 0 ∧ field w 21 1 = 0 then some (.barArv (field w 22 4) (field w 14 7) (field w 4 3)) else none
  | 0x02 => some (.barArvb (field w 22 4) (field w 21 1) (field w 14 7) (field w 7 7) (field w 4 3))
  | 0x03 => if field w 7 7 = 0 then some (.barWait (field w 22 4) (field w 21 1) (field w 14 7) (field w 4 3)) else none
  | 0x04 => if field w 7 7 = 0 ∧ field w 21 1 = 0 then some (.barRel (field w 22 4) (field w 14 7) (field w 4 3)) else none
  | _ => none

/-- The rows of OP 0x32 (R415). -/
def decodeWait (w : Word) : Option Instr :=
  if field w 7 7 = 0 ∧ field w 17 5 = 0 then some (.wait (field w 22 4) (field w 14 3) (field w 0 7)) else none

/-- The rows of OP 0x34 (R420). -/
def decodeChit (w : Word) : Option Instr :=
  match fnOf w with
  | 0x00 => if field w 14 8 = 0 then some (.chitAwait (field w 22 4) (field w 7 7)) else none
  | 0x01 => some (.chitTest (field w 22 4) (field w 21 1) (field w 14 7) (field w 7 7))
  | 0x02 => if field w 14 8 = 0 then some (.chitFree (field w 22 4) (field w 7 7)) else none
  | 0x03 => some (.chitSlot (field w 22 4) (field w 21 1) (field w 14 7) (field w 7 7))
  | _ => none

/-- The rows of OP 0x35 (R422). -/
def decodePool (w : Word) : Option Instr :=
  match fnOf w with
  | 0x00 => some (.poolScr (field w 22 4) (field w 21 1) (field w 14 7) (field w 7 7))
  | 0x01 => some (.poolMxs (field w 22 4) (field w 21 1) (field w 14 7) (field w 7 7))
  | _ => none

/-- The rows of OP 0x36 (R423). -/
def decodeWmon (w : Word) : Option Instr :=
  match fnOf w with
  | 0x00 => some (.wmonCfg (field w 22 4) (field w 21 1) (field w 14 7) (field w 7 7))
  | 0x01 => some (.wmonRel (field w 22 4) (field w 21 1) (field w 14 7) (field w 7 7))
  | 0x02 => some (.wmonRdlo (field w 22 4) (field w 21 1) (field w 14 7) (field w 7 7))
  | 0x03 => some (.wmonRdhi (field w 22 4) (field w 21 1) (field w 14 7) (field w 7 7))
  | _ => none

/-- The rows of OP 0x37 (R431). -/
def decodeMfs (w : Word) : Option Instr :=
  if field w 7 7 = 0 then some (.mfs (field w 22 4) (field w 21 1) (field w 14 7) (field w 0 7)) else none

/-- The rows of OP 0x38 (R432). -/
def decodeMts (w : Word) : Option Instr :=
  if field w 14 7 = 0 then some (.mts (field w 22 4) (field w 21 1) (field w 7 7) (field w 0 7)) else none

/-- The rows of OP 0x3A (R184, R251, R426, R427, R428, R429, R430). -/
def decodeSys (w : Word) : Option Instr :=
  match fnOf w with
  | 0x00 => if field w 7 14 = 0 then some (.exit (field w 22 4) (field w 21 1)) else none
  | 0x01 => if field w 14 7 = 0 then some (.brk (field w 22 4) (field w 21 1) (field w 7 7)) else none
  | 0x02 => if field w 7 14 = 0 then some (.resume (field w 22 4) (field w 21 1)) else none
  | 0x03 => if field w 7 14 = 0 then some (.fail (field w 22 4) (field w 21 1)) else none
  | 0x04 => some (.refq (field w 22 4) (field w 21 1) (field w 14 7) (field w 7 7))
  | 0x05 => some (.locq (field w 22 4) (field w 21 1) (field w 14 7) (field w 7 7))
  | 0x06 => if field w 7 7 = 0 then some (.time (field w 22 4) (field w 21 1) (field w 14 7)) else none
  | 0x07 => some (.place (field w 22 4) (field w 21 1) (field w 14 7) (field w 7 7))
  | 0x08 => some (.mload (field w 22 4) (field w 21 1) (field w 14 7) (field w 7 7))
  | _ => none

/-- The rows of OP 0x3B (R424). -/
def decodeTsr (w : Word) : Option Instr :=
  match fnOf w with
  | 0x00 => if field w 14 7 = 0 then some (.tsrOpen (field w 22 4) (field w 21 1) (field w 7 7)) else none
  | 0x01 => if field w 14 7 = 0 then some (.tsrClose (field w 22 4) (field w 21 1) (field w 7 7)) else none
  | _ => none

/-- The row of a word that stands without a required PFX; `pfx` is the payload of an accepted one (R312). -/
def decodeRow (pfx : Option (BitVec 26)) (w : Word) : Option Instr :=
  match opOf w with
  | 0x00 => some (.ill (field w 0 26))
  | 0x01 => some (.add pfx (field w 22 4) (field w 21 1) (field w 14 7) (field w 7 7) (field w 0 7))
  | 0x02 => some (.sub pfx (field w 22 4) (field w 21 1) (field w 14 7) (field w 7 7) (field w 0 7))
  | 0x03 => some (.mul pfx (field w 22 4) (field w 21 1) (field w 14 7) (field w 7 7) (field w 0 7))
  | 0x04 => some (.mulh pfx (field w 22 4) (field w 21 1) (field w 14 7) (field w 7 7) (field w 0 7))
  | 0x05 => some (.fma pfx (field w 22 4) (field w 21 1) (field w 14 7) (field w 7 7) (field w 0 7))
  | 0x06 => some (.fms pfx (field w 22 4) (field w 21 1) (field w 14 7) (field w 7 7) (field w 0 7))
  | 0x07 => some (.dot pfx (field w 22 4) (field w 21 1) (field w 14 7) (field w 7 7) (field w 0 7))
  | 0x08 => some (.min (field w 22 4) (field w 21 1) (field w 14 7) (field w 7 7) (field w 0 7))
  | 0x09 => some (.max (field w 22 4) (field w 21 1) (field w 14 7) (field w 7 7) (field w 0 7))
  | 0x0A => some (.and (field w 22 4) (field w 21 1) (field w 14 7) (field w 7 7) (field w 0 7))
  | 0x0B => some (.or (field w 22 4) (field w 21 1) (field w 14 7) (field w 7 7) (field w 0 7))
  | 0x0C => some (.xor (field w 22 4) (field w 21 1) (field w 14 7) (field w 7 7) (field w 0 7))
  | 0x0D => some (.andn (field w 22 4) (field w 21 1) (field w 14 7) (field w 7 7) (field w 0 7))
  | 0x0E => some (.shl (field w 22 4) (field w 21 1) (field w 14 7) (field w 7 7) (field w 0 7))
  | 0x0F => some (.shr (field w 22 4) (field w 21 1) (field w 14 7) (field w 7 7) (field w 0 7))
  | 0x10 => some (.addi pfx (field w 22 4) (field w 21 1) (field w 14 7) (field w 7 7) (field w 0 7))
  | 0x11 => some (.shli (field w 22 4) (field w 21 1) (field w 14 7) (field w 7 7) (field w 0 7))
  | 0x12 => some (.shri (field w 22 4) (field w 21 1) (field w 14 7) (field w 7 7) (field w 0 7))
  | 0x13 => some (.andi (field w 22 4) (field w 21 1) (field w 14 7) (field w 7 7) (field w 0 7))
  | 0x14 => some (.movi (field w 19 7) (field w 0 19))
  | 0x15 => some (.movh (field w 19 7) (field w 0 19))
  | 0x16 => some (.cmp (field w 22 4) (field w 21 1) (field w 18 3) (field w 14 4) (field w 7 7) (field w 0 7))
  | 0x17 => some (.cmpi (field w 22 4) (field w 21 1) (field w 18 3) (field w 14 4) (field w 7 7) (field w 0 7))
  | 0x18 => decodeUna w
  | 0x19 => some (.cvt pfx (field w 22 4) (field w 21 1) (field w 14 7) (field w 7 7) (field w 3 4) (field w 0 3))
  | 0x1A => decodeSfu w
  | 0x1B => decodePrd w
  | 0x1C => some (.shfl (field w 22 4) (field w 21 1) (field w 14 7) (field w 7 7) (field w 0 7))
  | 0x1D => some (.shfi (field w 22 4) (field w 21 1) (field w 14 7) (field w 7 7) (field w 0 7))
  | 0x1E => decodeRed w
  | 0x1F => some (.sel (field w 22 4) (field w 21 1) (field w 14 7) (field w 7 7) (field w 0 7))
  | 0x20 => some (.bra (field w 22 4) (field w 0 22))
  | 0x21 => some (.call (field w 22 4) (field w 0 22))
  | 0x22 => decodeJmp w
  | 0x23 => some (.join (field w 22 4) (field w 0 22))
  | 0x24 => decodeRdy w
  | 0x25 => decodeWnd w
  | 0x26 => some (.mcall (field w 21 5) (field w 14 7) (field w 7 7) (field w 0 7))
  | 0x27 => some (.ld pfx (field w 22 4) (field w 21 1) (field w 14 7) (field w 7 7) (field w 5 2) (field w 3 2) (field w 0 3))
  | 0x28 => some (.st pfx (field w 22 4) (field w 21 1) (field w 14 7) (field w 7 7) (field w 5 2) (field w 3 2) (field w 0 3))
  | 0x2B => decodeFence w
  | 0x2D => decodeMtx w
  | 0x30 => decodeTray w
  | 0x31 => decodeBar w
  | 0x32 => decodeWait w
  | 0x34 => decodeChit w
  | 0x35 => decodePool w
  | 0x36 => decodeWmon w
  | 0x37 => decodeMfs w
  | 0x38 => decodeMts w
  | 0x39 => some (.trap (field w 22 4) (field w 0 22))
  | 0x3A => decodeSys w
  | 0x3B => decodeTsr w
  | 0x3C => some (.opReserved (field w 26 1) (field w 0 26))
  | 0x3D => some (.opReserved (field w 26 1) (field w 0 26))
  | _ => none

/-- The row of a word whose opcode requires the PFX it follows (R308). -/
def decodePair (pfx : BitVec 26) (w : Word) : Option Instr :=
  match opOf w with
  | 0x29 => some (.atom pfx (field w 22 4) (field w 21 1) (field w 14 7) (field w 7 7) (field w 0 7))
  | 0x2A => some (.cas pfx (field w 22 4) (field w 21 1) (field w 14 7) (field w 7 7) (field w 0 7))
  | 0x2C => some (.mma pfx (field w 22 4) (field w 21 1) (field w 14 7) (field w 7 7) (field w 0 7))
  | 0x2E => some (.cpy pfx (field w 22 4) (field w 21 1) (field w 14 7) (field w 7 7) (field w 0 7))
  | 0x2F => some (.gth pfx (field w 22 4) (field w 21 1) (field w 14 7) (field w 7 7) (field w 0 7))
  | 0x33 => some (.invk pfx (field w 22 4) (field w 21 1) (field w 14 7) (field w 7 7) (field w 0 7))
  | _ => none

/-- The instruction that a word makes with the PFX payload before it, if any. -/
def decodeWord (pfx : Option (BitVec 26)) (w : Word) : Except NotDecoded Instr :=
  match pfx with
  | none =>
    if opOf w = 0x3F then .error .trailer
    else if requiresPfx (opOf w) then .error .needsPfx
    else match decodeRow none w with
      | some i => .ok i
      | none => .error .reserved
  | some p =>
    if requiresPfx (opOf w) then
      match decodePair p w with
      | some i => .ok i
      | none => .error .reserved
    else if acceptsPfx (opOf w) then
      match decodeRow (some p) w with
      | some i => .ok i
      | none => .error .reserved
    else .error .badPfx

/-- The first instruction of a list of words, and how many words it took. -/
def decodeWords : List Word → Except NotDecoded (Instr × Nat)
  | [] => .error .noWords
  | w :: rest =>
    if opOf w = 0x3E then
      match rest with
      | [] => .error .lonePfx
      | v :: _ =>
        match decodeWord (some (field w 0 26)) v with
        | .ok i => .ok (i, 2)
        | .error e => .error e
    else
      match decodeWord none w with
      | .ok i => .ok (i, 1)
      | .error e => .error e

/-- Four bytes as a word, the first byte lowest (R3). -/
def wordOfBytes (b0 b1 b2 b3 : Byte) : Word := b3 ++ b2 ++ b1 ++ b0

/-- Whole words of a byte list, little-endian; a remainder of fewer than four bytes is no word (R292). -/
def wordsOfBytes : List Byte → List Word
  | b0 :: b1 :: b2 :: b3 :: t => wordOfBytes b0 b1 b2 b3 :: wordsOfBytes t
  | _ => []

/-- The decoder on bytes, total on any of them. -/
def decodeBytes (bs : List Byte) : Except NotDecoded (Instr × Nat) := decodeWords (wordsOfBytes bs)

/-- The bytes of a word, lowest first (R3). -/
def bytesOfWord (w : Word) : List Byte :=
  [w.extractLsb' 0 8, w.extractLsb' 8 8, w.extractLsb' 16 8, w.extractLsb' 24 8]

/-- The instruction of a row's bits as the opcode table numbers them: the first word is the low 32 bits, and every bit
above `nbits` is zero. -/
def decodeTableWord (nbits w : Nat) : Option Instr :=
  let v : BitVec 64 := BitVec.ofNat 64 (w % 2 ^ nbits)
  match decodeBytes (bytesOfWord (v.extractLsb' 0 32) ++ bytesOfWord (v.extractLsb' 32 32)) with
  | .ok (i, _) => some i
  | .error _ => none

/-! ## The encoder -/

/-- Format A, and formats F and K with their low seven bits (R292). -/
def packA (op : BitVec 6) (g : BitVec 4) (h : BitVec 1) (d a b : BitVec 7) : Word := op ++ g ++ h ++ d ++ a ++ b

/-- Format L (R292). -/
def packL (op : BitVec 6) (d : BitVec 7) (i : BitVec 19) : Word := op ++ d ++ i

/-- Format J (R292). -/
def packJ (op : BitVec 6) (g : BitVec 4) (d : BitVec 22) : Word := op ++ g ++ d

/-- Format M (R292). -/
def packM (op : BitVec 6) (x : BitVec 5) (d a b : BitVec 7) : Word := op ++ x ++ d ++ a ++ b

/-- A word of an opcode whose other bits are one field (R292, R312). -/
def packX (op : BitVec 6) (x : BitVec 26) : Word := op ++ x

/-- The predicate form of format F: three 4-bit predicate numbers in [20:9] and FN in [8:0] (R336). -/
def packP (g p q r : BitVec 4) (fn : BitVec 9) : Word := 0x1B#6 ++ g ++ 0#1 ++ p ++ q ++ r ++ fn

/-- The PFX word of a payload (R308). -/
def pfxWord (p : BitVec 26) : Word := packX 0x3E#6 p

/-- An accepted PFX before its instruction word. -/
def withPfx (pfx : Option (BitVec 26)) (w : Word) : List Word :=
  match pfx with
  | none => [w]
  | some p => [pfxWord p, w]

/-- The words of an instruction; a step of the part without an encoding has none. -/
def encode : Instr → List Word
  | .coldReset => []
  | .rstctlWarm _ => []
  | .powerPhaseDone _ _ => []
  | .romPhaseDone _ => []
  | .configPhaseDone => []
  | .linksPhaseDone _ => []
  | .memoryPhaseDone _ => []
  | .managersPhaseDone => []
  | .phaseBoundExpiry _ => []
  | .pcieConfigRequest _ => []
  | .rcvctlGo _ => []
  | .recoveryCheckDone => []
  | .sensorSample _ _ _ _ => []
  | .dutyRestoreStep _ => []
  | .undervoltTimeout => []
  | .routerForward _ _ => []
  | .linkPacketReceive _ _ => []
  | .lack => []
  | .lnak => []
  | .lackTimer _ => []
  | .replayTimeout _ => []
  | .linkRetrained _ => []
  | .retrainTimeout _ => []
  | .dieCacheAccess => []
  | .gets => []
  | .getx => []
  | .getr => []
  | .tokd => []
  | .tokn => []
  | .datr => []
  | .rmis => []
  | .dloss => []
  | .holdoffExpiry _ _ => []
  | .missReissue _ _ => []
  | .preqRaise _ _ => []
  | .preq => []
  | .pact => []
  | .pdone => []
  | .pdeact => []
  | .pack => []
  | .mendStartTimeout _ => []
  | .lost => []
  | .mend => []
  | .mret => []
  | .mendWindowTimeout _ => []
  | .mdone => []
  | .brdq => []
  | .brdr => []
  | .eprq => []
  | .eprs => []
  | .nxrq => []
  | .nxrs => []
  | .ochk => []
  | .ocnf => []
  | .evnt => []
  | .eventDeliver _ => []
  | .nmodWrite _ => []
  | .nctlEnSet => []
  | .nctlEnClear => []
  | .npmapWrite _ => []
  | .nimcorPortTrained _ _ _ => []
  | .planeFail _ => []
  | .npmapAdopt _ => []
  | .rsynResend _ _ => []
  | .rauSend _ _ => []
  | .remoteTimeout _ _ => []
  | .rrd _ _ => []
  | .rwr _ _ => []
  | .ratm _ _ => []
  | .rcas _ _ => []
  | .rflg _ _ => []
  | .rnfl _ _ => []
  | .rsyn _ _ => []
  | .rrsp _ _ => []
  | .rack _ _ => []
  | .rars _ _ => []
  | .rfak _ _ => []
  | .rnak _ _ => []
  | .flagResend _ _ => []
  | .cinv _ _ => []
  | .ctsk _ _ => []
  | .cloc _ _ => []
  | .cres _ _ => []
  | .cfre _ _ => []
  | .cack _ _ => []
  | .chitReserveRefill _ _ => []
  | .hostMemRead _ _ _ => []
  | .hostMemWrite _ _ _ _ => []
  | .hostAtomicop _ _ _ _ _ _ => []
  | .birsp _ _ _ => []
  | .hostSnoopTimeout _ _ => []
  | .hostSnoop _ _ _ => []
  | .cxlCacheCompletion _ _ _ => []
  | .fmbWrite _ _ => []
  | .hmbEnable _ => []
  | .hmbDoorbell _ => []
  | .hmbReplyConsume _ => []
  | .replyWrite => []
  | .ping => []
  | .regrd => []
  | .regwr => []
  | .unmap => []
  | .rdrop => []
  | .lostclr => []
  | .dieoff => []
  | .dieDrainDone _ _ => []
  | .dieon => []
  | .memoryDieRestoreDone _ => []
  | .evpost => []
  | .mext => []
  | .attest => []
  | .ownkey => []
  | .endpointBadtype => []
  | .ertdatWrite _ => []
  | .evringWrite _ _ => []
  | .queueEnable _ _ _ => []
  | .queueDisable _ _ _ => []
  | .qcfgErrcClear _ _ _ => []
  | .recordAccept _ _ => []
  | .hwPush _ _ => []
  | .batchSend => []
  | .freeReport _ => []
  | .placeItem _ => []
  | .priorityPromote _ _ => []
  | .pereqSubmit _ _ => []
  | .preemptStart _ => []
  | .bundleSave _ _ => []
  | .saveDone _ _ => []
  | .preemptTimeout _ => []
  | .reservationLapse _ _ => []
  | .groupForm _ _ _ _ => []
  | .runFetchDone _ _ _ _ _ => []
  | .runEnd _ _ _ _ _ => []
  | .haltBroadcast _ _ => []
  | .haltForceTimeout _ _ => []
  | .dumpWrite _ => []
  | .wringDone _ _ => []
  | .walkDone _ _ => []
  | .fresRetry _ _ => []
  | .fresDeliver _ _ => []
  | .wsctlWreqSet _ => []
  | .wsctlWreqClear _ => []
  | .weightStoreFill _ _ _ _ => []
  | .refreshWindowEnd _ _ => []
  | .asrhWrite _ _ _ => []
  | .asrlWrite _ _ _ => []
  | .dbcEnWrite _ _ _ => []
  | .dbsBrkClear _ _ => []
  | .copyDone => []
  | .copyFault _ _ => []
  | .gatherDone => []
  | .engineSlotCommit => []
  | .sfuResult => []
  | .mmaCommit => []
  | .mtxTransferDone => []
  | .gangArrive _ _ _ _ => []
  | .multicastWindow _ _ _ => []
  | .joinReleaseTimeout _ _ _ _ _ => []
  | .watchdogExpiry _ _ _ _ _ => []
  | .debugStopSet _ _ => []
  | .smpctlWrite _ _ => []
  | .sampleTick _ _ => []
  | .periodLogWrite _ => []
  | .tileStampWrite _ _ _ _ => []
  | .regWrite _ _ _ => []
  | .ill x => [packX 0x00#6 x]
  | .opReserved o x => [packX (0x1E#5 ++ o) x]
  | .add pfx g h d a b => withPfx pfx (packA 0x01#6 g h d a b)
  | .sub pfx g h d a b => withPfx pfx (packA 0x02#6 g h d a b)
  | .mul pfx g h d a b => withPfx pfx (packA 0x03#6 g h d a b)
  | .mulh pfx g h d a b => withPfx pfx (packA 0x04#6 g h d a b)
  | .fma pfx g h d a b => withPfx pfx (packA 0x05#6 g h d a b)
  | .fms pfx g h d a b => withPfx pfx (packA 0x06#6 g h d a b)
  | .dot pfx g h d a b => withPfx pfx (packA 0x07#6 g h d a b)
  | .min g h d a b => [packA 0x08#6 g h d a b]
  | .max g h d a b => [packA 0x09#6 g h d a b]
  | .and g h d a b => [packA 0x0A#6 g h d a b]
  | .or g h d a b => [packA 0x0B#6 g h d a b]
  | .xor g h d a b => [packA 0x0C#6 g h d a b]
  | .andn g h d a b => [packA 0x0D#6 g h d a b]
  | .shl g h d a b => [packA 0x0E#6 g h d a b]
  | .shr g h d a b => [packA 0x0F#6 g h d a b]
  | .addi pfx g h d a i => withPfx pfx (packA 0x10#6 g h d a i)
  | .shli g h d a i => [packA 0x11#6 g h d a i]
  | .shri g h d a i => [packA 0x12#6 g h d a i]
  | .andi g h d a i => [packA 0x13#6 g h d a i]
  | .movi d i => [packL 0x14#6 d i]
  | .movh d i => [packL 0x15#6 d i]
  | .cmp g h i c a b => [packA 0x16#6 g h (i ++ c) a b]
  | .cmpi g h i c a m => [packA 0x17#6 g h (i ++ c) a m]
  | .mov g h d a => [packA 0x18#6 g h d a 0#7]
  | .not g h d a => [packA 0x18#6 g h d a 1#7]
  | .neg g h d a => [packA 0x18#6 g h d a 2#7]
  | .abs g h d a => [packA 0x18#6 g h d a 3#7]
  | .clz g h d a => [packA 0x18#6 g h d a 4#7]
  | .popc g h d a => [packA 0x18#6 g h d a 5#7]
  | .brev g h d a => [packA 0x18#6 g h d a 6#7]
  | .bswap g h d a => [packA 0x18#6 g h d a 7#7]
  | .cls g h d a => [packA 0x18#6 g h d a 8#7]
  | .ctz g h d a => [packA 0x18#6 g h d a 9#7]
  | .tagof g h d a => [packA 0x18#6 g h d a 10#7]
  | .retag g h d a t => [packA 0x18#6 g h d a (1#3 ++ t)]
  | .cvt pfx g h d a t r => withPfx pfx (packA 0x19#6 g h d a (t ++ r))
  | .rcp g h d a => [packA 0x1A#6 g h d a 0#7]
  | .rsq g h d a => [packA 0x1A#6 g h d a 1#7]
  | .sqrt g h d a => [packA 0x1A#6 g h d a 2#7]
  | .ex2 g h d a => [packA 0x1A#6 g h d a 3#7]
  | .lg2 g h d a => [packA 0x1A#6 g h d a 4#7]
  | .sin g h d a => [packA 0x1A#6 g h d a 5#7]
  | .cos g h d a => [packA 0x1A#6 g h d a 6#7]
  | .tanh g h d a => [packA 0x1A#6 g h d a 7#7]
  | .sigm g h d a => [packA 0x1A#6 g h d a 8#7]
  | .pand g p q r => [packP g p q r 0#9]
  | .por g p q r => [packP g p q r 1#9]
  | .pxor g p q r => [packP g p q r 2#9]
  | .pandn g p q r => [packP g p q r 3#9]
  | .vany g p a => [packP g p 0#4 a 8#9]
  | .vall g p a => [packP g p 0#4 a 9#9]
  | .vbal g d a => [packA 0x1B#6 g 0#1 d (0#1 ++ a ++ 0#2) 10#7]
  | .vuni g p a => [packP g p 0#4 a 11#9]
  | .p2r g d => [packA 0x1B#6 g 0#1 d 0#7 16#7]
  | .setp g h a => [packA 0x1B#6 g h 0#7 a 17#7]
  | .shfl g h d a b => [packA 0x1C#6 g h d a b]
  | .shfi g h d a i => [packA 0x1D#6 g h d a i]
  | .redAdd g h d a => [packA 0x1E#6 g h d a 0#7]
  | .redMin g h d a => [packA 0x1E#6 g h d a 1#7]
  | .redMax g h d a => [packA 0x1E#6 g h d a 2#7]
  | .redAnd g h d a => [packA 0x1E#6 g h d a 3#7]
  | .redOr g h d a => [packA 0x1E#6 g h d a 4#7]
  | .redXor g h d a => [packA 0x1E#6 g h d a 5#7]
  | .redScani g h d a => [packA 0x1E#6 g h d a 8#7]
  | .redScanx g h d a => [packA 0x1E#6 g h d a 9#7]
  | .sel g h d a b => [packA 0x1F#6 g h d a b]
  | .bra g d => [packJ 0x20#6 g d]
  | .call g d => [packJ 0x21#6 g d]
  | .jr g h a => [packA 0x22#6 g h 0#7 a 0#7]
  | .jalr g h a => [packA 0x22#6 g h 0#7 a 1#7]
  | .ret g h => [packA 0x22#6 g h 0#7 0#7 2#7]
  | .join g d => [packJ 0x23#6 g d]
  | .rdy g h => [packA 0x24#6 g h 0#7 0#7 0#7]
  | .rdyW g h => [packA 0x24#6 g h 0#7 0#7 1#7]
  | .wnd g h a i => [packA 0x25#6 g h 0#7 a i]
  | .mcall x d a b => [packM 0x26#6 x d a b]
  | .ld pfx g s d a s2 o c => withPfx pfx (packA 0x27#6 g s d a (s2 ++ o ++ c))
  | .st pfx g s d a s2 o c => withPfx pfx (packA 0x28#6 g s d a (s2 ++ o ++ c))
  | .atom pfx g h d a b => [pfxWord pfx, packA 0x29#6 g h d a b]
  | .cas pfx g h d a b => [pfxWord pfx, packA 0x2A#6 g h d a b]
  | .fence g h o c => [packA 0x2B#6 g h 0#7 0#7 (0#2 ++ o ++ c)]
  | .mma pfx g h d a b => [pfxWord pfx, packA 0x2C#6 g h d a b]
  | .mtxZero g d a => [packA 0x2D#6 g 0#1 d a 0#7]
  | .mtxLd g h d a => [packA 0x2D#6 g h d a 1#7]
  | .mtxSt g h d a => [packA 0x2D#6 g h d a 2#7]
  | .mtxRd g h d a => [packA 0x2D#6 g h d a 3#7]
  | .mtxRel g d => [packA 0x2D#6 g 0#1 d 0#7 4#7]
  | .cpy pfx g h d a b => [pfxWord pfx, packA 0x2E#6 g h d a b]
  | .gth pfx g h d a b => [pfxWord pfx, packA 0x2F#6 g h d a b]
  | .trayCfg g h d a => [packA 0x30#6 g h d a 0#7]
  | .trayRel g h d a => [packA 0x30#6 g h d a 1#7]
  | .trayRsv g h d a => [packA 0x30#6 g h d a 2#7]
  | .trayCommit g a => [packA 0x30#6 g 0#1 0#7 a 3#7]
  | .trayPop g h d a => [packA 0x30#6 g h d a 4#7]
  | .trayDone g a => [packA 0x30#6 g 0#1 0#7 a 5#7]
  | .trayCnt g h d a => [packA 0x30#6 g h d a 6#7]
  | .barInit g s a l => [packA 0x31#6 g 0#1 s a (l ++ 0#4)]
  | .barArv g s l => [packA 0x31#6 g 0#1 s 0#7 (l ++ 1#4)]
  | .barArvb g h s a l => [packA 0x31#6 g h s a (l ++ 2#4)]
  | .barWait g h s l => [packA 0x31#6 g h s 0#7 (l ++ 3#4)]
  | .barRel g s l => [packA 0x31#6 g 0#1 s 0#7 (l ++ 4#4)]
  | .wait g k n => [packA 0x32#6 g 0#1 (0#4 ++ k) 0#7 n]
  | .invk pfx g h d a b => [pfxWord pfx, packA 0x33#6 g h d a b]
  | .chitAwait g a => [packA 0x34#6 g 0#1 0#7 a 0#7]
  | .chitTest g h d a => [packA 0x34#6 g h d a 1#7]
  | .chitFree g a => [packA 0x34#6 g 0#1 0#7 a 2#7]
  | .chitSlot g h d a => [packA 0x34#6 g h d a 3#7]
  | .poolScr g h d a => [packA 0x35#6 g h d a 0#7]
  | .poolMxs g h d a => [packA 0x35#6 g h d a 1#7]
  | .wmonCfg g h d a => [packA 0x36#6 g h d a 0#7]
  | .wmonRel g h d a => [packA 0x36#6 g h d a 1#7]
  | .wmonRdlo g h d a => [packA 0x36#6 g h d a 2#7]
  | .wmonRdhi g h d a => [packA 0x36#6 g h d a 3#7]
  | .mfs g n d n2 => [packA 0x37#6 g n d 0#7 n2]
  | .mts g n a n2 => [packA 0x38#6 g n 0#7 a n2]
  | .trap g c => [packJ 0x39#6 g c]
  | .exit g h => [packA 0x3A#6 g h 0#7 0#7 0#7]
  | .brk g h a => [packA 0x3A#6 g h 0#7 a 1#7]
  | .resume g h => [packA 0x3A#6 g h 0#7 0#7 2#7]
  | .fail g h => [packA 0x3A#6 g h 0#7 0#7 3#7]
  | .refq g h d a => [packA 0x3A#6 g h d a 4#7]
  | .locq g h d a => [packA 0x3A#6 g h d a 5#7]
  | .time g h d => [packA 0x3A#6 g h d 0#7 6#7]
  | .place g h d a => [packA 0x3A#6 g h d a 7#7]
  | .mload g h d a => [packA 0x3A#6 g h d a 8#7]
  | .tsrOpen g h a => [packA 0x3B#6 g h 0#7 a 0#7]
  | .tsrClose g h a => [packA 0x3B#6 g h 0#7 a 1#7]
  | .pendingRegisterWrite => []
  | .contextRestoreDone _ _ => []
  | .pcieLinkUp _ _ => []
  | .serviceRequest _ _ => []
  | .ethernetFrameReceive _ _ _ _ => []

end Sys2Proof
end

