-- ==== Sys2Proof/Machine/Checks.lean ====
section
/-! DEFINITION. The class 00 checks that an instruction's own fields decide (R294, R309, R310, R313 to R318, R378, R394,
R413, R418), and what the placement rules of R307 need to know of an instruction: whether it is a control transfer, blocking
or non-idempotent, and which register fields it names. -/

namespace Sys2Proof.Machine

/-- The lowest subcode whose condition holds, in the order of the list. -/
def firstCode : List (Bool × Nat) → Option Nat
  | [] => none
  | (true, n) :: _ => some n
  | (false, _) :: t => firstCode t

/-- A register field as a number. -/
abbrev fld (f : BitVec 7) : Nat := f.toNat

/-- A source field that names nil (R294). -/
def badSrc (f : BitVec 7) : Bool := f == 127

/-- A destination field that names one of 120 to 126 (R294). -/
def badDst (f : BitVec 7) : Bool := decide (120 ≤ fld f) && decide (fld f ≤ 126)

/-- A destination pair whose field is odd (R294); nil discards any width. -/
def oddPair (f : BitVec 7) : Bool := f != 127 && f.getLsbD 0

/-- A destination of LD, ATOM or CAS that names a temporary or one of 120 to 126 (R368). -/
def badVarDst (f : BitVec 7) : Bool := decide (112 ≤ fld f) && decide (fld f ≤ 126)

/-- RM of an arithmetic PFX (R310). -/
def pfxRm (p : BitVec 26) : BitVec 3 := p.extractLsb' 0 3
/-- SAT of an arithmetic PFX (R310). -/
def pfxSat (p : BitVec 26) : Bool := p.getLsbD 3
/-- SV of an arithmetic PFX (R310). -/
def pfxSv (p : BitVec 26) : Bool := p.getLsbD 4
/-- SEED of an arithmetic PFX (R310). -/
def pfxSeed (p : BitVec 26) : BitVec 7 := p.extractLsb' 5 7
/-- The zero field of an arithmetic PFX (R310). -/
def pfxZero (p : BitVec 26) : BitVec 14 := p.extractLsb' 12 14

/-- The payload of an accepted PFX, zero where none stands: RM RNE, SAT 0 (R310). -/
def payload (pfx : Option (BitVec 26)) : BitVec 26 := pfx.getD 0

/-- The checks of an arithmetic PFX on anything but CVT (R310). -/
def arithPfx (p : BitVec 26) : List (Bool × Nat) :=
  [(pfxSv p || pfxSeed p != 0 || pfxZero p != 0, 8), (decide ((pfxRm p).toNat ≥ 5), 0x15)]

/-- A three-register form: D a destination, A and B sources. -/
def formDAB (d a b : BitVec 7) : List (Bool × Nat) := [(badDst d || badSrc a || badSrc b, 5)]

/-- A two-register form. -/
def formDA (d a : BitVec 7) : List (Bool × Nat) := [(badDst d || badSrc a, 5)]

/-- Whether a tag code takes a pair (R272). -/
def pairCode (t : BitVec 4) : Bool := t == 4 || t == 5 || t == 6

/-- F8 of LD and ST: SZ from bits 21 and [6:5] (R315). -/
def szOf (s : BitVec 1) (s2 : BitVec 2) : Nat := (s ++ s2).toNat

/-- The form field of a memory PFX (R309). -/
def memForm (p : BitVec 26) : Nat := (p.extractLsb' 24 2).toNat
/-- TAG of a memory PFX of the tag form (R309). -/
def memTag (p : BitVec 26) : BitVec 4 := p.extractLsb' 20 4

/-- The signed byte offset of a memory PFX (R309). -/
def memOff (p : BitVec 26) : BitVec 64 :=
  match memForm p with
  | 2 => (p.extractLsb' 0 20).signExtend 64
  | 3 => (p.extractLsb' 0 22).signExtend 64
  | _ => (p.extractLsb' 0 24).signExtend 64

/-- The hint of a memory PFX, if it gives one (R309, R371). -/
def memHint (p : BitVec 26) : Option (BitVec 2) := if memForm p = 3 then some (p.extractLsb' 22 2) else none

/-- The checks of LD (R309, R315, R367, R368, R200). -/
def ldChecks (p : BitVec 26) (sz : Nat) (o : BitVec 2) (c : BitVec 3) (d a : BitVec 7) : List (Bool × Nat) :=
  [(sz == 7, 3),
   (badVarDst d || badSrc a || (sz == 5 && oddPair d) || (sz == 6 && d != 127 && d.extractLsb' 0 2 != 0), 5),
   (memForm p == 1 || (memForm p == 2 && (decide (sz < 4) || memTag p == 15 || (sz == 4 && pairCode (memTag p)))), 8),
   (!((o == 0 && c == 0) || (o == 1 && c != 0)), 0x11)]

/-- The checks of ST (R309, R315, R369, R370, R200). -/
def stChecks (p : BitVec 26) (sz : Nat) (o : BitVec 2) (c : BitVec 3) (d a : BitVec 7) : List (Bool × Nat) :=
  [(sz == 1 || sz == 3 || sz == 7, 3), (badSrc d || badSrc a, 5),
   (memForm p == 2 || (memForm p == 1 && sz == 6), 8),
   (!((o == 0 && c == 0) || (o == 2 && c != 0)), 0x11)]

/-- OPN of the PFX of ATOM (R378). -/
def atomOpn (p : BitVec 26) : Nat := (p.extractLsb' 0 4).toNat
/-- ORD of the PFX of ATOM and CAS (R378). -/
def atomOrd (p : BitVec 26) : BitVec 2 := p.extractLsb' 4 2
/-- SC of the PFX of ATOM and CAS (R378). -/
def atomSc (p : BitVec 26) : BitVec 3 := p.extractLsb' 6 3
/-- RCL of the PFX of ATOM and CAS (R378). -/
def atomRcl (p : BitVec 26) : BitVec 2 := p.extractLsb' 9 2
/-- RV of the PFX of ATOM and CAS (R378). -/
def atomRv (p : BitVec 26) : Bool := p.getLsbD 11
/-- OFF of the PFX of ATOM and CAS, sign-extended (R378). -/
def atomOff (p : BitVec 26) : BitVec 64 := (p.extractLsb' 12 12).signExtend 64
/-- Q of the PFX of ATOM and CAS (R378). -/
def atomQ (p : BitVec 26) : Bool := p.getLsbD 24

/-- The payload checks that ATOM and CAS share (R378, R200). -/
def atomPfx (p : BitVec 26) : List (Bool × Nat) :=
  [(p.getLsbD 25 || (atomRcl p != 0 && !atomRv p), 8), (atomSc p == 0, 0x11)]

/-- The largest slot number of a barrier level (R417). -/
def barLimit (l : Nat) : Nat := if l = 1 then 15 else if l = 2 then 63 else if l = 3 then 31 else 15

/-- The level and slot checks of BAR (R417). -/
def barChecks (l : BitVec 3) (s : BitVec 7) (binds : Bool) : List (Bool × Nat) :=
  [(l == 0 || decide (l.toNat ≥ 5) || decide (fld s > barLimit l.toNat) || (binds && (l == 3 || l == 4)), 3)]

/-- A predicate number as a destination: 0 to 11 (R336). -/
def badPDst (p : BitVec 4) : Bool := decide (p.toNat ≥ 12)
/-- A predicate number as a source: 0 to 12 (R336). -/
def badPSrc (p : BitVec 4) : Bool := decide (p.toNat ≥ 13)

/-- The special-register number of MFS and MTS: F8 (R317). -/
def srNumber (n : BitVec 1) (n2 : BitVec 7) : Nat := (n ++ n2).toNat

/-- The 64-bit special registers (R431). -/
def srWide (n : Nat) : Bool := n == 6 || n == 8 || n == 9 || n == 0xA || n == 0xB || n == 0xD || n == 0xF || n == 0x14

/-- The special registers that MTS may write (R431). -/
def srWritable (n : Nat) : Bool := (decide (1 ≤ n) && decide (n ≤ 5)) || n == 8 || n == 9 || n == 0xD || n == 0x11

/-- The class 00 subcode that the fields of an instruction alone give it, if any (R319). ILL and the reserved opcodes are
their own meaning; what depends on tags, on placement or on the machine is checked elsewhere. -/
def encodingFault : Instr → Option Nat
  | .add p _ _ d a b => firstCode (formDAB d a b ++ arithPfx (payload p))
  | .sub p _ _ d a b => firstCode (formDAB d a b ++ arithPfx (payload p))
  | .mul p _ _ d a b => firstCode (formDAB d a b ++ arithPfx (payload p))
  | .mulh p _ _ d a b => firstCode (formDAB d a b ++ [(pfxRm (payload p) != 0 || pfxSat (payload p), 8)] ++ arithPfx (payload p))
  | .fma p _ _ d a b => firstCode ([(badSrc d, 5)] ++ formDAB d a b ++ arithPfx (payload p))
  | .fms p _ _ d a b => firstCode ([(badSrc d, 5)] ++ formDAB d a b ++ arithPfx (payload p))
  | .dot p _ _ d a b => firstCode ([(badSrc d, 5)] ++ formDAB d a b ++ arithPfx (payload p))
  | .min _ _ d a b => firstCode (formDAB d a b)
  | .max _ _ d a b => firstCode (formDAB d a b)
  | .and _ _ d a b => firstCode (formDAB d a b)
  | .or _ _ d a b => firstCode (formDAB d a b)
  | .xor _ _ d a b => firstCode (formDAB d a b)
  | .andn _ _ d a b => firstCode (formDAB d a b)
  | .shl _ _ d a b => firstCode (formDAB d a b)
  | .shr _ _ d a b => firstCode (formDAB d a b)
  | .addi p _ _ d a _ => firstCode (formDA d a ++ arithPfx (payload p))
  | .shli _ _ d a _ => firstCode (formDA d a)
  | .shri _ _ d a _ => firstCode (formDA d a)
  | .andi _ _ d a _ => firstCode (formDA d a)
  | .movi d _ => firstCode [(badDst d, 5)]
  | .movh d _ => firstCode [(badDst d, 5)]
  | .cmp _ _ i c a b => firstCode [(decide (i.toNat ≥ 6) || decide (c.toNat ≥ 8), 3), (badSrc a || badSrc b, 5)]
  | .cmpi _ _ i c a _ => firstCode [(decide (i.toNat ≥ 6) || decide (c.toNat ≥ 8), 3), (badSrc a, 5)]
  | .mov _ _ d a => firstCode (formDA d a)
  | .not _ _ d a => firstCode (formDA d a)
  | .neg _ _ d a => firstCode (formDA d a)
  | .abs _ _ d a => firstCode (formDA d a)
  | .clz _ _ d a => firstCode (formDA d a)
  | .popc _ _ d a => firstCode (formDA d a)
  | .brev _ _ d a => firstCode (formDA d a)
  | .bswap _ _ d a => firstCode (formDA d a)
  | .cls _ _ d a => firstCode (formDA d a)
  | .ctz _ _ d a => firstCode (formDA d a)
  | .tagof _ _ d a => firstCode (formDA d a)
  | .retag _ _ d a t => firstCode ([(t == 15, 3)] ++ formDA d a ++ [(pairCode t && oddPair d, 5)])
  | .cvt p _ _ d a t r =>
    let q := payload p
    firstCode ([(t == 15, 3)] ++ formDA d a ++ [(pairCode t && oddPair d, 5),
      (pfxRm q != 0 || pfxZero q != 0 || (pfxSv q && (r != 5 || decide (fld (pfxSeed q) ≥ 112) || pfxSeed q == d ||
        (pairCode t && fld (pfxSeed q) == fld d + 1))) || (!pfxSv q && pfxSeed q != 0), 8),
      (decide (r.toNat ≥ 6) || (r == 5 && !pfxSv q), 0x15)])
  | .rcp _ _ d a => firstCode (formDA d a)
  | .rsq _ _ d a => firstCode (formDA d a)
  | .sqrt _ _ d a => firstCode (formDA d a)
  | .ex2 _ _ d a => firstCode (formDA d a)
  | .lg2 _ _ d a => firstCode (formDA d a)
  | .sin _ _ d a => firstCode (formDA d a)
  | .cos _ _ d a => firstCode (formDA d a)
  | .tanh _ _ d a => firstCode (formDA d a)
  | .sigm _ _ d a => firstCode (formDA d a)
  | .pand _ p q r => firstCode [(badPDst p || badPSrc q || badPSrc r, 3)]
  | .por _ p q r => firstCode [(badPDst p || badPSrc q || badPSrc r, 3)]
  | .pxor _ p q r => firstCode [(badPDst p || badPSrc q || badPSrc r, 3)]
  | .pandn _ p q r => firstCode [(badPDst p || badPSrc q || badPSrc r, 3)]
  | .vany _ p a => firstCode [(badPDst p || badPSrc a, 3)]
  | .vall _ p a => firstCode [(badPDst p || badPSrc a, 3)]
  | .vuni _ p a => firstCode [(badPDst p || badPSrc a, 3)]
  | .vbal _ d a => firstCode [(badPSrc a, 3), (badDst d, 5)]
  | .p2r _ d => firstCode [(badDst d, 5)]
  | .setp _ _ a => firstCode [(badSrc a, 5)]
  | .shfl _ _ d a b => firstCode (formDAB d a b)
  | .shfi _ _ d a _ => firstCode (formDA d a)
  | .redAdd _ _ d a => firstCode (formDA d a)
  | .redMin _ _ d a => firstCode (formDA d a)
  | .redMax _ _ d a => firstCode (formDA d a)
  | .redAnd _ _ d a => firstCode (formDA d a)
  | .redOr _ _ d a => firstCode (formDA d a)
  | .redXor _ _ d a => firstCode (formDA d a)
  | .redScani _ _ d a => firstCode (formDA d a)
  | .redScanx _ _ d a => firstCode (formDA d a)
  | .sel _ _ d a b => firstCode (formDAB d a b)
  | .jr _ _ a => firstCode [(badSrc a, 5)]
  | .jalr _ _ a => firstCode [(badSrc a, 5)]
  | .wnd _ _ a _ => firstCode [(badSrc a, 5)]
  | .ld p _ s d a s2 o c => firstCode (ldChecks (payload p) (szOf s s2) o c d a)
  | .st p _ s d a s2 o c => firstCode (stChecks (payload p) (szOf s s2) o c d a)
  | .atom p _ _ d a b =>
    firstCode ([(badVarDst d || badSrc a || badSrc b || (atomQ p && d != 127 && d.extractLsb' 0 2 != 0), 5),
      (decide (atomOpn p ≥ 7) || (atomQ p && atomOpn p != 6), 8)] ++ atomPfx p)
  | .cas p _ _ d a b =>
    firstCode ([(badVarDst d || badSrc a || badSrc b || (atomQ p && d != 127 && d.extractLsb' 0 2 != 0), 5),
      (atomOpn p != 0, 8)] ++ atomPfx p)
  | .fence _ _ o c => firstCode [(o == 0 || c == 0, 0x11)]
  | .mma p _ _ d a b =>
    firstCode [(decide (fld d ≥ 6), 3), (badSrc a || badSrc b, 5), (p.extractLsb' 4 22 != 0, 8),
      (decide ((pfxRm p).toNat ≥ 5), 0x15)]
  | .mtxZero _ d a => firstCode [(decide (fld d ≥ 6) || !(a == 1 || a == 3 || a == 4), 3)]
  | .mtxLd _ _ d a => firstCode [(decide (fld d ≥ 6), 3), (badSrc a, 5)]
  | .mtxSt _ _ d a => firstCode [(decide (fld d ≥ 6), 3), (badSrc a, 5)]
  | .mtxRd _ _ d a => firstCode (formDA d a)
  | .mtxRel _ d => firstCode [(decide (fld d ≥ 6), 3)]
  | .cpy p _ _ d a b =>
    firstCode [(d != 0 || (p.extractLsb' 0 2 == 0 && b != 120), 3), (badSrc a || badSrc b, 5), (p.extractLsb' 2 24 != 0, 8)]
  | .gth p _ _ d a b =>
    firstCode [(d != 0 || (!p.getLsbD 0 && b != 120), 3), (badSrc a || badSrc b, 5), (p.extractLsb' 1 25 != 0, 8)]
  | .trayCfg _ _ d a => firstCode (formDA d a)
  | .trayRel _ _ d a => firstCode (formDA d a)
  | .trayRsv _ _ d a => firstCode (formDA d a)
  | .trayCommit _ a => firstCode [(badSrc a, 5)]
  | .trayPop _ _ d a => firstCode (formDA d a)
  | .trayDone _ a => firstCode [(badSrc a, 5)]
  | .trayCnt _ _ d a => firstCode (formDA d a)
  | .barInit _ s a l => firstCode (barChecks l s true ++ [(badSrc a, 5)])
  | .barArv _ s l => firstCode (barChecks l s false)
  | .barArvb _ _ s a l => firstCode (barChecks l s false ++ [(badSrc a, 5)])
  | .barWait _ _ s l => firstCode (barChecks l s false)
  | .barRel _ s l => firstCode (barChecks l s true)
  | .wait _ k _ => firstCode [(decide (k.toNat ≥ 5), 3)]
  | .invk p _ _ d a b =>
    firstCode [(badDst d || oddPair d || badSrc a || badSrc b, 5), (p.extractLsb' 14 12 != 0, 8)]
  | .chitAwait _ a => firstCode [(badSrc a, 5)]
  | .chitTest _ _ d a => firstCode (formDA d a)
  | .chitFree _ a => firstCode [(badSrc a, 5)]
  | .chitSlot _ _ d a => firstCode (formDA d a)
  | .poolScr _ _ d a => firstCode (formDA d a)
  | .poolMxs _ _ d a => firstCode (formDA d a)
  | .wmonCfg _ _ d a => firstCode (formDA d a)
  | .wmonRel _ _ d a => firstCode (formDA d a)
  | .wmonRdlo _ _ d a => firstCode (formDA d a ++ [(oddPair d, 5)])
  | .wmonRdhi _ _ d a => firstCode (formDA d a ++ [(oddPair d, 5)])
  | .mfs _ n d n2 =>
    firstCode [(decide (srNumber n n2 > 0x14), 3), (badDst d || (srWide (srNumber n n2) && oddPair d), 5)]
  | .mts _ n a n2 => firstCode [(!srWritable (srNumber n n2), 3), (badSrc a, 5)]
  | .brk _ _ a => firstCode [(badSrc a, 5)]
  | .refq _ _ d a => firstCode (formDA d a)
  | .locq _ _ d a => firstCode (formDA d a)
  | .time _ _ d => firstCode [(badDst d || oddPair d, 5)]
  | .place _ _ d a => firstCode (formDA d a ++ [(oddPair d, 5)])
  | .mload _ _ d a => firstCode (formDA d a)
  | .tsrOpen _ _ a => firstCode [(badSrc a, 5)]
  | .tsrClose _ _ a => firstCode [(a != 120, 3)]
  | _ => none

/-- The guard field of an instruction; formats L and M have none and execute in every lane, and the G of SEL is a selector
(R292, R330). Steps of the part have none. -/
def guardOf : Instr → Option (BitVec 4)
  | .add _ g _ _ _ _ => some g
  | .sub _ g _ _ _ _ => some g
  | .mul _ g _ _ _ _ => some g
  | .mulh _ g _ _ _ _ => some g
  | .fma _ g _ _ _ _ => some g
  | .fms _ g _ _ _ _ => some g
  | .dot _ g _ _ _ _ => some g
  | .min g _ _ _ _ => some g
  | .max g _ _ _ _ => some g
  | .and g _ _ _ _ => some g
  | .or g _ _ _ _ => some g
  | .xor g _ _ _ _ => some g
  | .andn g _ _ _ _ => some g
  | .shl g _ _ _ _ => some g
  | .shr g _ _ _ _ => some g
  | .addi _ g _ _ _ _ => some g
  | .shli g _ _ _ _ => some g
  | .shri g _ _ _ _ => some g
  | .andi g _ _ _ _ => some g
  | .cmp g _ _ _ _ _ => some g
  | .cmpi g _ _ _ _ _ => some g
  | .mov g _ _ _ => some g
  | .not g _ _ _ => some g
  | .neg g _ _ _ => some g
  | .abs g _ _ _ => some g
  | .clz g _ _ _ => some g
  | .popc g _ _ _ => some g
  | .brev g _ _ _ => some g
  | .bswap g _ _ _ => some g
  | .cls g _ _ _ => some g
  | .ctz g _ _ _ => some g
  | .tagof g _ _ _ => some g
  | .retag g _ _ _ _ => some g
  | .cvt _ g _ _ _ _ _ => some g
  | .rcp g _ _ _ => some g
  | .rsq g _ _ _ => some g
  | .sqrt g _ _ _ => some g
  | .ex2 g _ _ _ => some g
  | .lg2 g _ _ _ => some g
  | .sin g _ _ _ => some g
  | .cos g _ _ _ => some g
  | .tanh g _ _ _ => some g
  | .sigm g _ _ _ => some g
  | .pand g _ _ _ => some g
  | .por g _ _ _ => some g
  | .pxor g _ _ _ => some g
  | .pandn g _ _ _ => some g
  | .vany g _ _ => some g
  | .vall g _ _ => some g
  | .vbal g _ _ => some g
  | .vuni g _ _ => some g
  | .p2r g _ => some g
  | .setp g _ _ => some g
  | .shfl g _ _ _ _ => some g
  | .shfi g _ _ _ _ => some g
  | .redAdd g _ _ _ => some g
  | .redMin g _ _ _ => some g
  | .redMax g _ _ _ => some g
  | .redAnd g _ _ _ => some g
  | .redOr g _ _ _ => some g
  | .redXor g _ _ _ => some g
  | .redScani g _ _ _ => some g
  | .redScanx g _ _ _ => some g
  | .bra g _ => some g
  | .call g _ => some g
  | .jr g _ _ => some g
  | .jalr g _ _ => some g
  | .ret g _ => some g
  | .join g _ => some g
  | .rdy g _ => some g
  | .rdyW g _ => some g
  | .wnd g _ _ _ => some g
  | .ld _ g _ _ _ _ _ _ => some g
  | .st _ g _ _ _ _ _ _ => some g
  | .atom _ g _ _ _ _ => some g
  | .cas _ g _ _ _ _ => some g
  | .fence g _ _ _ => some g
  | .mma _ g _ _ _ _ => some g
  | .mtxZero g _ _ => some g
  | .mtxLd g _ _ _ => some g
  | .mtxSt g _ _ _ => some g
  | .mtxRd g _ _ _ => some g
  | .mtxRel g _ => some g
  | .cpy _ g _ _ _ _ => some g
  | .gth _ g _ _ _ _ => some g
  | .trayCfg g _ _ _ => some g
  | .trayRel g _ _ _ => some g
  | .trayRsv g _ _ _ => some g
  | .trayCommit g _ => some g
  | .trayPop g _ _ _ => some g
  | .trayDone g _ => some g
  | .trayCnt g _ _ _ => some g
  | .barInit g _ _ _ => some g
  | .barArv g _ _ => some g
  | .barArvb g _ _ _ _ => some g
  | .barWait g _ _ _ => some g
  | .barRel g _ _ => some g
  | .wait g _ _ => some g
  | .invk _ g _ _ _ _ => some g
  | .chitAwait g _ => some g
  | .chitTest g _ _ _ => some g
  | .chitFree g _ => some g
  | .chitSlot g _ _ _ => some g
  | .poolScr g _ _ _ => some g
  | .poolMxs g _ _ _ => some g
  | .wmonCfg g _ _ _ => some g
  | .wmonRel g _ _ _ => some g
  | .wmonRdlo g _ _ _ => some g
  | .wmonRdhi g _ _ _ => some g
  | .mfs g _ _ _ => some g
  | .mts g _ _ _ => some g
  | .trap g _ => some g
  | .exit g _ => some g
  | .brk g _ _ => some g
  | .resume g _ => some g
  | .fail g _ => some g
  | .refq g _ _ _ => some g
  | .locq g _ _ _ => some g
  | .time g _ _ => some g
  | .place g _ _ _ => some g
  | .mload g _ _ _ => some g
  | .tsrOpen g _ _ => some g
  | .tsrClose g _ _ => some g
  | _ => none

/-- A control transfer, which stands last in its run (R307). -/
def isControl : Instr → Bool
  | .bra _ _ | .call _ _ | .jr _ _ _ | .jalr _ _ _ | .ret _ _ | .join _ _ | .trap _ _ | .exit _ _ | .brk _ _ _
  | .resume _ _ | .fail _ _ => true
  | _ => false

/-- A blocking instruction, which stands first in its run; MMA also is one when GANG names a partner (R307, R401). -/
def isBlocking : Instr → Bool
  | .wait _ _ _ | .barWait _ _ _ _ | .trayPop _ _ _ _ | .chitAwait _ _ | .rdy _ _ | .rdyW _ _ => true
  | _ => false

/-- A non-idempotent instruction by its words alone; CPY and GTH depend on their descriptor (R253). -/
def isNonIdempotent : Instr → Bool
  | .atom _ _ _ _ _ _ | .cas _ _ _ _ _ _ => true
  | .st p _ _ _ _ _ o _ => o == 2 || memForm (payload p) == 1
  | .barInit _ _ _ _ | .barArv _ _ _ | .barArvb _ _ _ _ _ | .barRel _ _ _ => true
  | .trayCfg _ _ _ _ | .trayRel _ _ _ _ | .trayRsv _ _ _ _ | .trayCommit _ _ | .trayPop _ _ _ _ | .trayDone _ _ => true
  | .invk _ _ _ _ _ _ | .chitAwait _ _ | .chitTest _ _ _ _ | .chitFree _ _ | .chitSlot _ _ _ _ => true
  | .wmonCfg _ _ _ _ | .wmonRel _ _ _ _ | .tsrOpen _ _ _ | .tsrClose _ _ _ => true
  | _ => false

/-- The register fields from one field up, as many as the width takes. -/
def span (f : BitVec 7) (n : Nat) : List Nat := (List.range n).map (fun i => fld f + i)

/-- How many registers a memory size takes (R315). -/
def sizeRegs (sz : Nat) : Nat := if sz = 5 then 2 else if sz = 6 then 4 else 1

/-- The destination fields of a variable-latency instruction, with the width its words give it (R305). -/
def varDestFields : Instr → List Nat
  | .rcp _ _ d _ | .rsq _ _ d _ | .sqrt _ _ d _ | .ex2 _ _ d _ | .lg2 _ _ d _ | .sin _ _ d _ | .cos _ _ d _
  | .tanh _ _ d _ | .sigm _ _ d _ => span d 1
  | .ld _ _ s d _ s2 _ _ => span d (sizeRegs (szOf s s2))
  | .atom p _ _ d _ _ | .cas p _ _ d _ _ => span d (if atomQ p then 4 else 1)
  | .mtxRd _ _ d _ => span d 1
  | .trayCfg _ _ d _ | .trayRel _ _ d _ | .trayRsv _ _ d _ | .trayPop _ _ d _ | .trayCnt _ _ d _ => span d 1
  | .invk _ _ _ d _ _ => span d 2
  | .chitTest _ _ d _ | .chitSlot _ _ d _ => span d 1
  | .poolScr _ _ d _ | .poolMxs _ _ d _ => span d 1
  | .wmonCfg _ _ d _ | .wmonRel _ _ d _ => span d 1
  | .wmonRdlo _ _ d _ | .wmonRdhi _ _ d _ => span d 2
  | .refq _ _ d _ | .locq _ _ d _ | .mload _ _ d _ => span d 1
  | .place _ _ d _ => span d 2
  | _ => []

/-- One register source: its field and the width that the words give it. -/
def reads (f : BitVec 7) (n : Nat) : List (Nat × Nat) := [(fld f, n)]

/-- The register sources of an instruction: field and width, as its words give them (R294, R305). -/
def sourceReads : Instr → List (Nat × Nat)
  | .add _ _ _ _ a b | .sub _ _ _ _ a b | .mul _ _ _ _ a b | .mulh _ _ _ _ a b => reads a 1 ++ reads b 1
  | .fma _ _ _ d a b | .fms _ _ _ d a b | .dot _ _ _ d a b => reads d 1 ++ reads a 1 ++ reads b 1
  | .min _ _ _ a b | .max _ _ _ a b | .and _ _ _ a b | .or _ _ _ a b | .xor _ _ _ a b | .andn _ _ _ a b
  | .shl _ _ _ a b | .shr _ _ _ a b | .shfl _ _ _ a b | .sel _ _ _ a b => reads a 1 ++ reads b 1
  | .cmp _ _ _ _ a b => reads a 1 ++ reads b 1
  | .addi _ _ _ _ a _ | .shli _ _ _ a _ | .shri _ _ _ a _ | .andi _ _ _ a _ | .shfi _ _ _ a _ => reads a 1
  | .cmpi _ _ _ _ a _ => reads a 1
  | .movh d _ => reads d 1
  | .mov _ _ _ a | .not _ _ _ a | .neg _ _ _ a | .abs _ _ _ a | .clz _ _ _ a | .popc _ _ _ a | .brev _ _ _ a
  | .bswap _ _ _ a | .cls _ _ _ a | .ctz _ _ _ a | .tagof _ _ _ a => reads a 1
  | .retag _ _ _ a t => reads a (if pairCode t then 2 else 1)
  | .cvt p _ _ _ a _ _ => reads a 1 ++ (if pfxSv (payload p) then reads (pfxSeed (payload p)) 1 else [])
  | .rcp _ _ _ a | .rsq _ _ _ a | .sqrt _ _ _ a | .ex2 _ _ _ a | .lg2 _ _ _ a | .sin _ _ _ a | .cos _ _ _ a
  | .tanh _ _ _ a | .sigm _ _ _ a => reads a 1
  | .setp _ _ a => reads a 1
  | .redAdd _ _ _ a | .redMin _ _ _ a | .redMax _ _ _ a | .redAnd _ _ _ a | .redOr _ _ _ a | .redXor _ _ _ a
  | .redScani _ _ _ a | .redScanx _ _ _ a => reads a 1
  | .jr _ _ a | .jalr _ _ a => reads a 2
  | .wnd _ _ a _ => reads a 1
  | .mcall _ d a b => reads d 1 ++ reads a 1 ++ reads b 1
  | .ld _ _ _ _ a _ _ _ => reads a 2
  | .st _ _ s d a s2 _ _ => reads d (sizeRegs (szOf s s2)) ++ reads a 2
  | .atom p _ _ _ a b => reads a 2 ++ reads b (if atomQ p then 4 else 1)
  | .cas p _ _ _ a b => reads a 2 ++ reads b (if atomQ p then 8 else 2)
  | .mma _ _ _ _ a b => reads a 1 ++ reads b 1
  | .mtxLd _ _ _ a | .mtxSt _ _ _ a | .mtxRd _ _ _ a => reads a 1
  | .cpy _ _ _ _ a b | .gth _ _ _ _ a b => reads a 1 ++ (if b == 120 then [] else reads b 2)
  | .trayCfg _ _ _ a => reads a 2
  | .trayRel _ _ _ a | .trayRsv _ _ _ a | .trayPop _ _ _ a | .trayCnt _ _ _ a => reads a 1
  | .trayCommit _ a | .trayDone _ a => reads a 1
  | .barInit _ _ a _ => reads a 2
  | .barArvb _ _ _ a _ => reads a 1
  | .invk _ _ _ _ a b => reads a 1 ++ (if b == 120 then [] else reads b 2)
  | .chitAwait _ a | .chitFree _ a => reads a 2
  | .chitTest _ _ _ a | .chitSlot _ _ _ a => reads a 2
  | .poolScr _ _ _ a | .poolMxs _ _ _ a => reads a 1
  | .wmonCfg _ _ _ a | .wmonRel _ _ _ a | .wmonRdlo _ _ _ a | .wmonRdhi _ _ _ a => reads a 1
  | .mts _ n a n2 => reads a (if srWide (srNumber n n2) then 2 else 1)
  | .brk _ _ a | .tsrOpen _ _ a => reads a 1
  | .refq _ _ _ a | .locq _ _ _ a | .mload _ _ _ a => reads a 2
  | .place _ _ _ a => reads a 1
  | _ => []

/-- The register fields an instruction reads. -/
def sourceFields (i : Instr) : List Nat := (sourceReads i).flatMap (fun r => (List.range r.2).map (fun k => r.1 + k))

/-- The register fields an instruction of fixed latency writes, with the width its words give them. -/
def fixedDestFields : Instr → List Nat
  | .add _ _ _ d _ _ | .sub _ _ _ d _ _ | .mul _ _ _ d _ _ | .mulh _ _ _ d _ _ | .fma _ _ _ d _ _ | .fms _ _ _ d _ _
  | .dot _ _ _ d _ _ | .addi _ _ _ d _ _ => span d 1
  | .min _ _ d _ _ | .max _ _ d _ _ | .and _ _ d _ _ | .or _ _ d _ _ | .xor _ _ d _ _ | .andn _ _ d _ _
  | .shl _ _ d _ _ | .shr _ _ d _ _ | .shfl _ _ d _ _ | .sel _ _ d _ _ | .shli _ _ d _ _ | .shri _ _ d _ _
  | .andi _ _ d _ _ | .shfi _ _ d _ _ => span d 1
  | .movi d _ | .movh d _ => span d 1
  | .mov _ _ d _ | .not _ _ d _ | .neg _ _ d _ | .abs _ _ d _ | .clz _ _ d _ | .popc _ _ d _ | .brev _ _ d _
  | .bswap _ _ d _ | .cls _ _ d _ | .ctz _ _ d _ | .tagof _ _ d _ => span d 1
  | .retag _ _ d _ t => span d (if pairCode t then 2 else 1)
  | .cvt p _ _ d _ t _ =>
    span d (if pairCode t then 2 else 1) ++ (if pfxSv (payload p) then span (pfxSeed (payload p)) 1 else [])
  | .vbal _ d _ => span d 1
  | .p2r _ d => span d 1
  | .redAdd _ _ d _ | .redMin _ _ d _ | .redMax _ _ d _ | .redAnd _ _ d _ | .redOr _ _ d _ | .redXor _ _ d _
  | .redScani _ _ d _ | .redScanx _ _ d _ => span d 1
  | .mcall _ d _ _ => span d 1
  | .mfs _ n d n2 => span d (if srWide (srNumber n n2) then 2 else 1)
  | .time _ _ d => span d 2
  | _ => []

/-- The source fields of an instruction that name a pair where they meet a 64-bit tag (R273, R274). -/
def tagReads : Instr → List Nat
  | .add _ _ _ _ a b | .sub _ _ _ _ a b | .mul _ _ _ _ a b | .mulh _ _ _ _ a b => [fld a, fld b]
  | .fma _ _ _ d a b | .fms _ _ _ d a b | .dot _ _ _ d a b => [fld d, fld a, fld b]
  | .min _ _ _ a b | .max _ _ _ a b | .and _ _ _ a b | .or _ _ _ a b | .xor _ _ _ a b | .andn _ _ _ a b
  | .shl _ _ _ a b | .shr _ _ _ a b | .sel _ _ _ a b | .cmp _ _ _ _ a b => [fld a, fld b]
  | .addi _ _ _ _ a _ | .shli _ _ _ a _ | .shri _ _ _ a _ | .andi _ _ _ a _ | .shfi _ _ _ a _ | .cmpi _ _ _ _ a _ => [fld a]
  | .shfl _ _ _ a _ | .cvt _ _ _ _ a _ _ => [fld a]
  | .mov _ _ _ a | .not _ _ _ a | .neg _ _ _ a | .abs _ _ _ a | .clz _ _ _ a | .popc _ _ _ a | .brev _ _ _ a
  | .bswap _ _ _ a | .cls _ _ _ a | .ctz _ _ _ a => [fld a]
  | .rcp _ _ _ a | .rsq _ _ _ a | .sqrt _ _ _ a | .ex2 _ _ _ a | .lg2 _ _ _ a | .sin _ _ _ a | .cos _ _ _ a
  | .tanh _ _ _ a | .sigm _ _ _ a => [fld a]
  | .redAdd _ _ _ a | .redMin _ _ _ a | .redMax _ _ _ a | .redAnd _ _ _ a | .redOr _ _ _ a | .redXor _ _ _ a
  | .redScani _ _ _ a | .redScanx _ _ _ a => [fld a]
  | _ => []

/-- The destination fields that name a pair where the sources meet a 64-bit tag. -/
def tagWrites : Instr → List Nat
  | .clz _ _ _ _ | .popc _ _ _ _ | .cls _ _ _ _ | .ctz _ _ _ _ | .cvt _ _ _ _ _ _ _ | .cmp _ _ _ _ _ _ | .cmpi _ _ _ _ _ _ => []
  | i => if (tagReads i).isEmpty then [] else fixedDestFields i ++ varDestFields i

/-- Every register field of 0 to 119 that an instruction names (R305). -/
def namedFields (i : Instr) : List Nat :=
  (sourceFields i ++ varDestFields i ++ fixedDestFields i).filter (fun f => decide (f < 120))

/-- The major opcode of an instruction that has words; steps of the part have none (R312). -/
def majorOp (i : Instr) : Option Nat :=
  match (encode i).getLast? with
  | some w => some (opOf w)
  | none => none

/-- An opcode that no port executes: it has a subcode of its own, 0x02 (R312). -/
def isReservedOp : Instr → Bool
  | .opReserved _ _ => true
  | _ => false

/-- The opcodes that the narrow port executes (R151). -/
def narrowOps (op : Nat) : Bool :=
  op == 0 || (decide (1 ≤ op) && decide (op ≤ 3)) || op == 8 || op == 9 || (decide (0xA ≤ op) && decide (op ≤ 0x17)) ||
  op == 0x1B || (decide (0x1F ≤ op) && decide (op ≤ 0x25)) || op == 0x27 || op == 0x28 || op == 0x2B ||
  (decide (0x2E ≤ op) && decide (op ≤ 0x34)) || (decide (0x37 ≤ op) && decide (op ≤ 0x3B)) || op == 0x3E

/-- The arithmetic and compare opcodes that the narrow port executes on integer tags of 32 and 64 bits only (R151). -/
def narrowArith (op : Nat) : Bool :=
  (decide (1 ≤ op) && decide (op ≤ 3)) || op == 8 || op == 9 || op == 0x10 || op == 0x16 || op == 0x17

/-- The opcodes that make a run warp-bound (R155). -/
def warpBoundOp (op : Nat) : Bool :=
  op == 0x1C || op == 0x1D || op == 0x1E || op == 0x24 || op == 0x25 || (decide (0x2C ≤ op) && decide (op ≤ 0x3B))

/-- Whether a word makes its run warp-bound: its opcode, or a vote of PRD (R155). -/
def warpBoundWord (w : Word) : Bool :=
  warpBoundOp (opOf w) || (opOf w == 0x1B && decide (8 ≤ fnOf w) && decide (fnOf w ≤ 0xB))

end Sys2Proof.Machine
end

