-- ==== Sys2Proof/Machine/Drive.lean ====
section
/-! DEFINITION. How an instruction of a group is carried out: guard, class 00, then each active lane from the state at issue,
results applied in ascending lane order (R6, R204, R297, R319, R320, R410). -/

namespace Sys2Proof.Machine

/-- Class 00 at the current instruction (R319). -/
def LaneCtx.code00 (c : LaneCtx) (sb : Nat) : Trap := Trap.sync 0 sb c.group.hereAddr

/-- What a lane does: an effect on the state, or a trap. -/
abbrev LaneOut := Except Trap (State → State)

/-- One lane's outcome applied. -/
def applyLane (s : State) (r : LaneCtx × LaneOut) : State :=
  match r.2 with
  | .ok e => e s
  | .error t => takeTrap t r.1.tid s

/-- Outcomes applied in the order given, which is ascending lane order (R204). -/
def applyLanes (rs : List (LaneCtx × LaneOut)) (s : State) : State := rs.foldl applyLane s

/-- The same trap in every lane of a list. -/
def trapAll (cs : List LaneCtx) (sb : Nat) (s : State) : State :=
  applyLanes (cs.map (fun c => (c, .error (c.code00 sb)))) s

/-- The guard of a lane: always for 12 (R297). -/
def LaneCtx.guard (c : LaneCtx) (g : BitVec 4) : Except Trap Bool := if g = 12 then .ok true else c.pred g.toNat

/-- Whether an instruction names the odd half of a pair that a variable-latency instruction of the run writes, as the tags met in a lane
have it (R305, R307). -/
def LaneCtx.namesAgain (c : LaneCtx) (i : Instr) : Bool :=
  let wide := (tagReads i).filter (fun f => f % 2 == 0 && isPairTag (c.tagSeen f))
  let odd := (wide ++ (if wide.isEmpty then [] else tagWrites i)).map (fun f => f + 1)
  c.group.varDests.any (fun v => decide (v.1 < c.group.here) && odd.contains v.2)

/-- The lowest class 00 subcode that an instruction's fields, and the pairs it names in a lane, give it (R307, R319). -/
def LaneCtx.ownFault (c : LaneCtx) (i : Instr) : Option Nat :=
  match encodingFault i with
  | some n => if c.namesAgain i then some (Nat.min n 0x0A) else some n
  | none => if c.namesAgain i then some 0x0A else none

/-- The outcome of one member lane, or none where its guard is clear: an early read of the guard is class 02, the fields'
own class 00 comes before what the lane computes (R320). -/
def laneOutcome (i : Instr) (f : LaneCtx → LaneOut) (c : LaneCtx) : Option (LaneCtx × LaneOut) :=
  match c.guard ((guardOf i).getD 12) with
  | .error t => some (c, .error t)
  | .ok false => none
  | .ok true =>
    match c.ownFault i with
    | some n => some (c, .error (c.code00 n))
    | none => some (c, f c)

/-- The hold bit and field A of the formats that have one, LD, ST, MFS and MTS apart (R160). -/
def holdOf : Instr → Option (BitVec 7)
  | .add _ _ h _ a _ => if h = 1 then some a else none
  | .sub _ _ h _ a _ => if h = 1 then some a else none
  | .mul _ _ h _ a _ => if h = 1 then some a else none
  | .mulh _ _ h _ a _ => if h = 1 then some a else none
  | .fma _ _ h _ a _ => if h = 1 then some a else none
  | .fms _ _ h _ a _ => if h = 1 then some a else none
  | .dot _ _ h _ a _ => if h = 1 then some a else none
  | .min _ h _ a _ => if h = 1 then some a else none
  | .max _ h _ a _ => if h = 1 then some a else none
  | .and _ h _ a _ => if h = 1 then some a else none
  | .or _ h _ a _ => if h = 1 then some a else none
  | .xor _ h _ a _ => if h = 1 then some a else none
  | .andn _ h _ a _ => if h = 1 then some a else none
  | .shl _ h _ a _ => if h = 1 then some a else none
  | .shr _ h _ a _ => if h = 1 then some a else none
  | .addi _ _ h _ a _ => if h = 1 then some a else none
  | .shli _ h _ a _ => if h = 1 then some a else none
  | .shri _ h _ a _ => if h = 1 then some a else none
  | .andi _ h _ a _ => if h = 1 then some a else none
  | .cmp _ h _ _ a _ => if h = 1 then some a else none
  | .cmpi _ h _ _ a _ => if h = 1 then some a else none
  | .mov _ h _ a => if h = 1 then some a else none
  | .not _ h _ a => if h = 1 then some a else none
  | .neg _ h _ a => if h = 1 then some a else none
  | .abs _ h _ a => if h = 1 then some a else none
  | .clz _ h _ a => if h = 1 then some a else none
  | .popc _ h _ a => if h = 1 then some a else none
  | .brev _ h _ a => if h = 1 then some a else none
  | .bswap _ h _ a => if h = 1 then some a else none
  | .cls _ h _ a => if h = 1 then some a else none
  | .ctz _ h _ a => if h = 1 then some a else none
  | .tagof _ h _ a => if h = 1 then some a else none
  | .retag _ h _ a _ => if h = 1 then some a else none
  | .cvt _ _ h _ a _ _ => if h = 1 then some a else none
  | .rcp _ h _ a => if h = 1 then some a else none
  | .rsq _ h _ a => if h = 1 then some a else none
  | .sqrt _ h _ a => if h = 1 then some a else none
  | .ex2 _ h _ a => if h = 1 then some a else none
  | .lg2 _ h _ a => if h = 1 then some a else none
  | .sin _ h _ a => if h = 1 then some a else none
  | .cos _ h _ a => if h = 1 then some a else none
  | .tanh _ h _ a => if h = 1 then some a else none
  | .sigm _ h _ a => if h = 1 then some a else none
  | .setp _ h a => if h = 1 then some a else none
  | .shfl _ h _ a _ => if h = 1 then some a else none
  | .shfi _ h _ a _ => if h = 1 then some a else none
  | .redAdd _ h _ a => if h = 1 then some a else none
  | .redMin _ h _ a => if h = 1 then some a else none
  | .redMax _ h _ a => if h = 1 then some a else none
  | .redAnd _ h _ a => if h = 1 then some a else none
  | .redOr _ h _ a => if h = 1 then some a else none
  | .redXor _ h _ a => if h = 1 then some a else none
  | .redScani _ h _ a => if h = 1 then some a else none
  | .redScanx _ h _ a => if h = 1 then some a else none
  | .sel _ h _ a _ => if h = 1 then some a else none
  | .jr _ h a => if h = 1 then some a else none
  | .jalr _ h a => if h = 1 then some a else none
  | .wnd _ h a _ => if h = 1 then some a else none
  | .atom _ _ h _ a _ => if h = 1 then some a else none
  | .cas _ _ h _ a _ => if h = 1 then some a else none
  | .mma _ _ h _ a _ => if h = 1 then some a else none
  | .mtxLd _ h _ a => if h = 1 then some a else none
  | .mtxSt _ h _ a => if h = 1 then some a else none
  | .mtxRd _ h _ a => if h = 1 then some a else none
  | .cpy _ _ h _ a _ => if h = 1 then some a else none
  | .gth _ _ h _ a _ => if h = 1 then some a else none
  | .trayCfg _ h _ a => if h = 1 then some a else none
  | .trayRel _ h _ a => if h = 1 then some a else none
  | .trayRsv _ h _ a => if h = 1 then some a else none
  | .trayPop _ h _ a => if h = 1 then some a else none
  | .trayCnt _ h _ a => if h = 1 then some a else none
  | .barArvb _ h _ a _ => if h = 1 then some a else none
  | .invk _ _ h _ a _ => if h = 1 then some a else none
  | .chitTest _ h _ a => if h = 1 then some a else none
  | .chitSlot _ h _ a => if h = 1 then some a else none
  | .poolScr _ h _ a => if h = 1 then some a else none
  | .poolMxs _ h _ a => if h = 1 then some a else none
  | .wmonCfg _ h _ a => if h = 1 then some a else none
  | .wmonRel _ h _ a => if h = 1 then some a else none
  | .wmonRdlo _ h _ a => if h = 1 then some a else none
  | .wmonRdhi _ h _ a => if h = 1 then some a else none
  | .brk _ h a => if h = 1 then some a else none
  | .refq _ h _ a => if h = 1 then some a else none
  | .locq _ h _ a => if h = 1 then some a else none
  | .place _ h _ a => if h = 1 then some a else none
  | .mload _ h _ a => if h = 1 then some a else none
  | .tsrOpen _ h a => if h = 1 then some a else none
  | .tsrClose _ h a => if h = 1 then some a else none
  | _ => none

/-- D as a source of CVT, where A has fewer elements than the target (R356). -/
def cvtReads (tag : Nat → BitVec 4) : Instr → List (Nat × Nat)
  | .cvt _ _ _ d a t _ => if tagCount (tag (fld a)) < tagCount t then reads d 1 else []
  | _ => []

/-- The register sources of an instruction in a lane, each as wide as the tag it meets (R273). -/
def LaneCtx.operandReads (c : LaneCtx) (i : Instr) : List (Nat × Nat) :=
  (sourceReads i ++ cvtReads c.tagSeen i).map (fun r =>
    if r.2 = 1 ∧ r.1 < 112 ∧ r.1 % 2 = 0 ∧ (tagReads i).contains r.1 = true ∧ isPairTag (c.tagSeen r.1) = true then (r.1, 2) else r)

/-- Whether a lane is active: its guard reads set (R6). -/
def LaneCtx.active (c : LaneCtx) (i : Instr) : Bool :=
  match c.guard ((guardOf i).getD 12) with
  | .ok b => b
  | .error _ => false

/-- The active lanes of the current instruction, in ascending order. -/
def activeLanes (i : Instr) (s : State) : List LaneCtx := (laneCtxs s).filter (fun c => c.active i)

/-- The latch entries after one more instruction: each serves the two instructions after its own (R160). -/
def agedLatch (l : List (Nat × Nat × Nat)) : List (Nat × Nat × Nat) :=
  (l.filter (fun e => decide (e.2.2 > 1))).map (fun e => (e.1, e.2.1, e.2.2 - 1))

/-- What a hold enters: field A of a v register, or of an even-aligned pair, as wide as the lowest active lane reads it (R160). -/
def heldOperand (i : Instr) (s : State) : Option (Nat × Nat) :=
  match holdOf i, (activeLanes i s).head? with
  | some a, some c =>
    match (c.operandReads i).find? (fun r => decide (r.1 = fld a)) with
    | some r => if r.1 < 112 ∧ (r.2 = 1 ∨ r.1 % 2 = 0) then some r else none
    | none => none
  | _, _ => none

/-- The operand latch after an instruction: entries last for two more instructions, and a hold enters as the newest of three (R160). -/
def holdLatch (i : Instr) (s : State) : State :=
  match s.cur with
  | none => s
  | some k =>
    match s.group? k with
    | none => s
    | some g =>
      let aged := agedLatch g.latch
      s.setGroup k { g with latch := match heldOperand i s with
        | some r => (aged ++ [(r.1, r.2, 2)]).drop (if aged.length ≥ 3 then aged.length - 2 else 0)
        | none => aged }

/-- The operand latch after an instruction that has no effect. -/
def ageLatch (s : State) : State :=
  match s.cur with
  | none => s
  | some k =>
    match s.group? k with
    | none => s
    | some g => s.setGroup k { g with latch := agedLatch g.latch }

/-- An instruction carried out lane by lane: class 00 subcode 0x04 in all members for a guard above 12 (R297); otherwise
each active lane's outcome, from the state at issue. -/
def runLanes (i : Instr) (f : LaneCtx → LaneOut) (s : State) : State :=
  let cs := laneCtxs s
  if decide (((guardOf i).getD 12).toNat > 12) then trapAll cs 4 s
  else applyLanes (cs.filterMap (laneOutcome i f)) (holdLatch i s)

/-- Class 00 in the lanes whose guard field g is set, for an instruction that has no effect (R319). -/
def trapGuarded (g : BitVec 4) (sb : Nat) (s : State) : State :=
  let cs := laneCtxs s
  if g.toNat > 12 then trapAll cs 4 s
  else
    applyLanes (cs.filterMap (fun c =>
      match c.guard g with
      | .error t => some (c, .error t)
      | .ok false => none
      | .ok true => some (c, .error (c.code00 sb)))) (ageLatch s)

/-- The guard field of the word of a rejected instruction: formats L, M and X have none, and the G of SEL selects (R292, R330). -/
def guardBits (v : Word) : BitVec 4 :=
  let g := field v 22 4
  let op := opOf v
  if op = 0x14 ∨ op = 0x15 ∨ op = 0x26 ∨ op = 0x3E then 12 else if op = 0x1F ∧ g.toNat ≤ 12 then 12 else g

/-- The words a rejected instruction takes, its guard field and its subcode; behind a PFX that it does not take, ILL and the
reserved opcodes keep their own, lower one (R308, R314, R320). -/
def rejected (e : NotDecoded) (ws : List Word) : Nat × BitVec 4 × Nat :=
  match e, ws with
  | .reserved, w :: v :: _ => if opOf w = 0x3E then (2, guardBits v, 3) else (1, guardBits w, 3)
  | .reserved, w :: _ => (1, guardBits w, 3)
  | .needsPfx, w :: _ => (1, guardBits w, 8)
  | .badPfx, _ :: v :: _ =>
    if opOf v = 0 then (2, 12, 1) else if opOf v = 0x3C ∨ opOf v = 0x3D then (2, 12, 2) else (2, guardBits v, 8)
  | _, _ => (1, 12, 8)

/-- The first trap that a check gives over a list of lanes. -/
def firstFault (chk : LaneCtx → Except Trap Unit) : List LaneCtx → Option Trap
  | [] => none
  | c :: t =>
    match chk c with
    | .error e => some e
    | .ok () => firstFault chk t

/-- An instruction carried out once for the warp (R410): `chk` is what every active lane's operands must meet; the effect is
that of the lowest active lane l0, which also writes the results of the others; a trap is taken in every active lane. -/
def runOnce (i : Instr) (chk : LaneCtx → Except Trap Unit) (f : LaneCtx → List LaneCtx → LaneOut) (s : State) : State :=
  let act := activeLanes i s
  runLanes i (fun c =>
    match firstFault chk act with
    | some t => .error t
    | none =>
      match act with
      | [] => .ok id
      | l0 :: _ =>
        match f l0 act with
        | .error t => .error t
        | .ok e => if c.lane = l0.lane then .ok e else .ok id) s

/-! ## Fixed-latency instructions -/

/-- What a fixed-latency instruction gives in a lane: its writes, its flags, its latency (R304). -/
structure AluOut where
  writes : List Write
  flags : Flags
  lat : Nat
  deriving DecidableEq, Repr

/-- A lane's result as an outcome: class 06 where an enabled flag is raised, else the flags and the writes (R285, R287). -/
def LaneCtx.finish (c : LaneCtx) (r : Except Trap AluOut) : LaneOut :=
  match r with
  | .error t => .error t
  | .ok o =>
    match arithTrap c.ten o.flags with
    | some t => .error t
    | none => .ok (fun s => raiseFlags c.tid.warp o.flags (c.writeAll o.lat o.writes s))

/-- A tag or field error of an evaluation as the trap of a lane (R274, R324). -/
def LaneCtx.evalTrap (c : LaneCtx) (fs : List Nat) : EvalErr → Trap
  | .tag sb which => tagTrap sb (nth 0 fs which)
  | .code sb => c.code00 sb

/-- The narrow port executes arithmetic and compares on 32-bit and 64-bit integer and raw tags only, and says so before any other check of
the sources (R151, R320). -/
def LaneCtx.narrowBad (c : LaneCtx) (op : Nat) (fs : List Nat) : Bool :=
  c.key.port == 1 && narrowArith op && fs.zipIdx.any (fun p =>
    decide (p.1 ≠ 120) && (match c.tagMet p.1 (2 * p.2) with
      | some t => !(isWord32 t || t == 5 || t == 6)
      | none => false))

/-- A result value under destination D: the destination checked (R294, R295), then its writes. -/
def LaneCtx.result (c : LaneCtx) (d : Nat) (v : Val) (flags : Flags) (lat : Nat) : Except Trap AluOut :=
  match c.dest d (isPairTag v.tag) with
  | .error t => .error t
  | .ok _ => .ok ⟨writesOf d v, flags, lat⟩

/-- An instruction of register sources and one destination: the port's tags, sources under R274, the evaluation, the
destination. `lat` gives the latency from the tags met. -/
def LaneCtx.compute (c : LaneCtx) (op : Nat) (fs : List Nat) (d : Nat) (lat : List (BitVec 4) → Nat)
    (f : List Val → Eval) : Except Trap AluOut :=
  if c.narrowBad op fs then .error (c.code00 0x10)
  else
    match c.sources fs with
    | .error t => .error t
    | .ok vs =>
      match f vs with
      | .error e => .error (c.evalTrap fs e)
      | .ok r => c.result d r.1 r.2 (lat (vs.map Val.tag))

/-- The first, second and third values of a list. -/
def val0 (vs : List Val) : Val := nth ⟨0, 0⟩ vs 0
/-- See `val0`. -/
def val1 (vs : List Val) : Val := nth ⟨0, 0⟩ vs 1
/-- See `val0`. -/
def val2 (vs : List Val) : Val := nth ⟨0, 0⟩ vs 2

/-- An instruction of fixed latency carried out: each active lane's result from the state at issue. -/
def runAlu (i : Instr) (f : LaneCtx → Except Trap AluOut) (s : State) : Host.Outcome State Fault Refusal :=
  .next (runLanes i (fun c => c.finish (f c)) s)

/-! ## Regions and blocking instructions (R252, R307) -/

/-- Whether a trailer word A marks a region entry: ENTRY, bit 19 (R300). -/
def Group.entry (g : Group) : Bool := g.trailerA.getLsbD 19

/-- The lowest lane of a warp that has not exited (R256). -/
def State.lowestLive (s : State) (w : WarpId) : Option Nat :=
  (List.range 32).find? (fun l => decide ((s.thread ⟨w, l⟩).st ≠ .exited))

/-- A thread at the issue of its run (R252): an entry sets REPC and counts RECN; a re-entry at REPC leaves both; either begins
the thread's count of MMAs anew (R256). -/
def enterRegion (k : GroupKey) (x : ThreadId) (s : State) : State :=
  match s.group? k with
  | none => s
  | some g =>
    let th := s.thread x
    let begins := g.entry || th.newRegion
    let th' := if th.reenter then { th with reenter := false, newRegion := false }
      else if begins then { th with repc := g.addr, recn := th.recn + 1, newRegion := false }
      else th
    s.setThread x (if th.reenter || begins then { th' with mmaBase := (s.warp x.warp).mmaCount } else th')

/-- What a blocking instruction does in a lane: passes with an effect, blocks on a condition, or traps. -/
inductive BlockOut where
  | pass (e : State → State)
  | block (w : WaitCond)
  | trap (t : Trap)

/-- A thread that stands BLOCKED before its run: it leaves the group, and the run has not issued for it (R152, R307). -/
def blockThread (w : WaitCond) (x : ThreadId) (s : State) : State :=
  let s := s.leaveGroup x
  s.setThread x { s.thread x with st := .blocked, wait := some w }

/-- One member of a blocking instruction: a lane that blocks leaves; every other one enters its region, then acts. -/
def applyBlock (k : GroupKey) (s : State) (r : LaneCtx × BlockOut) : State :=
  match r.2 with
  | .block w => blockThread w r.1.tid s
  | .pass e => e ((enterRegion k r.1.tid s).onThread r.1.tid (fun th => { th with wait := none }))
  | .trap t => takeTrap t r.1.tid (enterRegion k r.1.tid s)

/-- The outcome of one member of a blocking instruction; a lane whose guard is clear passes without waiting. -/
def blockOutcome (i : Instr) (f : LaneCtx → BlockOut) (c : LaneCtx) : LaneCtx × BlockOut :=
  match c.guard ((guardOf i).getD 12) with
  | .error t => (c, .trap t)
  | .ok false => (c, .pass id)
  | .ok true =>
    match encodingFault i with
    | some n => (c, .trap (c.code00 n))
    | none => (c, f c)

/-- A blocking instruction carried out: each member passes, blocks or traps, from the state at issue (R307). -/
def runBlocking (i : Instr) (f : LaneCtx → BlockOut) (s : State) : State :=
  match s.cur with
  | none => s
  | some k =>
    let cs := laneCtxs s
    if decide (((guardOf i).getD 12).toNat > 12) then trapAll cs 4 (cs.foldl (fun s c => enterRegion k c.tid s) s)
    else (cs.map (blockOutcome i f)).foldl (applyBlock k) (holdLatch i s)

end Sys2Proof.Machine
end

