-- ==== Sys2Proof/Machine/Integer.lean ====
section
/-! DEFINITION. Integer and floating arithmetic, logic, shifts, constants, comparison, selection and UNA (R323 to R335, R350 to
R354): what each lane computes, and each instruction's meaning. -/

namespace Sys2Proof.Machine

/-- ADD, SUB and MUL in a lane: `kind` 0, 1, 2 (R324, R351). -/
def laneArith (op kind : Nat) (pfx : Option (BitVec 26)) (d a b : BitVec 7) (c : LaneCtx) : Except Trap AluOut :=
  c.compute op [fld a, fld b] (fld d) (if kind = 2 then latMul else latArith) (fun vs =>
    evalArith kind c.fz (pfxRm (payload pfx)) (pfxSat (payload pfx)) (val0 vs) (val1 vs))

/-- ADD (R324, R325, R351). -/
def execAdd (pfx : Option (BitVec 26)) (g : BitVec 4) (h : BitVec 1) (d a b : BitVec 7) (s : State) :
    Host.Outcome State Fault Refusal := runAlu (.add pfx g h d a b) (laneArith 1 0 pfx d a b) s

/-- SUB (R324, R325, R351). -/
def execSub (pfx : Option (BitVec 26)) (g : BitVec 4) (h : BitVec 1) (d a b : BitVec 7) (s : State) :
    Host.Outcome State Fault Refusal := runAlu (.sub pfx g h d a b) (laneArith 2 1 pfx d a b) s

/-- MUL (R324, R351). -/
def execMul (pfx : Option (BitVec 26)) (g : BitVec 4) (h : BitVec 1) (d a b : BitVec 7) (s : State) :
    Host.Outcome State Fault Refusal := runAlu (.mul pfx g h d a b) (laneArith 3 2 pfx d a b) s

/-- MULH in a lane (R326). -/
def laneMulh (d a b : BitVec 7) (c : LaneCtx) : Except Trap AluOut :=
  c.compute 4 [fld a, fld b] (fld d) (fun _ => 4) (fun vs => evalMulh (val0 vs) (val1 vs))

/-- MULH (R326). -/
def execMulh (pfx : Option (BitVec 26)) (g : BitVec 4) (h : BitVec 1) (d a b : BitVec 7) (s : State) :
    Host.Outcome State Fault Refusal := runAlu (.mulh pfx g h d a b) (laneMulh d a b) s

/-- FMA and FMS in a lane: D is read and written (R351). -/
def laneFma (op : Nat) (sub : Bool) (pfx : Option (BitVec 26)) (d a b : BitVec 7) (c : LaneCtx) : Except Trap AluOut :=
  c.compute op [fld a, fld b, fld d] (fld d) latMul (fun vs =>
    evalFma sub c.fz (pfxRm (payload pfx)) (pfxSat (payload pfx)) (val0 vs) (val1 vs) (val2 vs))

/-- FMA (R351, R352). -/
def execFma (pfx : Option (BitVec 26)) (g : BitVec 4) (h : BitVec 1) (d a b : BitVec 7) (s : State) :
    Host.Outcome State Fault Refusal := runAlu (.fma pfx g h d a b) (laneFma 5 false pfx d a b) s

/-- FMS (R351, R352). -/
def execFms (pfx : Option (BitVec 26)) (g : BitVec 4) (h : BitVec 1) (d a b : BitVec 7) (s : State) :
    Host.Outcome State Fault Refusal := runAlu (.fms pfx g h d a b) (laneFma 6 true pfx d a b) s

/-- DOT in a lane (R355). -/
def laneDot (pfx : Option (BitVec 26)) (d a b : BitVec 7) (c : LaneCtx) : Except Trap AluOut :=
  c.compute 7 [fld a, fld b, fld d] (fld d) (fun _ => 4) (fun vs =>
    evalDot (pfxRm (payload pfx)) (pfxSat (payload pfx)) (val0 vs) (val1 vs) (val2 vs))

/-- DOT (R355). -/
def execDot (pfx : Option (BitVec 26)) (g : BitVec 4) (h : BitVec 1) (d a b : BitVec 7) (s : State) :
    Host.Outcome State Fault Refusal := runAlu (.dot pfx g h d a b) (laneDot pfx d a b) s

/-- MIN and MAX in a lane (R325, R327, R354). -/
def laneMinMax (op : Nat) (max : Bool) (d a b : BitVec 7) (c : LaneCtx) : Except Trap AluOut :=
  c.compute op [fld a, fld b] (fld d) latArith (fun vs => evalMinMax max c.fz (val0 vs) (val1 vs))

/-- MIN (R325, R327, R354). -/
def execMin (g : BitVec 4) (h : BitVec 1) (d a b : BitVec 7) (s : State) : Host.Outcome State Fault Refusal :=
  runAlu (.min g h d a b) (laneMinMax 8 false d a b) s

/-- MAX (R325, R327, R354). -/
def execMax (g : BitVec 4) (h : BitVec 1) (d a b : BitVec 7) (s : State) : Host.Outcome State Fault Refusal :=
  runAlu (.max g h d a b) (laneMinMax 9 true d a b) s

/-! ## Logic and shifts -/

/-- A logic instruction in a lane (R328). -/
def laneLogic (op : Nat) (f : BitVec 64 → BitVec 64 → BitVec 64) (d a b : BitVec 7) (c : LaneCtx) : Except Trap AluOut :=
  c.compute op [fld a, fld b] (fld d) latLogic (fun vs => evalLogic f (val0 vs) (val1 vs))

/-- AND (R328). -/
def execAnd (g : BitVec 4) (h : BitVec 1) (d a b : BitVec 7) (s : State) : Host.Outcome State Fault Refusal :=
  runAlu (.and g h d a b) (laneLogic 10 (· &&& ·) d a b) s

/-- OR (R328). -/
def execOr (g : BitVec 4) (h : BitVec 1) (d a b : BitVec 7) (s : State) : Host.Outcome State Fault Refusal :=
  runAlu (.or g h d a b) (laneLogic 11 (· ||| ·) d a b) s

/-- XOR (R328). -/
def execXor (g : BitVec 4) (h : BitVec 1) (d a b : BitVec 7) (s : State) : Host.Outcome State Fault Refusal :=
  runAlu (.xor g h d a b) (laneLogic 12 (· ^^^ ·) d a b) s

/-- ANDN (R328). -/
def execAndn (g : BitVec 4) (h : BitVec 1) (d a b : BitVec 7) (s : State) : Host.Outcome State Fault Refusal :=
  runAlu (.andn g h d a b) (laneLogic 13 (fun x y => x &&& ~~~y) d a b) s

/-- SHL and SHR in a lane (R329). -/
def laneShift (op : Nat) (left : Bool) (d a b : BitVec 7) (c : LaneCtx) : Except Trap AluOut :=
  c.compute op [fld a, fld b] (fld d) latLogic (fun vs =>
    match shiftAmount (val1 vs) with
    | .error e => .error e
    | .ok n => evalShift left (val0 vs) n)

/-- SHLI and SHRI in a lane: the amount is IMM7 zero-extended (R329). -/
def laneShiftImm (op : Nat) (left : Bool) (d a i : BitVec 7) (c : LaneCtx) : Except Trap AluOut :=
  c.compute op [fld a] (fld d) latLogic (fun vs => evalShift left (val0 vs) i.toNat)

/-- SHL (R329). -/
def execShl (g : BitVec 4) (h : BitVec 1) (d a b : BitVec 7) (s : State) : Host.Outcome State Fault Refusal :=
  runAlu (.shl g h d a b) (laneShift 14 true d a b) s

/-- SHR (R329). -/
def execShr (g : BitVec 4) (h : BitVec 1) (d a b : BitVec 7) (s : State) : Host.Outcome State Fault Refusal :=
  runAlu (.shr g h d a b) (laneShift 15 false d a b) s

/-- SHLI (R329). -/
def execShli (g : BitVec 4) (h : BitVec 1) (d a i : BitVec 7) (s : State) : Host.Outcome State Fault Refusal :=
  runAlu (.shli g h d a i) (laneShiftImm 17 true d a i) s

/-- SHRI (R329). -/
def execShri (g : BitVec 4) (h : BitVec 1) (d a i : BitVec 7) (s : State) : Host.Outcome State Fault Refusal :=
  runAlu (.shri g h d a i) (laneShiftImm 18 false d a i) s

/-- ADDI in a lane: the signed immediate added as a value (R324, R325). -/
def laneAddi (pfx : Option (BitVec 26)) (d a i : BitVec 7) (c : LaneCtx) : Except Trap AluOut :=
  c.compute 0x10 [fld a] (fld d) latArith (fun vs =>
    evalAddi (pfxRm (payload pfx)) (pfxSat (payload pfx)) (val0 vs) i.toInt)

/-- ADDI (R324, R325). -/
def execAddi (pfx : Option (BitVec 26)) (g : BitVec 4) (h : BitVec 1) (d a i : BitVec 7) (s : State) :
    Host.Outcome State Fault Refusal := runAlu (.addi pfx g h d a i) (laneAddi pfx d a i) s

/-- ANDI in a lane: the immediate sign-extended to the width of A (R328). -/
def laneAndi (d a i : BitVec 7) (c : LaneCtx) : Except Trap AluOut :=
  c.compute 0x13 [fld a] (fld d) latLogic (fun vs =>
    evalLogic (· &&& ·) (val0 vs) ⟨i.signExtend 64, (val0 vs).tag⟩)

/-- ANDI (R328). -/
def execAndi (g : BitVec 4) (h : BitVec 1) (d a i : BitVec 7) (s : State) : Host.Outcome State Fault Refusal :=
  runAlu (.andi g h d a i) (laneAndi d a i) s

/-! ## Constants -/

/-- MOVI in a lane (R331). -/
def laneMovi (d : BitVec 7) (i : BitVec 19) (c : LaneCtx) : Except Trap AluOut :=
  c.result (fld d) ⟨BitVec.setWidth 64 (i.signExtend 32), tagS32⟩ 0 2

/-- MOVI: every member lane, without a guard (R330, R331). -/
def execMovi (d : BitVec 7) (i : BitVec 19) (s : State) : Host.Outcome State Fault Refusal :=
  runAlu (.movi d i) (laneMovi d i) s

/-- MOVH in a lane: D[31:13] replaced, D[12:0] and the tag kept, one register whatever its tag (R331). -/
def laneMovh (d : BitVec 7) (i : BitVec 19) (c : LaneCtx) : Except Trap AluOut :=
  if d = 127 then .ok ⟨[], 0, 2⟩
  else
    match c.reg (fld d) 0 with
    | .error t => .error t
    | .ok r =>
      match c.dest (fld d) false with
      | .error t => .error t
      | .ok _ => .ok ⟨[.reg (fld d) (i ++ r.data.extractLsb' 0 13) r.tag], 0, 2⟩

/-- MOVH (R330, R331). -/
def execMovh (d : BitVec 7) (i : BitVec 19) (s : State) : Host.Outcome State Fault Refusal :=
  runAlu (.movh d i) (laneMovh d i) s

/-! ## Comparison and selection -/

/-- The predicate pair that a comparison writes (R313). -/
def pairWrites (i : BitVec 3) (r : Bool) : List Write := [.pred (2 * i.toNat) r, .pred (2 * i.toNat + 1) (!r)]

/-- CMP in a lane (R332). -/
def laneCmp (i : BitVec 3) (cond : BitVec 4) (a b : BitVec 7) (c : LaneCtx) : Except Trap AluOut :=
  if c.narrowBad 0x16 [fld a, fld b] then .error (c.code00 0x10)
  else
    match c.sources [fld a, fld b] with
    | .error t => .error t
    | .ok vs =>
      match evalCmp cond.toNat (val0 vs) (val1 vs) with
      | .error e => .error (c.evalTrap [fld a, fld b] e)
      | .ok r => .ok ⟨pairWrites i r.1, r.2, latArith (vs.map Val.tag)⟩

/-- CMP (R332). -/
def execCmp (g : BitVec 4) (h : BitVec 1) (i : BitVec 3) (c : BitVec 4) (a b : BitVec 7) (s : State) :
    Host.Outcome State Fault Refusal := runAlu (.cmp g h i c a b) (laneCmp i c a b) s

/-- CMPI in a lane (R332). -/
def laneCmpi (i : BitVec 3) (cond : BitVec 4) (a m : BitVec 7) (c : LaneCtx) : Except Trap AluOut :=
  if c.narrowBad 0x17 [fld a] then .error (c.code00 0x10)
  else
    match c.sources [fld a] with
    | .error t => .error t
    | .ok vs =>
      let r := evalCmpi cond.toNat (val0 vs) m.toInt
      .ok ⟨pairWrites i r.1, r.2, latArith (vs.map Val.tag)⟩

/-- CMPI (R332). -/
def execCmpi (g : BitVec 4) (h : BitVec 1) (i : BitVec 3) (c : BitVec 4) (a m : BitVec 7) (s : State) :
    Host.Outcome State Fault Refusal := runAlu (.cmpi g h i c a m) (laneCmpi i c a m) s

/-- A source of SEL read without the tag 15 check, which only the chosen one takes (R333). -/
def LaneCtx.selSource (c : LaneCtx) (f n : Nat) : Except Trap Val :=
  match c.reg f n with
  | .error t => .error t
  | .ok r => if r.tag = 15 then .ok ⟨BitVec.setWidth 64 r.data, 15⟩ else c.src f n

/-- SEL in a lane: the selector chooses A or B with its tag (R333). -/
def laneSel (g : BitVec 4) (d a b : BitVec 7) (c : LaneCtx) : Except Trap AluOut :=
  match c.predVal g.toNat with
  | .error t => .error t
  | .ok p =>
    let ra := c.selSource (fld a) 0
    let rb := c.selSource (fld b) 2
    let ra' := if a = 120 then zrLike (if b = 120 then none else some rb) else ra
    let rb' := if b = 120 then zrLike (if a = 120 then none else some ra) else rb
    match allOk [ra', rb'] with
    | .error t => .error t
    | .ok vs =>
      let v := if p then val0 vs else val1 vs
      if v.tag = 15 then .error (tagTrap 1 (fld (if p then a else b)))
      else if isPairTag (val0 vs).tag ≠ isPairTag (val1 vs).tag then .error (tagTrap 4 (fld b))
      else c.result (fld d) v 0 (latLogic (vs.map Val.tag))

/-- SEL: G is a selector, every member lane is active, and 13 to 15 are class 00 in all members (R330, R333). -/
def execSel (g : BitVec 4) (h : BitVec 1) (d a b : BitVec 7) (s : State) : Host.Outcome State Fault Refusal :=
  if g.toNat > 12 then .next (trapAll (laneCtxs s) 4 s)
  else runAlu (.sel g h d a b) (laneSel g d a b) s

/-! ## UNA -/

/-- A UNA function in a lane (R334). -/
def laneUna (f : Val → Eval) (d a : BitVec 7) (c : LaneCtx) : Except Trap AluOut :=
  c.compute 0x18 [fld a] (fld d) latLogic (fun vs => f (val0 vs))

/-- MOV (R334). -/
def execMov (g : BitVec 4) (h : BitVec 1) (d a : BitVec 7) (s : State) : Host.Outcome State Fault Refusal :=
  runAlu (.mov g h d a) (laneUna (fun v => .ok (v, 0)) d a) s

/-- NOT (R334). -/
def execNot (g : BitVec 4) (h : BitVec 1) (d a : BitVec 7) (s : State) : Host.Outcome State Fault Refusal :=
  runAlu (.not g h d a) (laneUna (fun v => evalLogic (fun x _ => ~~~x) v v) d a) s

/-- NEG (R334). -/
def execNeg (g : BitVec 4) (h : BitVec 1) (d a : BitVec 7) (s : State) : Host.Outcome State Fault Refusal :=
  runAlu (.neg g h d a) (laneUna (evalNegAbs true) d a) s

/-- ABS (R334). -/
def execAbs (g : BitVec 4) (h : BitVec 1) (d a : BitVec 7) (s : State) : Host.Outcome State Fault Refusal :=
  runAlu (.abs g h d a) (laneUna (evalNegAbs false) d a) s

/-- CLZ (R334). -/
def execClz (g : BitVec 4) (h : BitVec 1) (d a : BitVec 7) (s : State) : Host.Outcome State Fault Refusal :=
  runAlu (.clz g h d a) (laneUna (evalCount clzBits) d a) s

/-- POPC (R334). -/
def execPopc (g : BitVec 4) (h : BitVec 1) (d a : BitVec 7) (s : State) : Host.Outcome State Fault Refusal :=
  runAlu (.popc g h d a) (laneUna (evalCount popBits) d a) s

/-- BREV (R334). -/
def execBrev (g : BitVec 4) (h : BitVec 1) (d a : BitVec 7) (s : State) : Host.Outcome State Fault Refusal :=
  runAlu (.brev g h d a) (laneUna (evalReverse 1) d a) s

/-- BSWAP (R334). -/
def execBswap (g : BitVec 4) (h : BitVec 1) (d a : BitVec 7) (s : State) : Host.Outcome State Fault Refusal :=
  runAlu (.bswap g h d a) (laneUna (evalReverse 8) d a) s

/-- CLS (R334). -/
def execCls (g : BitVec 4) (h : BitVec 1) (d a : BitVec 7) (s : State) : Host.Outcome State Fault Refusal :=
  runAlu (.cls g h d a) (laneUna (evalCount clsBits) d a) s

/-- CTZ (R334). -/
def execCtz (g : BitVec 4) (h : BitVec 1) (d a : BitVec 7) (s : State) : Host.Outcome State Fault Refusal :=
  runAlu (.ctz g h d a) (laneUna (evalCount ctzBits) d a) s

/-- TAGOF in a lane: the tag of A, unchecked (R335). -/
def laneTagof (d a : BitVec 7) (c : LaneCtx) : Except Trap AluOut :=
  match c.reg (fld a) 0 with
  | .error t => .error t
  | .ok r => c.result (fld d) ⟨BitVec.setWidth 64 r.tag, tagN32⟩ 0 2

/-- TAGOF (R335). -/
def execTagof (g : BitVec 4) (h : BitVec 1) (d a : BitVec 7) (s : State) : Host.Outcome State Fault Refusal :=
  runAlu (.tagof g h d a) (laneTagof d a) s

/-- The bits RETAG writes: a pair for a 64-bit tag, one register otherwise; zr reads zero of the width (R335). -/
def LaneCtx.retagBits (c : LaneCtx) (a t : Nat) (pair : Bool) : Except Trap (BitVec 64) :=
  if a = 120 then .ok 0
  else if pair then
    match c.srcPair a t with
    | .error e => .error e
    | .ok r => .ok r.1
  else
    match c.reg a t with
    | .error e => .error e
    | .ok r => if r.tag = 15 then .error (tagTrap 1 a) else .ok (BitVec.setWidth 64 r.data)

/-- RETAG in a lane (R335). -/
def laneRetag (d a : BitVec 7) (t : BitVec 4) (c : LaneCtx) : Except Trap AluOut :=
  match c.retagBits (fld a) 0 (isPairTag t) with
  | .error e => .error e
  | .ok x => c.result (fld d) (retagVal x t) 0 2

/-- RETAG (R335). -/
def execRetag (g : BitVec 4) (h : BitVec 1) (d a : BitVec 7) (t : BitVec 4) (s : State) :
    Host.Outcome State Fault Refusal := runAlu (.retag g h d a t) (laneRetag d a t) s

/-! ## CVT -/

/-- D's raw bits as CVT reads them where A has fewer elements than the target: whatever its tag, nil reading zero (R356). -/
def LaneCtx.oldBits (c : LaneCtx) (d : Nat) : Except Trap (BitVec 64) :=
  if d = 127 then .ok 0
  else
    match c.reg d 4 with
    | .error t => .error t
    | .ok r => .ok (BitVec.setWidth 64 r.data)

/-- The seed of a stochastic CVT, whatever its tag (R359). -/
def LaneCtx.seedBits (c : LaneCtx) (q : BitVec 26) : Except Trap (BitVec 32) :=
  if pfxSv q then
    match c.reg (fld (pfxSeed q)) 6 with
    | .error t => .error t
    | .ok r => .ok r.data
  else .ok 0

/-- CVT in a lane (R356 to R359). -/
def laneCvt (pfx : Option (BitVec 26)) (d a : BitVec 7) (t : BitVec 4) (r : BitVec 3) (c : LaneCtx) : Except Trap AluOut :=
  let q := payload pfx
  match c.sources [fld a] with
  | .error e => .error e
  | .ok vs =>
    let v := val0 vs
    match (if tagCount v.tag < tagCount t then c.oldBits (fld d) else .ok 0), c.seedBits q, c.dest (fld d) (isPairTag t) with
    | .error e, _, _ => .error e
    | _, .error e, _ => .error e
    | _, _, .error e => .error e
    | .ok old, .ok seed, .ok _ =>
      let o := evalCvt t r (pfxSat q) v old seed
      let sw := if r = 5 then [Write.reg (fld (pfxSeed q)) o.2.2 tagN32] else []
      .ok ⟨writesOf (fld d) o.1 ++ sw, o.2.1, 4⟩

/-- CVT (R356 to R359). -/
def execCvt (pfx : Option (BitVec 26)) (g : BitVec 4) (h : BitVec 1) (d a : BitVec 7) (t : BitVec 4) (r : BitVec 3)
    (s : State) : Host.Outcome State Fault Refusal := runAlu (.cvt pfx g h d a t r) (laneCvt pfx d a t r) s

end Sys2Proof.Machine
end

