-- ==== Sys2Proof/Machine/Predicates.lean ====
section
/-! DEFINITION. Predicate logic, votes, shuffles and reductions (R336 to R341). -/

namespace Sys2Proof.Machine

/-! ## Predicate logic (R337) -/

/-- A predicate function of two predicates in a lane (R337). -/
def lanePred2 (f : Bool → Bool → Bool) (p q r : BitVec 4) (c : LaneCtx) : Except Trap AluOut :=
  match allOk [c.predVal r.toNat, c.predVal q.toNat 2] with
  | .error t => .error t
  | .ok vs => .ok ⟨[.pred p.toNat (f (nth false vs 0) (nth false vs 1))], 0, 2⟩

/-- PAND: p(PD) := p(PA) AND p(PB); PA is [12:9] and PB [16:13] (R337). -/
def execPand (g p q r : BitVec 4) (s : State) : Host.Outcome State Fault Refusal :=
  runAlu (.pand g p q r) (lanePred2 (fun a b => a && b) p q r) s

/-- POR (R337). -/
def execPor (g p q r : BitVec 4) (s : State) : Host.Outcome State Fault Refusal :=
  runAlu (.por g p q r) (lanePred2 (fun a b => a || b) p q r) s

/-- PXOR (R337). -/
def execPxor (g p q r : BitVec 4) (s : State) : Host.Outcome State Fault Refusal :=
  runAlu (.pxor g p q r) (lanePred2 (fun a b => a != b) p q r) s

/-- PANDN (R337). -/
def execPandn (g p q r : BitVec 4) (s : State) : Host.Outcome State Fault Refusal :=
  runAlu (.pandn g p q r) (lanePred2 (fun a b => a && !b) p q r) s

/-- P2R in a lane: all twelve predicates (R337). -/
def laneP2r (d : BitVec 7) (c : LaneCtx) : Except Trap AluOut :=
  match allOk ((List.range 12).map (fun p => c.pred p 1)) with
  | .error t => .error t
  | .ok bs => c.result (fld d) ⟨BitVec.ofNat 64 (ofBits bs.reverse), tagN32⟩ 0 2

/-- P2R (R337). -/
def execP2r (g : BitVec 4) (d : BitVec 7) (s : State) : Host.Outcome State Fault Refusal :=
  runAlu (.p2r g d) (laneP2r d) s

/-- A 32-bit source that must carry B32, S32 or N32 (R337, R340, R410). -/
def LaneCtx.word (c : LaneCtx) (f n : Nat) : Except Trap (BitVec 32) :=
  if f = 120 then .ok 0
  else
    match c.src f n with
    | .error t => .error t
    | .ok v => if isWord32 v.tag then .ok (v.bits.extractLsb' 0 32) else .error (tagTrap (if isPairTag v.tag then 4 else 2) f)

/-- R2P in a lane: p_i := A[i] (R337). -/
def laneSetp (a : BitVec 7) (c : LaneCtx) : Except Trap AluOut :=
  match c.word (fld a) 0 with
  | .error t => .error t
  | .ok x => .ok ⟨(List.range 12).map (fun i => .pred i (x.getLsbD i)), 0, 2⟩

/-- SETP, function R2P (R337). -/
def execSetp (g : BitVec 4) (h : BitVec 1) (a : BitVec 7) (s : State) : Host.Outcome State Fault Refusal :=
  runAlu (.setp g h a) (laneSetp a) s

/-! ## Lane groups and votes (R338, R339) -/

/-- The lane group width of a lane's warp (R338). -/
def LaneCtx.width (c : LaneCtx) : Nat := 2 ^ ((c.warp.lgw.extractLsb' 0 3).toNat + 1)

/-- The first lane of a lane's group (R338). -/
def LaneCtx.base (c : LaneCtx) : Nat := c.width * (c.lane / c.width)

/-- The lanes of a list in the lane group of a lane. -/
def LaneCtx.peers (c : LaneCtx) (act : List LaneCtx) : List LaneCtx :=
  act.filter (fun x => decide (x.lane / c.width = c.lane / c.width))

/-- The value of a predicate in a peer; one read too early under CHK counts as clear, as that lane traps. -/
def LaneCtx.predOr (c : LaneCtx) (p : Nat) : Bool :=
  match c.predVal p with
  | .ok b => b
  | .error _ => false

/-- The votes of a lane's group: lane and value (R339). -/
def LaneCtx.votes (c : LaneCtx) (act : List LaneCtx) (p : Nat) : List (Nat × Bool) :=
  (c.peers act).map (fun x => (x.lane, x.predOr p))

/-- A vote that writes a predicate (R339). -/
def laneVote (f : List (Nat × Bool) → Bool) (act : List LaneCtx) (p a : BitVec 4) (c : LaneCtx) : Except Trap AluOut :=
  match c.predVal a.toNat with
  | .error t => .error t
  | .ok _ => .ok ⟨[.pred p.toNat (f (c.votes act a.toNat))], 0, 4⟩

/-- VANY (R339). -/
def execVany (g p a : BitVec 4) (s : State) : Host.Outcome State Fault Refusal :=
  runAlu (.vany g p a) (laneVote (fun l => l.any Prod.snd) (activeLanes (.vany g p a) s) p a) s

/-- VALL (R339). -/
def execVall (g p a : BitVec 4) (s : State) : Host.Outcome State Fault Refusal :=
  runAlu (.vall g p a) (laneVote (fun l => l.all Prod.snd) (activeLanes (.vall g p a) s) p a) s

/-- VUNI (R339). -/
def execVuni (g p a : BitVec 4) (s : State) : Host.Outcome State Fault Refusal :=
  runAlu (.vuni g p a) (laneVote (fun l => l.all Prod.snd || l.all (fun x => !x.2)) (activeLanes (.vuni g p a) s) p a) s

/-- VBAL in a lane: bit k for lane base + k of the group (R339). -/
def laneVbal (act : List LaneCtx) (d : BitVec 7) (a : BitVec 4) (c : LaneCtx) : Except Trap AluOut :=
  match c.predVal a.toNat with
  | .error t => .error t
  | .ok _ =>
    let m := (c.votes act a.toNat).foldl (fun acc v => if v.2 then acc + 2 ^ (v.1 - c.base) else acc) 0
    c.result (fld d) ⟨BitVec.ofNat 64 m, tagN32⟩ 0 4

/-- VBAL (R339). -/
def execVbal (g : BitVec 4) (d : BitVec 7) (a : BitVec 4) (s : State) : Host.Outcome State Fault Refusal :=
  runAlu (.vbal g d a) (laneVbal (activeLanes (.vbal g d a) s) d a) s

/-! ## Shuffles (R340) -/

/-- Source A of a lane for a shuffle: a fault of the lane's own, or the value with its tag fault kept for whoever writes it. -/
def LaneCtx.shuffleSrc (c : LaneCtx) (a : Nat) : Except Trap (Except Trap Val) :=
  if a = 120 then .ok (.ok ⟨0, tagB32⟩)
  else
    match c.src a 0 with
    | .ok v => .ok (.ok v)
    | .error t => if t.cls = 1 then .ok (.error t) else .error t

/-- A lane of a shuffle, given the lanes that trap: A of its source lane, which `plan` names, where that is an active lane of its group and
takes no trap, else its own A; the tag of what it writes is checked (R340). -/
def shuffleOut (act : List LaneCtx) (d a : Nat) (plan : LaneCtx → Except Trap (Option Nat)) (bad : List Nat) (c : LaneCtx) : Except Trap AluOut :=
  match plan c, c.shuffleSrc a with
  | .error t, _ => .error t
  | .ok _, .error t => .error t
  | .ok src, .ok mine =>
    let from' := match (c.peers act).find? (fun x => some x.lane == src && !bad.contains x.lane) with
      | some x => (match x.shuffleSrc a with | .ok v => v | .error _ => mine)
      | none => mine
    match from' with
    | .error t => .error t
    | .ok v => c.result d v 0 4

/-- The lanes that trap in a shuffle, judged again until they agree with what they were judged by; n bounds the rounds, and where lanes name
one another in a ring the last stands (log 129). -/
def shuffleTraps (act : List LaneCtx) (d a : Nat) (plan : LaneCtx → Except Trap (Option Nat)) : Nat → List Nat → List Nat
  | 0, bad => bad
  | n + 1, bad =>
    let next := (act.filter (fun c => match shuffleOut act d a plan bad c with | .ok _ => false | .error _ => true)).map LaneCtx.lane
    if next = bad then bad else shuffleTraps act d a plan n next

/-- A shuffle carried out. -/
def runShuffle (i : Instr) (d a : BitVec 7) (plan : LaneCtx → Except Trap (Option Nat)) (s : State) : Host.Outcome State Fault Refusal :=
  let act := activeLanes i s
  let own (c : LaneCtx) : Except Trap (Option Nat) := match c.ownFault i with | some n => .error (c.code00 n) | none => plan c
  runAlu i (shuffleOut act (fld d) (fld a) own (shuffleTraps act (fld d) (fld a) own 33 [])) s

/-- The source lane of SHFL (R340). -/
def shflSource (b : BitVec 7) (c : LaneCtx) : Except Trap (Option Nat) :=
  (c.word (fld b) 2).map (fun n => if n.toNat < c.width then some (c.base + n.toNat) else none)

/-- SHFL (R340). -/
def execShfl (g : BitVec 4) (h : BitVec 1) (d a b : BitVec 7) (s : State) : Host.Outcome State Fault Refusal :=
  runShuffle (.shfl g h d a b) d a (shflSource b) s

/-- The source lane of SHFI (R340). -/
def shfiSource (i : BitVec 7) (base lane : Nat) : Option Nat :=
  let n := (i.extractLsb' 0 5).toNat
  match (i.extractLsb' 5 2).toNat with
  | 0 => some (base + n)
  | 1 => if n ≤ lane then some (lane - n) else none
  | 2 => some (lane + n)
  | _ => some (lane ^^^ n)

/-- SHFI (R340). -/
def execShfi (g : BitVec 4) (h : BitVec 1) (d a i : BitVec 7) (s : State) : Host.Outcome State Fault Refusal :=
  runShuffle (.shfi g h d a i) d a (fun c => .ok (shfiSource i c.base c.lane)) s

/-! ## Reductions (R341) -/

/-- The functions of RED (R341). -/
inductive RedFn where
  | add | min | max | and | or | xor
  deriving DecidableEq, Repr

/-- The tags a reduction accepts (R341); B32 counts as N32 for MIN and MAX too (log 64). -/
def redTag (f : RedFn) (t : BitVec 4) : Bool :=
  match f with
  | .add => t == 0 || isIntTag t || isFloatTag t
  | .min | .max => t == 0 || isIntTag t || isFloatTag t || t == 14
  | _ => true

/-- One element of a reduction over the lanes' elements (R341). -/
def redElem (f : RedFn) (t : BitVec 4) (xs : List Nat) : Nat × Flags :=
  match f with
  | .add =>
    if isFloatTag t then
      let sm := extSum false (xs.map (elemValue t))
      let r := roundTag t .rne false sm.1
      (r.1, r.2 ||| sm.2)
    else (wrapInt (tagWidth t) ((xs.map (elemInt t)).foldl (· + ·) 0), 0)
  | .min | .max =>
    match xs with
    | [] => (0, 0)
    | [x] => minMaxElem (decide (f = .max)) t t t false x x
    | x :: rest => rest.foldl (fun acc y =>
        let r := minMaxElem (decide (f = .max)) t t t false acc.1 y
        (r.1, acc.2 ||| r.2)) (x, 0)
  | .and => (xs.foldl (· &&& ·) (2 ^ tagWidth t - 1), 0)
  | .or => (xs.foldl (· ||| ·) 0, 0)
  | .xor => (xs.foldl (· ^^^ ·) 0, 0)

/-- A reduction of values of one tag: element by element. -/
def redVals (f : RedFn) (t : BitVec 4) (vs : List Val) : Val × Flags :=
  packWith t ((List.range (tagCount t)).map (fun e => redElem f t (vs.map (fun v => v.elem e))))

/-- The value of A of a lane, where it reads without a fault. -/
def LaneCtx.redSrc (c : LaneCtx) (a : Nat) : Option Val :=
  match c.sources [a] with
  | .ok vs => some (val0 vs)
  | .error _ => none

/-- Whether a lane's read of A ends in a tag fault, which leaves its group without one common tag. -/
def LaneCtx.redTagFault (c : LaneCtx) (a : Nat) : Bool :=
  match c.sources [a] with
  | .ok _ => false
  | .error t => decide (t.cls = 1)

/-- RED in a lane: `pick` chooses the lanes that are combined, by lane number against the reading lane's (R341). -/
def laneRed (f : RedFn) (pick : Nat → Nat → Bool) (act : List LaneCtx) (d a : BitVec 7) (c : LaneCtx) : Except Trap AluOut :=
  match c.sources [fld a] with
  | .error t => .error t
  | .ok vs =>
    let t := (val0 vs).tag
    let ps := (c.peers act).filterMap (fun x => (x.redSrc (fld a)).map (fun v => (x.lane, v)))
    if !redTag f t || ps.any (fun p => p.2.tag != t) || (c.peers act).any (fun x => x.redTagFault (fld a)) then
      .error (tagTrap 2 (fld a))
    else
      let chosen := (ps.filter (fun p => pick p.1 c.lane)).map Prod.snd
      let r := if chosen.isEmpty then (⟨0, t⟩, 0) else redVals f t chosen
      c.result (fld d) r.1 r.2 8

/-- Every lane of the group is combined. -/
def pickAll (_ _ : Nat) : Bool := true
/-- Lanes up to the reading one: SCANI. -/
def pickUpTo (k l : Nat) : Bool := decide (k ≤ l)
/-- Lanes below the reading one: SCANX. -/
def pickBelow (k l : Nat) : Bool := decide (k < l)

/-- RED ADD (R341). -/
def execRedAdd (g : BitVec 4) (h : BitVec 1) (d a : BitVec 7) (s : State) : Host.Outcome State Fault Refusal :=
  runAlu (.redAdd g h d a) (laneRed .add pickAll (activeLanes (.redAdd g h d a) s) d a) s

/-- RED MIN (R341). -/
def execRedMin (g : BitVec 4) (h : BitVec 1) (d a : BitVec 7) (s : State) : Host.Outcome State Fault Refusal :=
  runAlu (.redMin g h d a) (laneRed .min pickAll (activeLanes (.redMin g h d a) s) d a) s

/-- RED MAX (R341). -/
def execRedMax (g : BitVec 4) (h : BitVec 1) (d a : BitVec 7) (s : State) : Host.Outcome State Fault Refusal :=
  runAlu (.redMax g h d a) (laneRed .max pickAll (activeLanes (.redMax g h d a) s) d a) s

/-- RED AND (R341). -/
def execRedAnd (g : BitVec 4) (h : BitVec 1) (d a : BitVec 7) (s : State) : Host.Outcome State Fault Refusal :=
  runAlu (.redAnd g h d a) (laneRed .and pickAll (activeLanes (.redAnd g h d a) s) d a) s

/-- RED OR (R341). -/
def execRedOr (g : BitVec 4) (h : BitVec 1) (d a : BitVec 7) (s : State) : Host.Outcome State Fault Refusal :=
  runAlu (.redOr g h d a) (laneRed .or pickAll (activeLanes (.redOr g h d a) s) d a) s

/-- RED XOR (R341). -/
def execRedXor (g : BitVec 4) (h : BitVec 1) (d a : BitVec 7) (s : State) : Host.Outcome State Fault Refusal :=
  runAlu (.redXor g h d a) (laneRed .xor pickAll (activeLanes (.redXor g h d a) s) d a) s

/-- RED SCANI (R341). -/
def execRedScani (g : BitVec 4) (h : BitVec 1) (d a : BitVec 7) (s : State) : Host.Outcome State Fault Refusal :=
  runAlu (.redScani g h d a) (laneRed .add pickUpTo (activeLanes (.redScani g h d a) s) d a) s

/-- RED SCANX (R341). -/
def execRedScanx (g : BitVec 4) (h : BitVec 1) (d a : BitVec 7) (s : State) : Host.Outcome State Fault Refusal :=
  runAlu (.redScanx g h d a) (laneRed .add pickBelow (activeLanes (.redScanx g h d a) s) d a) s

end Sys2Proof.Machine
end

