-- ==== Sys2Proof/Machine/Control.lean ====
section
/-! DEFINITION. The register window, microprograms, control transfers and meeting (R342 to R349, R425). -/

namespace Sys2Proof.Machine

/-! ## Operands of 64 bits (R346, R365, R410) -/

/-- An even-aligned pair whose registers both carry N64, both S64 or both B32; zr reads zero. `single` is the subcode for a
32-bit integer register where a pair is needed (R410), 2 where the entry gives none (R346, R365). -/
def LaneCtx.pairOf (c : LaneCtx) (f n single : Nat) : Except Trap (BitVec 64) :=
  if f = 120 then .ok 0
  else
    match c.reg f n with
    | .error t => .error t
    | .ok r =>
      if r.tag = 15 then .error (tagTrap 1 f)
      else if isPairTag r.tag && f % 2 == 1 then .error (tagTrap 3 f)
      else if r.tag = tagS32 ∨ r.tag = tagN32 then .error (tagTrap single f)
      else if !(r.tag == 0 || r.tag == 5 || r.tag == 6) then .error (tagTrap 2 f)
      else if f % 2 = 1 then .error (tagTrap 3 f)
      else
        match c.regHigh f (n + 1) with
        | .error t => .error t
        | .ok q =>
          if q.tag = r.tag then .ok (q.data ++ r.data)
          else if q.tag = 15 then .error (tagTrap 1 (f + 1))
          else .error (tagTrap (if isPairTag r.tag then 3 else 2) f)

/-! ## WND (R342) -/

/-- The signed or unsigned value of a 32-bit operand, as its tag says. -/
def LaneCtx.intWord (c : LaneCtx) (f n : Nat) : Except Trap Int :=
  if f = 120 then .ok 0
  else
    match c.src f n with
    | .error t => .error t
    | .ok v =>
      if isWord32 v.tag then .ok (elemInt v.tag (v.elem 0)) else .error (tagTrap (if isPairTag v.tag then 4 else 2) f)

/-- The window base of a thread moved; a read within WND's latency of 2 is early, and the operand latch is empty. -/
def LaneCtx.setWindow (c : LaneCtx) (wb : Nat) (s : State) : State :=
  let h : Hazard := ⟨c.lane, hazWindow, c.group.cycle + 2, ⟨BitVec.ofNat 32 c.th.wb, 0⟩⟩
  let s := noteWrite c.key none (some h) s
  let s := match s.group? c.key with
    | none => s
    | some g => s.setGroup c.key { g with latch := [] }
  s.setThread c.tid { s.thread c.tid with wb := wb }

/-- WND in a lane (R342). -/
def laneWnd (a i : BitVec 7) (c : LaneCtx) : LaneOut :=
  match allOk [c.intWord (fld a) 0, c.wb.map (fun w => (w : Int))] with
  | .error t => .error t
  | .ok vs =>
    let wb := nth 0 vs 1 + 8 * (i.toInt + nth 0 vs 0)
    if wb < 0 ∨ wb > 248 then .error (Trap.sync 4 2 0) else .ok (c.setWindow wb.toNat)

/-- WND (R342). -/
def execWnd (g : BitVec 4) (h : BitVec 1) (a i : BitVec 7) (s : State) : Host.Outcome State Fault Refusal :=
  .next (runLanes (.wnd g h a i) (laneWnd a i) s)

/-! ## Microprograms (R343, R344) -/

/-- The lane function of an operation that a microprogram may hold: opcodes 0x01 to 0x19, 0x1B and 0x1F (R344). The lanes
active for it are given for the votes. -/
def microLane (act : List LaneCtx) : Instr → Option (LaneCtx → Except Trap AluOut)
  | .add p _ _ d a b => some (laneArith 1 0 p d a b)
  | .sub p _ _ d a b => some (laneArith 2 1 p d a b)
  | .mul p _ _ d a b => some (laneArith 3 2 p d a b)
  | .mulh _ _ _ d a b => some (laneMulh d a b)
  | .fma p _ _ d a b => some (laneFma 5 false p d a b)
  | .fms p _ _ d a b => some (laneFma 6 true p d a b)
  | .dot p _ _ d a b => some (laneDot p d a b)
  | .min _ _ d a b => some (laneMinMax 8 false d a b)
  | .max _ _ d a b => some (laneMinMax 9 true d a b)
  | .and _ _ d a b => some (laneLogic 10 (· &&& ·) d a b)
  | .or _ _ d a b => some (laneLogic 11 (· ||| ·) d a b)
  | .xor _ _ d a b => some (laneLogic 12 (· ^^^ ·) d a b)
  | .andn _ _ d a b => some (laneLogic 13 (fun x y => x &&& ~~~y) d a b)
  | .shl _ _ d a b => some (laneShift 14 true d a b)
  | .shr _ _ d a b => some (laneShift 15 false d a b)
  | .addi p _ _ d a i => some (laneAddi p d a i)
  | .shli _ _ d a i => some (laneShiftImm 17 true d a i)
  | .shri _ _ d a i => some (laneShiftImm 18 false d a i)
  | .andi _ _ d a i => some (laneAndi d a i)
  | .movi d i => some (laneMovi d i)
  | .movh d i => some (laneMovh d i)
  | .cmp _ _ i c a b => some (laneCmp i c a b)
  | .cmpi _ _ i c a m => some (laneCmpi i c a m)
  | .mov _ _ d a => some (laneUna (fun v => .ok (v, 0)) d a)
  | .not _ _ d a => some (laneUna (fun v => evalLogic (fun x _ => ~~~x) v v) d a)
  | .neg _ _ d a => some (laneUna (evalNegAbs true) d a)
  | .abs _ _ d a => some (laneUna (evalNegAbs false) d a)
  | .clz _ _ d a => some (laneUna (evalCount clzBits) d a)
  | .popc _ _ d a => some (laneUna (evalCount popBits) d a)
  | .brev _ _ d a => some (laneUna (evalReverse 1) d a)
  | .bswap _ _ d a => some (laneUna (evalReverse 8) d a)
  | .cls _ _ d a => some (laneUna (evalCount clsBits) d a)
  | .ctz _ _ d a => some (laneUna (evalCount ctzBits) d a)
  | .tagof _ _ d a => some (laneTagof d a)
  | .retag _ _ d a t => some (laneRetag d a t)
  | .cvt p _ _ d a t r => some (laneCvt p d a t r)
  | .pand _ p q r => some (lanePred2 (fun a b => a && b) p q r)
  | .por _ p q r => some (lanePred2 (fun a b => a || b) p q r)
  | .pxor _ p q r => some (lanePred2 (fun a b => a != b) p q r)
  | .pandn _ p q r => some (lanePred2 (fun a b => a && !b) p q r)
  | .vany _ p a => some (laneVote (fun l => l.any Prod.snd) act p a)
  | .vall _ p a => some (laneVote (fun l => l.all Prod.snd) act p a)
  | .vuni _ p a => some (laneVote (fun l => l.all Prod.snd || l.all (fun x => !x.2)) act p a)
  | .vbal _ d a => some (laneVbal act d a)
  | .p2r _ d => some (laneP2r d)
  | .setp _ _ a => some (laneSetp a)
  | .sel g _ d a b => some (laneSel g d a b)
  | _ => none

/-- An operation with its fields 124, 125 and 126 replaced by MCALL's D, A and B (R294). -/
def microFields (σ : BitVec 7 → BitVec 7) : Instr → Instr
  | .add p g h d a b => .add p g h (σ d) (σ a) (σ b)
  | .sub p g h d a b => .sub p g h (σ d) (σ a) (σ b)
  | .mul p g h d a b => .mul p g h (σ d) (σ a) (σ b)
  | .mulh p g h d a b => .mulh p g h (σ d) (σ a) (σ b)
  | .fma p g h d a b => .fma p g h (σ d) (σ a) (σ b)
  | .fms p g h d a b => .fms p g h (σ d) (σ a) (σ b)
  | .dot p g h d a b => .dot p g h (σ d) (σ a) (σ b)
  | .min g h d a b => .min g h (σ d) (σ a) (σ b)
  | .max g h d a b => .max g h (σ d) (σ a) (σ b)
  | .and g h d a b => .and g h (σ d) (σ a) (σ b)
  | .or g h d a b => .or g h (σ d) (σ a) (σ b)
  | .xor g h d a b => .xor g h (σ d) (σ a) (σ b)
  | .andn g h d a b => .andn g h (σ d) (σ a) (σ b)
  | .shl g h d a b => .shl g h (σ d) (σ a) (σ b)
  | .shr g h d a b => .shr g h (σ d) (σ a) (σ b)
  | .addi p g h d a i => .addi p g h (σ d) (σ a) i
  | .shli g h d a i => .shli g h (σ d) (σ a) i
  | .shri g h d a i => .shri g h (σ d) (σ a) i
  | .andi g h d a i => .andi g h (σ d) (σ a) i
  | .movi d i => .movi (σ d) i
  | .movh d i => .movh (σ d) i
  | .cmp g h i c a b => .cmp g h i c (σ a) (σ b)
  | .cmpi g h i c a m => .cmpi g h i c (σ a) m
  | .mov g h d a => .mov g h (σ d) (σ a)
  | .not g h d a => .not g h (σ d) (σ a)
  | .neg g h d a => .neg g h (σ d) (σ a)
  | .abs g h d a => .abs g h (σ d) (σ a)
  | .clz g h d a => .clz g h (σ d) (σ a)
  | .popc g h d a => .popc g h (σ d) (σ a)
  | .brev g h d a => .brev g h (σ d) (σ a)
  | .bswap g h d a => .bswap g h (σ d) (σ a)
  | .cls g h d a => .cls g h (σ d) (σ a)
  | .ctz g h d a => .ctz g h (σ d) (σ a)
  | .tagof g h d a => .tagof g h (σ d) (σ a)
  | .retag g h d a t => .retag g h (σ d) (σ a) t
  | .cvt p g h d a t r => .cvt p g h (σ d) (σ a) t r
  | .vbal g d a => .vbal g (σ d) a
  | .p2r g d => .p2r g (σ d)
  | .setp g h a => .setp g h (σ a)
  | .sel g h d a b => .sel g h (σ d) (σ a) (σ b)
  | i => i

/-- The field that stands for an operand of MCALL (R294, R343). -/
def microField (d a b f : BitVec 7) : BitVec 7 := if f = 124 then d else if f = 125 then a else if f = 126 then b else f

/-- An operation of a microprogram: an instruction, or the guard field and class 00 subcode of a word that is none. -/
abbrev MicroOp := Except (BitVec 4 × Nat) Instr

/-- The operations that words decode to, at most n of them. -/
def decodeAll : Nat → List Word → List MicroOp
  | 0, _ => []
  | n + 1, ws =>
    if ws.isEmpty then []
    else
      match decodeWords ws with
      | .ok (i, k) => .ok i :: decodeAll n (ws.drop k)
      | .error e => .error (rejected e ws).2 :: decodeAll n (ws.drop (rejected e ws).1)

/-- The current group's table of recent writes replaced. -/
def setHazards (hs : List Hazard) (s : State) : State :=
  match s.cur with
  | none => s
  | some k =>
    match s.group? k with
    | none => s
    | some g => s.setGroup k { g with hazards := hs }

/-- The current group's table of recent writes. -/
def hazardsOf (s : State) : List Hazard :=
  match s.cur with
  | none => []
  | some k =>
    match s.group? k with
    | none => []
    | some g => g.hazards

/-- One operation of a microprogram over the lanes still in the group; each waits for the registers it reads (R343). -/
def microStep (lat : Nat) (i : Instr) (s : State) : State :=
  let s := setHazards [] s
  let sel := match i with
    | .sel g _ _ _ _ => decide (g.toNat > 12)
    | _ => false
  if sel || decide (((guardOf i).getD 12).toNat > 12) then trapAll (laneCtxs s) 4 s
  else
    match microLane (activeLanes i s) i with
    | none => s
    | some f =>
      applyLanes ((laneCtxs s).filterMap (laneOutcome i (fun c => c.finish ((f c).map (fun o => { o with lat := lat }))))) s

/-- One operation carried out; a word that is no instruction raises class 00 in the lanes its guard field names. -/
def microOp (lat : Nat) : MicroOp → State → State
  | .ok i, s => microStep lat i s
  | .error e, s => trapGuarded e.1 e.2 s

/-- The operations in order, gathering what was written first by lane and name: the value before MCALL (R304, R343). -/
def microRun (lat : Nat) : List MicroOp → List Hazard → State → State × List Hazard
  | [], hs, s => (s, hs)
  | i :: is, hs, s =>
    let s' := microOp lat i s
    let new := (hazardsOf s').filter (fun h => !(hs.any (fun x => x.lane == h.lane && x.what == h.what)))
    microRun lat is (hs ++ new) s'

/-- MCALL: the slot's operations in every member lane; an empty slot or another grid's is class 00, 0x0B, in all members
(R343, R344). -/
def execMcall (x : BitVec 5) (d a b : BitVec 7) (s : State) : Host.Outcome State Fault Refusal :=
  match s.cur with
  | none => .next s
  | some k =>
    let cs := laneCtxs s
    match cs with
    | [] => .next s
    | c :: _ =>
      match lookup? x.toNat (s.core k.coreId).micro with
      | none => .next (trapAll cs 0x0B s)
      | some m =>
        if m.grid ≠ c.bundle.grid then .next (trapAll cs 0x0B s)
        else
          let is := (decodeAll m.words.length m.words).map (fun (o : MicroOp) => o.map (microFields (microField d a b)))
          let before := hazardsOf s
          let r := microRun (8 * m.words.length) is [] s
          .next (setHazards (before ++ r.2) r.1)

/-! ## Control transfers (R345, R346) -/

/-- The target of a format J word (R293). -/
def LaneCtx.branchTarget (c : LaneCtx) (disp : BitVec 22) : BitVec 64 := c.group.hereAddr + (disp.signExtend 64) * 4

/-- The lane's next PC, taken when the run's trailer is passed (R301). -/
def LaneCtx.setTarget (c : LaneCtx) (pc : BitVec 64) (s : State) : State :=
  match s.group? c.key with
  | none => s
  | some g => s.setGroup c.key { g with targets := put c.lane pc g.targets }

/-- LR of a lane's thread written with the address of the next run (R345, R425). -/
def LaneCtx.setLink (c : LaneCtx) (s : State) : State :=
  s.setThread c.tid { s.thread c.tid with lr := c.group.afterAddr }

/-- BRA (R345). -/
def execBra (g : BitVec 4) (d : BitVec 22) (s : State) : Host.Outcome State Fault Refusal :=
  .next (runLanes (.bra g d) (fun c => .ok (c.setTarget (c.branchTarget d))) s)

/-- CALL (R345). -/
def execCall (g : BitVec 4) (d : BitVec 22) (s : State) : Host.Outcome State Fault Refusal :=
  .next (runLanes (.call g d) (fun c => .ok (fun s => c.setLink (c.setTarget (c.branchTarget d) s))) s)

/-- JOIN: a branch whose threads are held at the target (R347). -/
def execJoin (g : BitVec 4) (d : BitVec 22) (s : State) : Host.Outcome State Fault Refusal :=
  .next (runLanes (.join g d) (fun c => .ok (fun s' =>
    let s' := c.setTarget (c.branchTarget d) s'
    s'.setThread c.tid { s'.thread c.tid with wait := some (.join (c.branchTarget d) s.time) })) s)

/-- A register jump in a lane: a target that is no multiple of 4 is class 05, subcode 0x10, and PC and LR keep (R346). -/
def laneJump (link : Bool) (a : BitVec 7) (c : LaneCtx) : LaneOut :=
  match c.pairOf (fld a) 0 2 with
  | .error t => .error t
  | .ok x =>
    if x.extractLsb' 0 2 ≠ 0 then .error (Trap.sync 5 0x10 x)
    else .ok (fun s => if link then c.setLink (c.setTarget x s) else c.setTarget x s)

/-- JR (R346). -/
def execJr (g : BitVec 4) (h : BitVec 1) (a : BitVec 7) (s : State) : Host.Outcome State Fault Refusal :=
  .next (runLanes (.jr g h a) (laneJump false a) s)

/-- JALR (R346). -/
def execJalr (g : BitVec 4) (h : BitVec 1) (a : BitVec 7) (s : State) : Host.Outcome State Fault Refusal :=
  .next (runLanes (.jalr g h a) (laneJump true a) s)

/-- RET: PC := LR (R346). -/
def execRet (g : BitVec 4) (h : BitVec 1) (s : State) : Host.Outcome State Fault Refusal :=
  .next (runLanes (.ret g h) (fun c =>
    if c.th.lr.extractLsb' 0 2 ≠ 0 then .error (Trap.sync 5 0x10 c.th.lr) else .ok (c.setTarget c.th.lr)) s)

/-- TRAP: LR takes the next run, then class 11 with the code in ADDR (R425). -/
def execTrap (g : BitVec 4) (c : BitVec 22) (s : State) : Host.Outcome State Fault Refusal :=
  .next (runLanes (.trap g c) (fun l => .ok (fun s' =>
    takeTrap (Trap.sync 11 0 (BitVec.setWidth 64 c)) l.tid (l.setLink s'))) s)

/-! ## Illegal words (R312) -/

/-- ILL: class 00, subcode 0x01, in all members (R312, R319). -/
def execIll (_x : BitVec 26) (s : State) : Host.Outcome State Fault Refusal := .next (trapAll (laneCtxs s) 1 s)

/-- The opcodes 0x3C and 0x3D: class 00, subcode 0x02, in all members (R312, R319). -/
def execOpReserved (_o : BitVec 1) (_x : BitVec 26) (s : State) : Host.Outcome State Fault Refusal :=
  .next (trapAll (laneCtxs s) 2 s)

/-! ## RDY (R348) -/

/-- The meet number of a thread for a function: whole warp or lane group. -/
def Thread.meet (th : Thread) (whole : Bool) : BitVec 16 := if whole then th.meet1 else th.meet0

/-- The meet number raised by one, once for the RDY that the thread stands at (R348). -/
def raiseMeet (whole : Bool) (x : ThreadId) (s : State) : State :=
  let th := s.thread x
  if th.counted = some whole then s
  else if whole then s.setThread x { th with meet1 := th.meet1 + 1, counted := some whole }
  else s.setThread x { th with meet0 := th.meet0 + 1, counted := some whole }

/-- Whether a number is at least another, compared as a difference modulo 2^16 (R348). -/
def meetReached (a b : BitVec 16) : Bool := decide ((a - b).toNat < 0x8000)

/-- The lanes of a thread's meet set (R348, R338). -/
def meetSet (s : State) (whole : Bool) (x : ThreadId) : List Nat :=
  let w := if whole then 32 else 2 ^ (((s.warp x.warp).lgw.extractLsb' 0 3).toNat + 1)
  (List.range 32).filter (fun l => decide (l / w = x.lane / w))

/-- Whether the meet m of a thread's set is complete (R348). -/
def meetDone (s : State) (whole : Bool) (x : ThreadId) (m : BitVec 16) : Bool :=
  (meetSet s whole x).all (fun l =>
    let th := s.thread ⟨x.warp, l⟩
    decide (th.st = .exited) || meetReached (th.meet whole) m)

/-- The thread has passed its RDY. -/
def passMeet (x : ThreadId) (s : State) : State := s.setThread x { s.thread x with counted := none }

/-- Whether another thread of a thread's meet set stands BLOCKED at that meet, so that both are released together (R348). -/
def meetAwaited (s : State) (whole : Bool) (x : ThreadId) (m : BitVec 16) : Bool :=
  (meetSet s whole x).any (fun l =>
    let th := s.thread ⟨x.warp, l⟩
    decide (th.st = .blocked) && (match th.wait with | some (.meet v n) => v == whole && n == m | _ => false))

/-- RDY and RDY.W: every member arrives, raising its meet number; an active lane then passes if its meet is complete and none
waits there whom it must join for one release; otherwise it stands BLOCKED at the RDY. A lane whose guard is clear passes at
once (R348). -/
def runRdy (i : Instr) (whole : Bool) (s : State) : Host.Outcome State Fault Refusal :=
  if decide (((guardOf i).getD 12).toNat > 12) then .next (trapAll (laneCtxs s) 4 s)
  else
    let s1 := (laneCtxs s).foldl (fun s c => raiseMeet whole c.tid s) s
    let s2 := runBlocking i (fun c =>
      let m := (s1.thread c.tid).meet whole
      if meetDone s1 whole c.tid m && ((s.thread c.tid).counted == some whole || !meetAwaited s1 whole c.tid m) then .pass (passMeet c.tid) else .block (.meet whole m)) s1
    .next ((laneCtxs s2).foldl (fun s c => passMeet c.tid s) s2)

/-- RDY: the threads of the lane group meet (R348). -/
def execRdy (g : BitVec 4) (h : BitVec 1) (s : State) : Host.Outcome State Fault Refusal := runRdy (.rdy g h) false s

/-- RDY.W: the threads of the whole warp meet (R348). -/
def execRdyW (g : BitVec 4) (h : BitVec 1) (s : State) : Host.Outcome State Fault Refusal := runRdy (.rdyW g h) true s

end Sys2Proof.Machine
end

