-- ==== Sys2Proof/Machine/Net.lean ====
section
/-! DEFINITION. The interposer transport: flits and packets, the integrity tag, the mesh, link numbering and sending (R7 to
R9, R34 to R43), and the Nimcor packet layout and links (R70, R73 to R76). -/

namespace Sys2Proof.Machine

/-! ## Layouts as numbers -/

/-- Fields packed from bit 0 up: (width, value). -/
def packBits : List (Nat × Nat) → Nat
  | [] => 0
  | (w, v) :: t => v % 2 ^ w + 2 ^ w * packBits t

/-- A field of a number: its low bit and width. -/
def bitsAt (x lo w : Nat) : Nat := x / 2 ^ lo % 2 ^ w

/-! ## CRC-32C (R37) -/

/-- One bit of the reflected Castagnoli division. -/
def crcBit (c : BitVec 32) : BitVec 32 := if c.getLsbD 0 then (c >>> 1) ^^^ 0x82F63B78 else c >>> 1

/-- n bits. -/
def crcBits : Nat → BitVec 32 → BitVec 32
  | 0, c => c
  | n + 1, c => crcBits n (crcBit c)

/-- The running value over bytes. -/
def crcRun (c : BitVec 32) (bs : List Byte) : BitVec 32 :=
  bs.foldl (fun c b => crcBits 8 (c ^^^ BitVec.setWidth 32 b)) c

/-- CRC-32C: initial value all ones, reflected input and output, final inversion (R37). -/
def crc32c (bs : List Byte) : BitVec 32 := ~~~ (crcRun 0xFFFFFFFF bs)

/-! ## Interposer packets (R35, R38) -/

/-- The module bits of SADDR. -/
def State.nmod (s : State) : Nat := s.fab.nmod.toNat

/-- The header flit with LSEQ zero (R35, R37). -/
def Packet.header (p : Packet) : Nat :=
  packBits [(8, p.opc.toNat), (4, p.dlen), (2, p.vcl.toNat), (2, 0), (12, 0), (4, 0), (5, p.src), (5, p.dst), (5, p.rsock),
    (1, 0), (8, p.rmod.toNat), (12, p.txn.toNat), (46, p.sector), (5, p.tok), (1, bit p.own), (1, bit p.dirty),
    (8, p.ser.toNat), (2, p.attempt.toNat), (1, bit p.pk), (4, p.cause.toNat), (4, p.rqlen)]

/-- The bytes an integrity tag covers (R37). -/
def Packet.bytes (p : Packet) : List Byte :=
  bytesOfNat 32 p.header ++ p.data.flatMap (fun f => bytesOfNat 32 f.toNat)

/-- A packet with every field zero. -/
def Packet.blank : Packet :=
  { opc := 0, dlen := 0, vcl := 0, src := 0, dst := 0, rsock := 0, rmod := 0, txn := 0, sector := 0, tok := 0,
    own := false, dirty := false, ser := 0, attempt := 0, pk := false, cause := 0, rqlen := 0, data := [] }

/-- The channel and the data flits that R38 gives an OPC: VCL, fewest and most flits. -/
def opcRow (opc : Nat) : Option (Nat × Nat × Nat) :=
  if opc = 1 ∨ opc = 2 ∨ opc = 3 then some (0, 0, 0)
  else if opc = 0x10 ∨ opc = 0x12 then some (1, 2, 2)
  else if opc = 0x11 ∨ opc = 0x13 ∨ opc = 0x14 then some (1, 0, 0)
  else if 0x20 ≤ opc ∧ opc ≤ 0x24 then some (2, 0, 0)
  else if opc = 0x30 ∨ opc = 0x32 ∨ opc = 0x33 then some (2, 0, 0)
  else if opc = 0x31 then some (2, 0, 2)
  else if opc = 0x50 then some (0, 0, 0)
  else if opc = 0x51 then some (1, 1, 8)
  else none

/-- Whether a packet's OPC, DLEN, VCL, DST and RQLEN agree with R38 (R39). -/
def Packet.wellFormed (p : Packet) : Bool :=
  let o := p.opc.toNat
  decide (p.dst ≤ 21) &&
  (if 0x60 ≤ o ∧ o ≤ 0x6F then decide (p.vcl.toNat ≤ 1) && decide (p.dlen ≤ 8)
   else if o = 0x31 then p.vcl == 2 && decide (p.dlen = if p.own then 2 else 0)
   else if o = 0x50 then p.vcl == 0 && decide (p.dlen = 0) && decide (1 ≤ p.rqlen) &&
     decide (2 * (p.sector % 4) + p.rqlen ≤ 8)
   else
     match opcRow o with
     | none => false
     | some r => decide (p.vcl.toNat = r.1) && decide (r.2.1 ≤ p.dlen) && decide (p.dlen ≤ r.2.2))

/-- Whether a packet carries tokens (R38). -/
def Packet.carriesTokens (p : Packet) : Bool := p.opc == 0x10 || p.opc == 0x11 || p.opc == 0x31

/-! ## The mesh (R7, R8, R9, R40) -/

/-- Row and column of a socket (R8). -/
def meshAt (n : Nat) : Nat × Nat :=
  if 8 ≤ n ∧ n ≤ 13 then (0, n - 8)
  else if n = 20 then (1, 0)
  else if n ≤ 3 then (1, n + 1)
  else if n ≤ 7 then (2, n - 4)
  else if n = 21 then (2, 4)
  else (3, n - 14)

/-- The socket at a row and column, if there is one. -/
def socketAt (r c : Nat) : Option Nat := (List.range 22).find? (fun n => decide (meshAt n = (r, c)))

/-- The distance of two numbers. -/
def absDiff (a b : Nat) : Nat := (a - b) + (b - a)

/-- Hops on a minimal path: column 5 has no vertical links (R8, R9). -/
def meshDistance (a b : Nat) : Nat :=
  let p := meshAt a
  let q := meshAt b
  if p.1 = q.1 then absDiff p.2 q.2
  else absDiff p.1 q.1 + (List.range 5).foldl (fun m c => Nat.min m (absDiff p.2 c + absDiff c q.2)) 100

/-- Whether a link joins two routers (R8). -/
def meshLinked (a b : Nat) : Bool := decide (a ≤ 21) && decide (b ≤ 21) && decide (meshDistance a b = 1)

/-- The next router on the escape route: along the row, then the column, then the row (R40). -/
def escapeHop (a b : Nat) : Nat :=
  let p := meshAt a
  let q := meshAt b
  let turn := Nat.min q.2 4
  let at' (r c : Nat) : Nat := (socketAt r c).getD a
  if p.1 ≠ q.1 then
    if p.2 < turn then at' p.1 (p.2 + 1) else if turn < p.2 then at' p.1 (p.2 - 1)
    else if p.1 < q.1 then at' (p.1 + 1) p.2 else at' (p.1 - 1) p.2
  else if p.2 < q.2 then at' p.1 (p.2 + 1) else if q.2 < p.2 then at' p.1 (p.2 - 1) else a

/-- The node of a die: routers are 0 to 21, dies 22 to 43. -/
def dieNode (sock : Nat) : Nat := 22 + sock

/-- The number of a link from one node to another. -/
def linkId (a b : Nat) : Nat := a * 64 + b
/-- The sender of a link. -/
def linkFrom (l : Nat) : Nat := l / 64
/-- The receiver of a link. -/
def linkTo (l : Nat) : Nat := l % 64
/-- The transmitting link of a Nimcor plane. -/
def nimTx (p : Nat) : Nat := 4096 + p
/-- The receiving link of a Nimcor plane. -/
def nimRx (p : Nat) : Nat := 4104 + p
/-- Whether a link is a Nimcor one. -/
def isNim (l : Nat) : Bool := decide (4096 ≤ l)
/-- The I/O die of a plane (R70). -/
def planeIod (p : Nat) : Nat := if p < 4 then 20 else 21

/-- The numbering of a link: 4,096 values (R41, R74). -/
def seqSpace : Nat := 4096
/-- The replay buffer of a link (R41, R74). -/
def replayRoom (l : Nat) : Nat := if isNim l then 1024 else 512

/-- A link direction. -/
def State.link (s : State) (l : Nat) : Link := lookupD l Link.reset s.net.links
/-- The state with a link direction replaced. -/
def State.setLinkDir (s : State) (l : Nat) (v : Link) : State := { s with net := { s.net with links := put l v s.net.links } }
/-- XERR of a router. -/
def State.xerrOf (s : State) (r : Nat) : Xerr := lookupD r Xerr.reset s.net.xerr
/-- The state with XERR of a router replaced. -/
def State.setXerr (s : State) (r : Nat) (v : Xerr) : State := { s with net := { s.net with xerr := put r v s.net.xerr } }
/-- Items put on the wires. -/
def State.onWire (s : State) (ws : List WireItem) : State := { s with net := { s.net with wire := s.net.wire ++ ws } }

/-! ## Nimcor packets (R75, R76) -/

/-- The header flit of a Nimcor packet (R75). -/
def NPacket.header (n : NPacket) : Nat :=
  packBits ([(8, n.nopc.toNat), (2, n.ndlen), (1, bit n.cm), (1, bit n.ce), (1, bit n.ep), (3, n.fsyn.toNat), (8, n.smod.toNat),
    (8, n.dmod.toNat), (5, n.ssock), (3, n.plane), (8, n.pent.toNat), (16, n.ntag.toNat), (52, n.pa.toNat), (4, n.stat.toNat),
    (8, n.aop.toNat), (128, n.bmask.toNat), (64, n.opa.toNat), (64, n.opb.toNat), (16, n.fseq.toNat)] ++
    n.cnt.map (fun c => (14, c)))

/-- A header flit read back (R75). -/
def NPacket.ofHeader (x : Nat) (data : List (BitVec 512)) : NPacket :=
  { nopc := BitVec.ofNat 8 (bitsAt x 0 8), ndlen := bitsAt x 8 2, cm := bitsAt x 10 1 == 1, ce := bitsAt x 11 1 == 1,
    ep := bitsAt x 12 1 == 1, fsyn := BitVec.ofNat 3 (bitsAt x 13 3), smod := BitVec.ofNat 8 (bitsAt x 16 8),
    dmod := BitVec.ofNat 8 (bitsAt x 24 8), ssock := bitsAt x 32 5, plane := bitsAt x 37 3,
    pent := BitVec.ofNat 8 (bitsAt x 40 8), ntag := BitVec.ofNat 16 (bitsAt x 48 16), pa := BitVec.ofNat 52 (bitsAt x 64 52),
    stat := BitVec.ofNat 4 (bitsAt x 116 4), aop := BitVec.ofNat 8 (bitsAt x 120 8), bmask := BitVec.ofNat 128 (bitsAt x 128 128),
    opa := BitVec.ofNat 64 (bitsAt x 256 64), opb := BitVec.ofNat 64 (bitsAt x 320 64), fseq := BitVec.ofNat 16 (bitsAt x 384 16),
    cnt := (List.range 8).map (fun i => bitsAt x (400 + 14 * i) 14), data := data }

/-- A Nimcor packet with every field zero. -/
def NPacket.blank : NPacket := NPacket.ofHeader 0 []

/-- The flits of a Nimcor packet. -/
def NPacket.flits (n : NPacket) : List (BitVec 512) := BitVec.ofNat 512 n.header :: n.data

/-- The data flits R76 gives a NOPC: fewest and most; none for one that is not listed. -/
def nopcRow (o : Nat) : Option (Nat × Nat) :=
  if o = 1 then some (0, 0) else if o = 2 then some (1, 2) else if o = 3 ∨ o = 4 then some (0, 1) else if o = 5 then some (1, 1)
  else if o = 6 ∨ o = 7 then some (0, 0) else if o = 0x10 then some (1, 2) else if o = 0x11 then some (0, 0)
  else if o = 0x12 then some (0, 1) else if o = 0x13 ∨ o = 0x14 then some (0, 0) else if o = 0x20 ∨ o = 0x21 then some (1, 1)
  else if o = 0x22 then some (0, 0) else if o = 0x23 then some (1, 1) else if o = 0x24 ∨ o = 0x25 then some (0, 0) else none

/-- Whether a NOPC answers another packet. -/
def isResponse (o : BitVec 8) : Bool := (decide (0x10 ≤ o.toNat) && decide (o.toNat ≤ 0x14)) || o == 0x25

/-- Whether a NOPC belongs to the chits (R76). -/
def isChitMsg (o : BitVec 8) : Bool := decide (0x20 ≤ o.toNat) && decide (o.toNat ≤ 0x25)

/-- The exclusive or of twelve 3-bit groups from bit 8 (R73). -/
def planeHash (a : Nat) : Nat := (List.range 12).foldl (fun h i => h ^^^ bitsAt a (8 + 3 * i) 3) 0

/-- The plane a map gives an address or chit (R73). -/
def planeOf (map : BitVec 24) (a : Nat) : Nat := bitsAt map.toNat (3 * planeHash a) 3

/-- What chooses a packet's plane: its address, or for a chit message the chit it is about (R73). -/
def NPacket.planeKey (n : NPacket) : Nat :=
  if n.nopc = 0x21 then n.opb.toNat else if isChitMsg n.nopc then n.opa.toNat else n.pa.toNat

/-! ## Sending -/

/-- An integrity tag: over a packet, or over one flit (R37, R74). -/
def Payload.crc : Payload → BitVec 32
  | .packet p => crc32c p.bytes
  | .flit n i => crc32c (bytesOfNat 64 (nth 0 n.flits i).toNat)

/-- The items of a link from position `a` of its replay buffer up to its room, for the wire. -/
def Link.window (l : Nat) (k : Link) (a : Nat) : List WireItem :=
  ((k.replay.take (replayRoom l)).drop a).map (fun e => ⟨l, e.1, e.2, e.2.crc⟩)

/-- Something handed to a link: numbered, kept for replay, and put on the wire while the replay buffer has room and the link
is up (R41). A link that is down takes nothing. -/
def State.linkSend (s : State) (l : Nat) (x : Payload) : State :=
  let k := s.link l
  if k.down then s
  else
    let k' := { k with nextSeq := (k.nextSeq + 1) % seqSpace, replay := k.replay ++ [(k.nextSeq, x)],
                       progressAt := if k.replay.isEmpty then s.time else k.progressAt }
    let s := s.setLinkDir l k'
    if k.retrainAt.isSome || decide (replayRoom l ≤ k.replay.length) then s else s.onWire [⟨l, k.nextSeq, x, x.crc⟩]

/-- A die sends a packet: onto the link to its own router. -/
def State.send (s : State) (p : Packet) : State := s.linkSend (linkId (dieNode p.src) p.src) (.packet p)

/-- A die sends packets, in order. -/
def State.sendAll (s : State) (ps : List Packet) : State := ps.foldl State.send s

/-- A Nimcor packet's flits handed to a link, in order (R74). -/
def State.sendFlits (s : State) (l : Nat) (n : NPacket) : State :=
  (List.range n.flits.length).foldl (fun s i => s.linkSend l (.flit n i)) s

/-- A record's 32 bytes as a number (R121). -/
def EventRec.num (e : EventRec) : Nat :=
  packBits [(16, e.cls.toNat), (8, e.sock), (8, 0), (32, e.seq.toNat), (64, e.time.toNat), (128, e.detail.toNat)]

/-- A record read back. -/
def EventRec.ofNum (x : Nat) : EventRec :=
  { cls := BitVec.ofNat 16 (bitsAt x 0 16), sock := bitsAt x 16 8, seq := BitVec.ofNat 32 (bitsAt x 32 32)
    time := BitVec.ofNat 64 (bitsAt x 64 64), detail := BitVec.ofNat 128 (bitsAt x 128 128), owner := none }

/-- EVNT of a record not yet numbered, to the routing arbiter (R110, R121). -/
def eventPacket (e : EventRec) : Packet :=
  { Packet.blank with opc := 0x66, dlen := 1, src := e.sock, dst := 20, rsock := e.sock, data := [BitVec.ofNat 256 e.num] }

/-- An event raised by a socket: its record, with the time there, goes to the arbiter on I/O die 20 (R110, R118, R121). -/
def State.raiseEvent (s : State) (cls : BitVec 16) (sock : Nat) (detail : BitVec 128) : State :=
  let p := eventPacket ⟨cls, sock, 0, BitVec.ofNat 64 s.time, detail, none⟩
  if sock = 20 then { s with net := { s.net with inbox := s.net.inbox ++ [(20, p)] } } else s.send p

/-- Two data flits of 256 bits for each flit of 512. -/
def halves (f : BitVec 512) : List (BitVec 256) := [f.extractLsb' 0 256, f.extractLsb' 256 256]

/-- Flits of 512 bits from pairs of 256. -/
def joinHalves : List (BitVec 256) → List (BitVec 512)
  | a :: b :: t => (b ++ a) :: joinHalves t
  | _ => []

/-- A Nimcor packet inside an interposer message: NXRQ for a request, NXRS for a response (R76, R110). -/
def nimWrap (src dst : Nat) (n : NPacket) : Packet :=
  { Packet.blank with
    opc := if isResponse n.nopc then 0x63 else 0x62, vcl := if isResponse n.nopc then 1 else 0
    dlen := 2 + 2 * n.ndlen, src := src, dst := dst, rsock := src, data := n.flits.flatMap halves }

/-- The Nimcor packet inside an interposer message, if it has one. -/
def nimUnwrap (p : Packet) : Option NPacket :=
  match joinHalves p.data with
  | h :: t => some (NPacket.ofHeader h.toNat t)
  | [] => none

/-- An event whose detail the manual does not lay out (log 9). -/
def State.report (s : State) (cls sock what : Nat) : State :=
  s.raiseEvent (BitVec.ofNat 16 cls) sock (Config.eventDetail cls what)

/-! ## Homes of sectors (R185, R186) -/

/-- The first address of far memory (R105, R185). -/
def farBase : Nat := 0x10000000000
/-- The end of local memory (R185). -/
def localEnd : Nat := 0xC000000000

/-- The nibble sum of R186. -/
def homeMix (q : Nat) : Nat := (List.range 7).foldl (fun h i => h + (2 * i + 1) * bitsAt q (4 * i) 4) 0

/-- The home socket of a local address (R186). -/
def homeOf (pa : Nat) : Nat :=
  let u := pa % 2 ^ 44 / 256
  8 + (u % 12 + homeMix (u / 12)) % 12

/-- The byte offset of a local address within its stack (R186). -/
def stackOffset (pa : Nat) : Nat := pa % 2 ^ 44 / 256 / 12 * 256 + pa % 256

/-- The home socket of a sector. -/
def homeSock (sector : Nat) : Nat := homeOf (sector * 64)

/-! ## Physical addresses (R105, R185) -/

/-- The row of R185 that holds nothing. -/
def emptyRow (pa : Nat) : Bool := decide (0xC000000000 ≤ pa) && decide (pa < farBase)

/-- Whether decoder n claims an address PA[43:0] (R105). -/
def State.claims (s : State) (n pa : Nat) : Bool :=
  let b := lookupD n 0 s.mgmt.fmb
  let l := lookupD n 0 s.mgmt.fml
  b.getLsbD 31 && decide (b.toNat % 2 ^ 14 ≤ pa / 2 ^ 30) && decide (pa / 2 ^ 30 ≤ l.toNat % 2 ^ 14)

/-- The decoder that claims a far address, if any. -/
def State.farWindow (s : State) (pa : Nat) : Option Nat := (List.range 8).find? (fun n => s.claims n pa)

/-- The I/O die that a far address is routed to. -/
def State.farIod (s : State) (pa : Nat) : Nat :=
  match s.farWindow pa with
  | some n => if n < 4 then 20 else 21
  | none => 20

end Sys2Proof.Machine
end

