-- ==== Sys2Proof/Machine/Order.lean ====
section
/-! DEFINITION. The ordering side of the Nimcor fabric at an I/O die: write counting, ordered flags and their order checks with
the peer I/O die, and the answers to other modules (R76, R85, R86, R90). -/

namespace Sys2Proof.Machine

/-- The fabric side of an I/O die. -/
def State.port (s : State) (iod : Nat) : FabPort := lookupD iod FabPort.reset s.fab.ports
/-- The state with the fabric side of an I/O die replaced. -/
def State.setPort (s : State) (iod : Nat) (p : FabPort) : State := s.onFab (fun f => { f with ports := put iod p f.ports })
/-- The fabric side of an I/O die changed. -/
def State.onPort (s : State) (iod : Nat) (f : FabPort → FabPort) : State := s.setPort iod (f (s.port iod))

/-- The remote access unit of a die. -/
def State.rau (s : State) (sock : Nat) : Rau := lookupD sock Rau.reset s.fab.raus
/-- The state with a remote access unit changed. -/
def State.onRau (s : State) (sock : Nat) (f : Rau → Rau) : State := s.onFab (fun v => { v with raus := put sock (f (s.rau sock)) v.raus })

/-- A remote access put in a die's unit, to be sent in its turn; where its plane is down its 1 ms begins at once (R78, R90). -/
def State.holdPacket (s : State) (sock : Nat) (h : Held) : State :=
  let up := s.fab.up.getLsbD (planeOf (s.rau sock).map h.pkt.planeKey)
  s.onRau sock (fun r => { r with held := r.held ++ [if up then h else { h with since := some s.time }] })

/-- The source of a packet: its module and socket. -/
def NPacket.source (n : NPacket) : BitVec 8 × Nat := (n.smod, n.ssock)
/-- What an I/O die keeps for a source. -/
def State.source (s : State) (iod : Nat) (k : BitVec 8 × Nat) : SourceState := lookupD k SourceState.reset (s.port iod).sources
/-- The state with what an I/O die keeps for a source replaced. -/
def State.setSource (s : State) (iod : Nat) (k : BitVec 8 × Nat) (v : SourceState) : State :=
  s.onPort iod (fun p => { p with sources := put k v p.sources })

/-- The other I/O die. -/
def peerIod (iod : Nat) : Nat := 41 - iod
/-- The four paths of an I/O die (R70). -/
def pathsOf (iod : Nat) : List Nat := (List.range 8).filter (fun p => decide (planeIod p = iod))

/-! ## Order checks (R85): a body of the model's own layout (log 13) -/

/-- An order check for a flag, or where `reset` the passing on of an RSYN, as one data flit. -/
def checkFlit (iod : Nat) (reset : Bool) (n : NPacket) : BitVec 256 :=
  BitVec.ofNat 256 (packBits ([(8, n.smod.toNat), (5, n.ssock), (3, n.fsyn.toNat), (16, n.fseq.toNat), (1, bit reset)] ++
    (pathsOf (peerIod iod)).map (fun p => (14, nth 0 n.cnt p))))

/-- An order check read back at the peer, as a flag with the counts of the peer's own paths; NOPC 7 where it passes on a
reset. -/
def checkOf (iod : Nat) (f : BitVec 256) : NPacket :=
  let x := f.toNat
  { NPacket.blank with
    nopc := if x.testBit 32 then 7 else 6, smod := BitVec.ofNat 8 (bitsAt x 0 8), ssock := bitsAt x 8 5
    fsyn := BitVec.ofNat 3 (bitsAt x 13 3), fseq := BitVec.ofNat 16 (bitsAt x 16 16)
    cnt := (List.range 8).map (fun p => if planeIod p = iod then bitsAt x (33 + 14 * (p % 4)) 14 else 0) }

/-- OCHK to the peer. -/
def State.sendCheck (s : State) (iod : Nat) (reset : Bool) (n : NPacket) : State :=
  s.send { Packet.blank with
    opc := 0x64, vcl := 0, dlen := 1, src := iod, dst := peerIod iod, rsock := iod, data := [checkFlit iod reset n] }

/-- OCNF to the peer: its header names the source, the number and the epoch confirmed, and whether a reset was (log 13). -/
def State.sendConfirm (s : State) (iod : Nat) (n : NPacket) : State :=
  s.send { Packet.blank with
    opc := 0x65, vcl := 1, src := iod, dst := peerIod iod, rsock := n.ssock, rmod := n.smod
    sector := packBits [(16, n.fseq.toNat), (3, n.fsyn.toNat), (1, bit (n.nopc == 7))] }

/-! ## Arrival counts (R85) -/

/-- Whether the counters of an I/O die's own paths equal the counts of a flag. -/
def State.countsMet (s : State) (iod : Nat) (n : NPacket) : Bool :=
  let v := s.source iod n.source
  (pathsOf iod).all (fun p => decide (lookupD (p, n.fseq.toNat % 8) 0 v.arr = nth 0 n.cnt p))

/-- The counters of an interval cleared for an I/O die's own paths. -/
def SourceState.clear (v : SourceState) (iod : Nat) (fseq : BitVec 16) : SourceState :=
  { v with arr := v.arr.filter (fun a => !((pathsOf iod).contains a.1.1 && decide (a.1.2 = fseq.toNat % 8))) }

/-- A flag that is next in sequence with its counts met has its order check sent. -/
def State.checkFlag (s : State) (iod : Nat) (w : WaitingFlag) : State :=
  let v := s.source iod w.pkt.source
  if !w.checked && w.pkt.fsyn == v.sync && w.pkt.fseq == v.nextf && s.countsMet iod w.pkt then
    (s.onPort iod (fun p => { p with flags := p.flags.map (fun x => if x.pkt = w.pkt then { x with checked := true } else x) })).sendCheck
      iod false w.pkt
  else s

/-- An order check that this I/O die's own counters meet, next in its source's sequence, is confirmed; one of another epoch goes the way
of its flag. -/
def State.confirmCheck (s : State) (iod : Nat) (n : NPacket) : State :=
  let v := s.source iod n.source
  if n.fsyn != v.sync then s.onPort iod (fun p => { p with checks := p.checks.erase n })
  else if n.fseq == v.nextf && s.countsMet iod n then
    let s := s.setSource iod n.source { v.clear iod n.fseq with nextf := n.fseq + 1 }
    (s.onPort iod (fun p => { p with checks := p.checks.erase n })).sendConfirm iod n
  else s

/-- Flags and order checks of an I/O die that its counters now allow go on. -/
def State.advanceOrder (s : State) (iod : Nat) : State :=
  let s := (s.port iod).checks.foldl (fun s n => s.confirmCheck iod n) s
  (s.port iod).flags.foldl (fun s w => s.checkFlag iod w) s

/-- A remote write performed is counted, if it carries the source's epoch (R85). -/
def State.countWrite (s : State) (iod : Nat) (n : NPacket) : State :=
  let v := s.source iod n.source
  if n.nopc = 2 ∧ n.fsyn = v.sync then
    let slot := (n.plane, n.fseq.toNat % 8)
    (s.setSource iod n.source { v with arr := put slot (lookupD slot 0 v.arr + 1) v.arr }).advanceOrder iod
  else s

/-- A flag applied: the next number of its source, and what waited for it. -/
def State.flagDone (s : State) (iod : Nat) (n : NPacket) : State :=
  let v := s.source iod n.source
  if n.fsyn = v.sync then (s.setSource iod n.source { v with nextf := n.fseq + 1 }).advanceOrder iod else s

/-! ## Answers to other modules (R76, R78) -/

/-- The answer to a request of another module; it names the requester's socket (log 10) and has the path entropy (log 138) of the
request. -/
def nimAnswer (mod : BitVec 8) (req : NPacket) (stat : BitVec 4) (opa : BitVec 64) (data : List (BitVec 512)) : NPacket :=
  let o := req.nopc.toNat
  { NPacket.blank with
    nopc := if o = 1 then 0x10 else if o = 2 then 0x11 else if o = 3 ∨ o = 4 then 0x12 else 0x13
    ndlen := data.length, ce := req.cm, ep := decide (2 ≤ o) && decide (o ≤ 5) && req.ep, smod := mod, dmod := req.smod, ssock := req.ssock, plane := req.plane,
    pent := req.pent, ntag := req.ntag, stat := stat, bmask := if o = 1 then req.bmask else 0, opa := opa, data := data }

/-- The sectors of a 128-byte block that a byte mask touches. -/
def maskSectors (m : BitVec 128) : List Nat := [0, 1].filter (fun h => m.toNat / 2 ^ (64 * h) % 2 ^ 64 ≠ 0)

/-- An answer sent on the plane of its request. -/
def State.answer (s : State) (n : NPacket) (stat : BitVec 4) (opa : BitVec 64) (data : List (BitVec 512)) : State :=
  s.sendFlits (nimTx n.plane) (nimAnswer s.fab.nmod n stat opa data)

end Sys2Proof.Machine
end

