-- ==== Sys2Proof/Machine/ChitTable.lean ====
section
/-! DEFINITION. Chits: the handle, the tables, broken records, and the sending of chit messages one at a time for each chit of a
die (R92 to R98). -/

namespace Sys2Proof.Machine

/-! ## Handles (R92) -/

/-- The socket of a chit's home table (R92). -/
def chitSock (c : BitVec 64) : Nat := (c.extractLsb' 51 5).toNat
/-- The module of a chit (R92). -/
def chitMod (c : BitVec 64) : BitVec 8 := c.extractLsb' 56 8
/-- Whether a socket has a chit table. -/
def hasTable (sock : Nat) : Bool := decide (sock ≤ 7) || decide (sock = 20) || decide (sock = 21)
/-- The width of the generation of a table's chits. -/
def genBits (sock : Nat) : Nat := if sock ≤ 7 then 39 else 37
/-- The number of entries of a table (R93). -/
def tableSize (sock : Nat) : Nat := if sock ≤ 7 then 4096 else 16384
/-- The table entry of a chit. -/
def chitEntryOf (c : BitVec 64) : Nat := bitsAt c.toNat (genBits (chitSock c)) (51 - genBits (chitSock c))
/-- The generation of a chit. -/
def chitGen (c : BitVec 64) : Nat := bitsAt c.toNat 0 (genBits (chitSock c))

/-- The chit of a table entry at a generation. -/
def mkChit (mod : BitVec 8) (sock idx gen : Nat) : BitVec 64 :=
  BitVec.ofNat 64 (mod.toNat * 2 ^ 56 + sock * 2 ^ 51 + idx * 2 ^ genBits sock + gen)

/-! ## Table entries (R93 to R95) -/

/-- An entry of a table. -/
def State.chitEntry (s : State) (sock idx : Nat) : ChitEntry := lookupD (sock, idx) ChitEntry.reset s.chits.tables
/-- The state with an entry replaced. -/
def State.setEntry (s : State) (sock idx : Nat) (e : ChitEntry) : State :=
  s.onChits (fun c => { c with tables := put (sock, idx) e c.tables })

/-- The live entry that a chit of this module names: not FREE, and at its generation. -/
def State.liveChit (s : State) (c : BitVec 64) : Option ChitEntry :=
  if hasTable (chitSock c) && chitMod c == s.fab.nmod then
    let e := s.chitEntry (chitSock c) (chitEntryOf c)
    if e.state = .free ∨ e.gen.toNat ≠ chitGen c then none else some e
  else none

/-- The state with the entry of a chit replaced. -/
def State.setChit (s : State) (c : BitVec 64) (e : ChitEntry) : State := s.setEntry (chitSock c) (chitEntryOf c) e

/-- Whether an entry can be issued: free, its generation not retired, in no reserve. -/
def State.mayIssue (s : State) (sock idx : Nat) : Bool :=
  let e := s.chitEntry sock idx
  decide (e.state = .free) && e.gen != 0 &&
  !(s.chits.reserves.any (fun r => decide (r.1.2 = sock) && r.2.contains idx))

/-- The lowest entry of a table that can be issued. -/
def State.freeChit (s : State) (sock : Nat) : Option Nat :=
  let reserved := s.chits.reserves.foldl (fun n r => if r.1.2 = sock then n + r.2.length else n) 0
  (List.range (Nat.min (tableSize sock) (s.chits.tables.length + reserved + 1))).find? (fun i => s.mayIssue sock i)

/-- An entry issued in a state; its chit. -/
def State.issueChit (s : State) (sock idx : Nat) (st : ChitState) : BitVec 64 × State :=
  let e := s.chitEntry sock idx
  (mkChit s.fab.nmod sock idx e.gen.toNat, s.setEntry sock idx { ChitEntry.reset with state := st, gen := e.gen })

/-- An entry freed; its generation rises, or retires it for good where it would wrap (R92). -/
def State.freeEntry (s : State) (c : BitVec 64) : State :=
  let e := s.chitEntry (chitSock c) (chitEntryOf c)
  let g := (e.gen.toNat + 1) % 2 ^ genBits (chitSock c)
  s.setChit c { ChitEntry.reset with gen := if e.gen = 0 then 0 else BitVec.ofNat 39 g }

/-! ## Broken records (R97) -/

/-- A broken record at its origin: CAUSE 1 FAULT, 2 BREAK, 3 STALE, 4 LOST, 5 HALTED. -/
def brokenRec (cause : Nat) (detail : Nat) (origin : BitVec 64) : BitVec 512 :=
  BitVec.ofNat 512 (packBits [(8, cause), (8, cause), (16, 0), (32, detail), (64, origin.toNat)])

/-- The record that an invocation inherits from a broken chit: CAUSE 6, one more hop. -/
def inheritRec (p : BitVec 512) : BitVec 512 :=
  let x := p.toNat
  BitVec.ofNat 512 (packBits [(8, 6), (8, bitsAt x 8 8), (8, Nat.min 255 (bitsAt x 16 8 + 1)), (8, 0), (32, bitsAt x 32 32), (64, bitsAt x 64 64)])

/-- CAUSE of a broken record. -/
def recCause (r : BitVec 512) : Nat := bitsAt r.toNat 0 8

/-! ## Messages (R95, R98) -/

/-- A chit message with nothing in it, from a die to the home of a chit. -/
def State.chitMsg (s : State) (nopc : BitVec 8) (src : Nat) (c : BitVec 64) : ChitMsg :=
  { nopc := nopc, dsock := chitSock c, dmod := chitMod c, ssock := src, smod := s.fab.nmod, chit := c, other := 0, payload := 0
    broken := false, warp := none, opId := 0, plane := 0, cm := false, ce := false }

/-- A chit message as a Nimcor packet. -/
def ChitMsg.packet (m : ChitMsg) : NPacket :=
  let data := if m.nopc = 0x20 ∨ m.nopc = 0x21 ∨ m.nopc = 0x23 then [m.payload] else []
  { NPacket.blank with
    nopc := m.nopc, ndlen := data.length, smod := m.smod, dmod := m.dmod, ssock := m.ssock, stat := if m.broken then 1 else 0
    opa := if m.nopc = 0x21 then 0 else m.chit, opb := m.other, data := data }

/-- A chit message put on its way: inside the module, or into the remote access unit of its die. -/
def State.routeChit (s : State) (m : ChitMsg) : State :=
  if m.dmod = s.fab.nmod then s.onChits (fun c => { c with msgs := c.msgs ++ [m] })
  else s.holdPacket m.ssock ⟨m.packet, [], m.warp, m.opId, 0, none, false⟩

/-- A chit message sent, unless its die has one for the chit that is not acknowledged: then it waits (R95). -/
def State.postChit (s : State) (m : ChitMsg) : State :=
  if s.chits.unacked.contains (m.ssock, m.chit) then s.onChits (fun c => { c with waiting := c.waiting ++ [m] })
  else (s.onChits (fun c => { c with unacked := c.unacked ++ [(m.ssock, m.chit)] })).routeChit m

/-- A message of a die for a chit acknowledged, or ended: the next one that waits is sent. -/
def State.ackChit (s : State) (die : Nat) (c : BitVec 64) : State :=
  let s := s.onChits (fun v => { v with unacked := v.unacked.erase (die, c) })
  match s.chits.waiting.find? (fun m => decide (m.ssock = die) && m.chit == c) with
  | none => s
  | some m => (s.onChits (fun v => { v with waiting := v.waiting.erase m })).postChit m

/-- CRES from a die to the home of a chit: its result, or its broken record; the null chit has no home. -/
def State.sendResult (s : State) (die : Nat) (c : BitVec 64) (r : BitVec 512) (broken : Bool) : State :=
  if chitGen c = 0 ∨ !hasTable (chitSock c) then s
  else s.postChit { s.chitMsg 0x23 die c with payload := r, broken := broken }

/-- A chit broken by a die. -/
def State.breakChit (s : State) (die : Nat) (c : BitVec 64) (r : BitVec 512) : State := s.sendResult die c r true

/-- A chit message that the fabric lost: the chit of the invocation that sent it breaks with CAUSE LOST; for a lost result the home is told
by another message that the chit has broken so, and the location keeps the result (R98). -/
def State.chitLost (s : State) (die : Nat) (n : NPacket) : State :=
  let s := s.ackChit die (if n.nopc = 0x21 then n.opb else n.opa)
  if n.nopc = 0x20 ∨ n.nopc = 0x21 then s.breakChit die n.opb (brokenRec 4 0 n.opb)
  else if n.nopc = 0x23 then s.breakChit die n.opa (brokenRec 4 0 n.opa)
  else s

/-! ## Pushes by hardware (R133, R140) -/

/-- An invocation whose record has reached the hold buffer retires (R415). -/
def State.retirePush (s : State) (p : Push) : State :=
  match p.op with
  | some o => s.opDone o.1 4 o.2
  | none => s

/-- A record that hardware pushes, into the hold buffer of a dispatcher, or beyond 32 entries the list that follows it. -/
def State.pushRecord (s : State) (disp : Nat) (p : Push) : State :=
  if (s.dispatcher disp).hold.length < 32 ∧ (s.dispatcher disp).holdSpill.isEmpty then
    (s.onDisp disp (fun d => { d with hold := d.hold ++ [p] })).retirePush p
  else s.onDisp disp (fun d => { d with holdSpill := d.holdSpill ++ [p] })

/-- An invocation released at a location: its record is pushed on that die, with the result for its frame (R95, R140). -/
def State.releaseInvocation (s : State) (die : Nat) (i : Invocation) (result : BitVec 512) : State :=
  s.pushRecord die ⟨i.record, bitsAt i.record.toNat (8 * 59) 8, false, 0, some result, none⟩

/-- Queued invocations of a chit that broke: each inherits (R97). -/
def State.inheritAll (s : State) (die : Nat) (is : List Invocation) (r : BitVec 512) : State :=
  is.foldl (fun s i => s.breakChit die i.chit (inheritRec r)) s

/-- An invocation queued at an entry: four places, then the list in memory (R93). -/
def ChitEntry.enqueue (e : ChitEntry) (i : Invocation) : ChitEntry :=
  if e.queue.length < 4 ∧ e.spill.isEmpty then { e with queue := e.queue ++ [i] } else { e with spill := e.spill ++ [i] }

/-- An entry with nothing queued. -/
def ChitEntry.emptied (e : ChitEntry) : ChitEntry := { e with queue := [], spill := [] }

/-- Whether an entry is its own location. -/
def ChitEntry.isLocation (e : ChitEntry) (c : BitVec 64) : Bool := e.loc == some c

/-- A home entry released: CFRE to its location once every forwarded invocation has been acknowledged, and the entry is freed
(R95). -/
def State.tryRelease (s : State) (c : BitVec 64) : State :=
  match s.liveChit c with
  | none => s
  | some e =>
    if !e.release || decide (e.forwarded ≠ 0) || !(decide (e.state = .done) || decide (e.state = .broken)) then s
    else
      let s := match e.loc with
        | some l => if l = c then s else s.postChit (s.chitMsg 0x24 (chitSock c) l)
        | none => s
      s.freeEntry c

/-- A location entry's producer has ended: DONE or BROKEN, its invocations released or broken (R95, R97). -/
def State.endLocation (s : State) (c : BitVec 64) (r : BitVec 512) (broken : Bool) : State :=
  match s.liveChit c with
  | none => s
  | some e =>
    let is := e.queue ++ e.spill
    let s := s.setChit c { e.emptied with state := if broken then .broken else .done, result := r }
    let s := if broken then s.inheritAll (chitSock c) is r else is.foldl (fun s i => s.releaseInvocation (chitSock c) i r) s
    s.tryRelease c

/-- The location of a producer on a die: the home entry itself where the home is that die, else an entry of its own, and CLOC
to the home (R95). None where the table is full. -/
def State.placeChit (s : State) (die : Nat) (c : BitVec 64) : Option (BitVec 64 × State) :=
  if chitSock c = die ∧ chitMod c = s.fab.nmod then
    match s.liveChit c with
    | some e => some (c, s.setChit c { e with state := .placed, loc := some c })
    | none => some (c, s)
  else
    match s.freeChit die with
    | none => none
    | some i =>
      let p := s.issueChit die i .placed
      let e := p.2.chitEntry die i
      let s := p.2.setEntry die i { e with loc := some p.1, locOnly := true, home := c }
      some (p.1, s.postChit { s.chitMsg 0x22 die c with other := p.1 })

end Sys2Proof.Machine
end

