-- ==== Sys2Proof/Machine/L1.lean ====
section
/-! DEFINITION. The core's first-level data cache: 64 sets, one way for each CCH segment, a valid and a dirty bit for every
byte, write-back, and the replacement order of the reuse classes (R164, R188, R213). -/

namespace Sys2Proof.Machine

/-! ## Bytes of wide words -/

/-- n bytes from one bit position up, all ones. -/
def onesMask (off n : Nat) : Nat := (2 ^ n - 1) * 2 ^ off

/-- Byte i of a number. -/
def byteAt (x i : Nat) : Nat := x / 256 ^ i % 256

/-- n bytes, each from `new` where the mask has its bit, else from `old`. -/
def mergeBytes (n mask new old : Nat) : Nat :=
  (List.range n).foldr (fun i acc => (if mask.testBit i then byteAt new i else byteAt old i) + 256 * acc) 0

/-- The sector of a line number and half. -/
def sectorOf (pa : Nat) : Nat := pa / 64

/-! ## Lines -/

/-- The line of a core's cache that holds a line number, if any. -/
def Core.l1Find (c : Core) (line : Nat) : Option L1Line := c.l1.find? (fun l => decide (l.pa = line))

/-- The cache with a line replaced, or added. -/
def Core.l1Put (c : Core) (l : L1Line) : Core := { c with l1 := l :: c.l1.filter (fun x => decide (x.pa ≠ l.pa)) }

/-- The cache without a line. -/
def Core.l1Drop (c : Core) (line : Nat) : Core := { c with l1 := c.l1.filter (fun x => decide (x.pa ≠ line)) }

/-- The cache with a line as it now is; one with no valid byte leaves its way invalid (R448). -/
def Core.l1Keep (c : Core) (l : L1Line) : Core := if l.valid = 0 then c.l1Drop l.pa else c.l1Put l

/-- The ways that may take a new line: CCH segments that no wring surrenders (R164, R171). -/
def Core.openWays (c : Core) : List Nat :=
  (c.segs.filter (fun g => decide (g.role = .cch) && !g.wrg)).map Segment.idx

/-- The place of a line in the replacement ranking, lower first; PIN is treated as REUSE (R188). -/
def rankOf (cls : BitVec 2) (consumed : Bool) : Nat :=
  if cls = 1 ∧ consumed then 1 else if cls = 0 then 2 else if cls = 1 then 3 else if cls = 2 then 4 else 5

/-- The first of the least by a key. -/
def leastBy {α : Type} (key : α → Nat × Nat) : List α → Option α
  | [] => none
  | x :: t =>
    match leastBy key t with
    | none => some x
    | some y => if (key y).1 < (key x).1 ∨ ((key y).1 = (key x).1 ∧ (key y).2 < (key x).2) then some y else some x

/-- The writes of the dirty bytes of a line to the die cache, one for each sector that has any (R213). -/
def L1Line.writeBacks (c : CoreId) (l : L1Line) (id : Nat) : List Access :=
  [0, 1].filterMap (fun h =>
    let m := l.dirty.toNat / 2 ^ (64 * h) % 2 ^ 64
    if m = 0 then none
    else some { id := id, who := .writeBack c l.writers, site := c.die, kind := .write, va := 0, pa := l.pa * 128 + 64 * h, size := 64,
                wdata := BitVec.ofNat 512 (l.data.toNat / 2 ^ (512 * h)), wmask := BitVec.ofNat 64 m, comp := 0, dest := [],
                signed := false, cls := l.cls, rep := false, mark := 0, acq := 0 })

/-- Accesses queued at the die caches. -/
def State.queueAccesses (s : State) (as : List Access) : State := { s with coh := { s.coh with accesses := s.coh.accesses ++ as } }

/-- A line written back: its dirty bytes go to the die cache and are clean. -/
def State.l1Clean (s : State) (c : CoreId) (l : L1Line) : State :=
  let s := s.setCore c ((s.core c).l1Put { l with dirty := 0, writers := [] })
  s.queueAccesses (l.writeBacks c s.fresh)

/-- A line made present in the lowest invalid way of its set, or in that of a victim given up for it (R448); the class is PIN treated as REUSE, and only a hit consumes a ONCE line
(R188). -/
def State.l1Make (s : State) (c : CoreId) (line : Nat) (cls : BitVec 2) (hit : Bool) : State :=
  let k := s.core c
  let cls := if cls = 3 then 2 else cls
  match k.l1Find line with
  | some l =>
    s.setCore c (k.l1Put { l with
      used := s.time
      consumed := l.consumed || (hit && cls == 1 && l.cls == 1)
      cls := if l.cls.toNat < cls.toNat then cls else l.cls })
  | none =>
    let inSet := k.l1.filter (fun l => decide (l.set = line % 64))
    let fresh (w : Nat) : L1Line :=
      { pa := line, set := line % 64, way := w, data := 0, valid := 0, dirty := 0, cls := cls, consumed := false, used := s.time,
        writers := [] }
    match leastBy (fun w => (w, 0)) (k.openWays.filter (fun w => !(inSet.any (fun l => decide (l.way = w))))) with
    | some w => s.setCore c (k.l1Put (fresh w))
    | none =>
      match leastBy (fun l => (rankOf l.cls l.consumed, l.used)) (inSet.filter (fun l => k.openWays.contains l.way)) with
      | none => s
      | some v =>
        let s := s.queueAccesses (v.writeBacks c s.fresh)
        s.setCore c (((s.core c).l1Drop v.pa).l1Put (fresh v.way))

/-- Bytes stored in the cache: valid and dirty (R213). A set in which no way may take a line sends them on. -/
def State.l1Store (s : State) (c : CoreId) (t : ThreadId) (pa n data : Nat) (cls : BitVec 2) : State :=
  let s := s.l1Make c (pa / 128) cls true
  let m := onesMask (pa % 128) n
  match (s.core c).l1Find (pa / 128) with
  | some l =>
    s.setCore c ((s.core c).l1Put { l with
      data := BitVec.ofNat 1024 (mergeBytes 128 m (data * 256 ^ (pa % 128)) l.data.toNat)
      valid := l.valid ||| BitVec.ofNat 128 m, dirty := l.dirty ||| BitVec.ofNat 128 m
      writers := if l.writers.contains t then l.writers else l.writers ++ [t] })
  | none =>
    let l : L1Line := { pa := pa / 128, set := 0, way := 0, data := BitVec.ofNat 1024 (data * 256 ^ (pa % 128)), valid := 0,
                        dirty := BitVec.ofNat 128 m, cls := cls, consumed := false, used := 0,
                        writers := [t] }
    s.queueAccesses (l.writeBacks c s.fresh)

/-- The sector that a read brought in: every byte of it that is not dirty takes the newer value (R203, R205). -/
def State.l1Fill (s : State) (c : CoreId) (sector data : Nat) (cls : BitVec 2) : State :=
  let s := s.l1Make c (sector / 2) cls false
  match (s.core c).l1Find (sector / 2) with
  | none => s
  | some l =>
    let half := sector % 2
    let m := onesMask (64 * half) 64
    let keep := l.dirty.toNat ||| (2 ^ 128 - 1 - m)
    s.setCore c ((s.core c).l1Put { l with
      data := BitVec.ofNat 1024 (mergeBytes 128 keep l.data.toNat (data * 256 ^ (64 * half)))
      valid := l.valid ||| BitVec.ofNat 128 m })

/-- What the cache holds of n bytes: which are valid (or only dirty, where an acquire reads) and their values from bit 0. -/
def State.l1Peek (s : State) (c : CoreId) (pa n : Nat) (dirtyOnly : Bool) : Nat × Nat :=
  match (s.core c).l1Find (pa / 128) with
  | none => (0, 0)
  | some l =>
    let v := if dirtyOnly then l.dirty.toNat else l.valid.toNat
    (v / 2 ^ (pa % 128) % 2 ^ n, l.data.toNat / 256 ^ (pa % 128) % 256 ^ n)

/-- The clean bytes of a sector dropped, where a read has had a newer copy that may not be kept (R205). -/
def State.l1DropClean (s : State) (c : CoreId) (sector : Nat) : State :=
  match (s.core c).l1Find (sector / 2) with
  | none => s
  | some l =>
    let m := BitVec.ofNat 128 (onesMask (64 * (sector % 2)) 64)
    s.setCore c ((s.core c).l1Keep { l with valid := l.valid &&& (~~~m ||| l.dirty) })

/-- Every clean byte of a core's cache invalidated (R213). -/
def State.l1Invalidate (s : State) (c : CoreId) : State :=
  let kept := (s.core c).l1.map (fun (l : L1Line) => { l with valid := l.valid &&& l.dirty })
  s.setCore c { s.core c with l1 := kept.filter (fun l => l.valid != 0) }

/-- Bytes of one sector written back if dirty, and the sector dropped (R213). -/
def State.l1Purge (s : State) (c : CoreId) (sector : Nat) : State :=
  match (s.core c).l1Find (sector / 2) with
  | none => s
  | some l =>
    let half := sector % 2
    let m := BitVec.ofNat 128 (onesMask (64 * half) 64)
    let s := s.queueAccesses (({ l with dirty := l.dirty &&& m } : L1Line).writeBacks c s.fresh)
    s.setCore c ((s.core c).l1Keep { l with valid := l.valid &&& ~~~m, dirty := l.dirty &&& ~~~m })

/-- Every dirty byte of a core's cache written back (R213). -/
def State.l1Flush (s : State) (c : CoreId) : State :=
  ((s.core c).l1.filter (fun l => l.dirty != 0)).foldl (fun s l => s.l1Clean c l) s

/-- Whether a core's cache holds a dirty byte. -/
def State.l1Dirty (s : State) (c : CoreId) : Bool := (s.core c).l1.any (fun l => l.dirty != 0)

/-- Whether a write-back of a core has not been accepted. -/
def State.writingBack (s : State) (c : CoreId) : Bool := s.coh.accesses.any (fun a => match a.who with | .writeBack k _ => decide (k = c) | _ => false) ||
  s.coh.cxlReqs.any (fun a => match a.who with | .writeBack k _ => decide (k = c) | _ => false)

/-- Whether an access of a core's threads to a sector is outstanding from before instruction `op`: its lanes read alike (R205, R376). -/
def State.accessingAt (s : State) (c : CoreId) (op sec : Nat) : Bool :=
  (s.coh.accesses ++ s.coh.cxlReqs).any (fun a =>
    (match a.who with | .lane t => decide (t.warp.coreId = c) | _ => false) && decide (a.op ≠ op) && decide (sectorOf a.pa = sec))

/-- Whether an access of a thread is outstanding. -/
def State.accessing (s : State) (t : ThreadId) : Bool :=
  s.coh.accesses.any (fun a => decide (a.who = .lane t)) || s.coh.cxlReqs.any (fun a => decide (a.who = .lane t))

end Sys2Proof.Machine
end

