-- ==== Sys2Proof/Machine/Coh.lean ====
section
/-! DEFINITION. Token coherence: the operations on caches, homes and requests that the coherence steps share (R46 to R69), the
performing of an access at a die cache or far cache (R206, R213, R380 to R382), and what its completion delivers. -/

namespace Sys2Proof.Machine

/-! ## Sites, lines and homes -/

/-- The ten holder sites beside the home (R47). -/
def holderSites : List Nat := [0, 1, 2, 3, 4, 5, 6, 7, 20, 21]

/-- The bit of a site in a predictor's MASK (R51). -/
def siteBit (s : Nat) : Nat := if s < 8 then s else s - 12

/-- Whether a socket is a holder site. -/
def isSite (s : Nat) : Bool := holderSites.contains s

/-- A sector of a cache. -/
def State.line (s : State) (site sec : Nat) : Line := lookupD (site, sec) Line.reset s.coh.lines

/-- Whether a line holds nothing. -/
def Line.isBlank (l : Line) : Bool := decide (l.tok = 0) && !l.rep && !l.far && l.hs == .i

/-- The state with a sector of a cache replaced; one that holds nothing is not listed. -/
def State.setLine (s : State) (site sec : Nat) (l : Line) : State :=
  { s with coh := { s.coh with lines := if l.isBlank then drop (site, sec) s.coh.lines else put (site, sec) l s.coh.lines } }

/-- A sector at its home. -/
def State.homeEntry (s : State) (sec : Nat) : HomeEntry := lookupD sec HomeEntry.reset s.coh.homes

/-- The state with a home's sector replaced. -/
def State.setHome (s : State) (sec : Nat) (h : HomeEntry) : State :=
  { s with coh := { s.coh with homes := if h = HomeEntry.reset then drop sec s.coh.homes else put sec h s.coh.homes } }

/-- A sector in DRAM. -/
def State.dram (s : State) (sec : Nat) : BitVec 512 := BitVec.ofNat 512 (readNum (sec * 64) 64 s.mem)

/-- A sector written to DRAM. -/
def State.setDram (s : State) (sec : Nat) (d : BitVec 512) : State := { s with mem := writeNum (sec * 64) 64 d.toNat s.mem }

/-- SADDR of a local sector: with the module number (R35). -/
def State.saddr (s : State) (sec : Nat) : Nat := sec + 2 ^ 38 * s.nmod

/-- The local sector of a packet. -/
def Packet.sec (p : Packet) : Nat := p.sector % 2 ^ 38

/-- Whether R38 gives a coherence message no requester: MEND, MRET, MDONE and LOST, whose RSOCK and RMOD are zero (R36). -/
def unasked (opc : BitVec 8) : Bool := decide (0x30 ≤ opc.toNat) && decide (opc.toNat ≤ 0x33)

/-- A coherence packet, its sender named as the requester where the message has one. -/
def State.cohPacket (s : State) (opc : BitVec 8) (src dst sec : Nat) : Packet :=
  { Packet.blank with
    opc := opc, vcl := if opc.toNat ≤ 3 ∨ opc = 0x50 then 0 else if opc.toNat < 0x20 ∨ opc = 0x51 then 1 else 2, src := src, dst := dst,
    rsock := if unasked opc then 0 else src, rmod := if unasked opc then 0 else s.fab.nmod, sector := s.saddr sec }

/-- A response to a request: it names the original requester and echoes its TXN (R35). -/
def Packet.answering (p q : Packet) : Packet := { p with rsock := q.rsock, rmod := q.rmod, txn := q.txn }

/-- TOKD with data, TOKN without (R38). -/
def State.tokens (s : State) (src dst sec tok : Nat) (own dirty : Bool) (ser : BitVec 8) (data : Option (BitVec 512)) : Packet :=
  { s.cohPacket (if data.isSome then 0x10 else 0x11) src dst sec with
    dlen := if data.isSome then 2 else 0, tok := tok, own := own, dirty := dirty, ser := ser
    data := match data with | some d => halves d | none => [] }

/-- The data of a packet's first sector. -/
def Packet.sectorData (p : Packet) : BitVec 512 := nth 0 (joinHalves p.data) 0

/-- All tokens a site holds of a sector, sent on in answer to a message: with data if the owner is among them (R53). -/
def State.sendTokens (s : State) (site dst sec : Nat) (q : Packet) : State :=
  let l := s.line site sec
  if l.tok = 0 then s
  else
    let s := s.setLine site sec Line.reset
    s.send ((s.tokens site dst sec l.tok l.own (l.own && l.dirty) l.ser (if l.own then some l.data else none)).answering q)

/-- All tokens a home holds of a sector, sent on in answer to a message (R55). -/
def State.sendHomeTokens (s : State) (dst sec : Nat) (q : Packet) : State :=
  let h := s.homeEntry sec
  if h.htok = 0 then s
  else
    let s := s.setHome sec { h with htok := 0, hown := false }
    s.send ((s.tokens (homeSock sec) dst sec h.htok h.hown false h.ser (if h.hown then some (s.dram sec) else none)).answering q)

/-- Another site's active request for a sector that a site knows of (R59). -/
def State.activeAt (s : State) (site sec : Nat) : Option Active :=
  s.coh.active.find? (fun a => decide (a.site = site) && decide (a.sector = sec) && decide (a.rsock ≠ site))

/-- A message in the name of a persistent request: its requester, and no transaction (R35, R58). -/
def PreqEntry.named (e : PreqEntry) : Packet := { Packet.blank with rsock := e.rsock, rmod := e.rmod }

/-- The active request for a sector at its home (R58). -/
def State.activeHome (s : State) (sec : Nat) : Option PreqEntry :=
  s.coh.preqs.find? (fun e => decide (e.sector = sec) && decide (e.stage = .active))

/-- The sector being mended at its home. -/
def State.mendOf (s : State) (sec : Nat) : Option Mend := s.coh.mends.find? (fun m => decide (m.sector = sec))

/-- The mend note of a site (R48). -/
def State.mendNote (s : State) (site sec : Nat) : Option (BitVec 8) := lookup? (site, sec) s.coh.mendNotes

/-- The misses of a site. -/
def State.missOf (s : State) (site sec : Nat) : Option Miss :=
  (s.coh.misses.find? (fun m => decide (m.1 = site) && decide (m.2.sector = sec))).map Prod.snd

/-- The state without a site's miss for a sector. -/
def State.dropMiss (s : State) (site sec : Nat) : State :=
  { s with coh := { s.coh with misses := s.coh.misses.filter (fun m => !(decide (m.1 = site) && decide (m.2.sector = sec))) } }

/-- A site's miss replaced or added. -/
def State.putMiss (s : State) (site : Nat) (m : Miss) : State :=
  { s with coh := { s.coh with
    misses := if s.coh.misses.any (fun x => decide (x.1 = site) && decide (x.2.sector = m.sector))
      then s.coh.misses.map (fun x => if x.1 = site ∧ x.2.sector = m.sector then (site, m) else x)
      else s.coh.misses ++ [(site, m)] } }

/-! ## What an access gives -/

/-- The tag that a kind and width of R382 stand for. -/
def atomTag (kind size : Nat) : BitVec 4 :=
  if kind = 2 then (if size = 8 then tagF64 else tagF32) else if kind = 1 then (if size = 8 then tagS64 else tagS32)
  else (if size = 8 then tagN64 else tagN32)

/-- The bits of an evaluation. -/
def evalBits (r : Eval) (old : Nat) : Nat :=
  match r with
  | .ok v => v.1.bits.toNat
  | .error _ => old

/-- The new value of an atomic (R380, R381). -/
def atomNew (opn kind size old b comp : Nat) : Nat :=
  let w := 2 ^ (8 * size)
  let v (x : Nat) : Val := ⟨BitVec.ofNat 64 x, atomTag kind size⟩
  if opn = 8 then (if old = comp then b else old)
  else if opn = 6 then b
  else if opn = 0 then evalBits (evalArith 0 false 0 false (v old) (v b)) old % w
  else if opn = 1 then old &&& b
  else if opn = 2 then old ||| b
  else if opn = 3 then old ^^^ b
  else if opn = 4 then evalBits (evalMinMax false false (v old) (v b)) old % w
  else if opn = 5 then evalBits (evalMinMax true false (v old) (v b)) old % w
  else old

/-- A word under a tag: T6x5 leaves bits [31:30] zero (R273). -/
def regOf (x : Nat) (t : BitVec 4) : Reg := ⟨if t = tagT6 then BitVec.ofNat 32 x &&& 0x3FFFFFFF else BitVec.ofNat 32 x, t⟩

/-- The registers an access writes, from the bytes it read (R367, R380). -/
def Access.regs (a : Access) (raw : Nat) : List (Nat × Reg) :=
  let x := if a.size < 4 ∧ a.signed then (if raw.testBit (8 * a.size - 1) then raw + (2 ^ 32 - 2 ^ (8 * a.size)) else raw) else raw
  a.dest.zipIdx.map (fun p => (p.1.1, regOf (x / 2 ^ (32 * p.2)) p.1.2))

/-- Whether an access reads only. -/
def Access.reads (a : Access) : Bool := a.kind == .read

/-- Whether an access comes from the host. -/
def Access.fromHost (a : Access) : Bool := match a.who with | .host _ => true | _ => false

/-- Whether an access needs all 16 tokens: a write, an atomic, or a host read with meta value A (R46, R102). -/
def Access.needsAll (a : Access) : Bool := !a.reads || (a.fromHost && decide (a.mark = 2))

/-- The host state that an access leaves: a host read's meta value, else what it was (R102). -/
def Access.hostAfter (a : Access) (hs : HostState) : HostState :=
  if a.fromHost && a.reads then (if a.mark = 2 then .e else if a.mark = 1 then .s else .i) else hs

/-! ## Requests of other modules (R76, R78, R85) -/

/-- Whether an access of a remote request is still to be performed. -/
def State.serving (s : State) (iod id : Nat) : Bool := s.coh.accesses.any (fun a => decide (a.who = .remote iod id))

/-- A remote request whose last access is done is answered on its plane, and a write counted. -/
def State.remoteDone (s : State) (iod id : Nat) : State :=
  if s.serving iod id then s
  else
    match lookup? id (s.port iod).service with
    | none => s
    | some n =>
      let s := s.setPort iod { s.port iod with service := drop id (s.port iod).service }
      let s := if n.nopc = 5 then s.flagDone iod n else if n.stat = 0 then s.countWrite iod n else s
      let data := if n.nopc = 1 then (maskSectors n.bmask).map (fun h => nth 0 n.data h)
        else if n.nopc.toNat ≤ 4 && n.aop.extractLsb' 4 2 == 2 && n.nopc != 2 then [nth 0 n.data 0] else []
      s.answer n n.stat (if (n.nopc = 3 ∨ n.nopc = 4) ∧ n.stat = 0 ∧ data.isEmpty then n.opb else 0) data

/-- A remote request's sector arrived: data of a read, or the old value of an atomic. -/
def State.remoteData (s : State) (iod id : Nat) (a : Access) (sector raw : Nat) : State :=
  match lookup? id (s.port iod).service with
  | none => s
  | some n =>
    let n' := if n.nopc = 1 then { n with data := setNth (BitVec.ofNat 512 sector) n.data (a.pa / 64 % 2) }
      else if a.size = 16 then { n with data := [BitVec.ofNat 512 raw] } else { n with opb := BitVec.ofNat 64 raw }
    s.setPort iod { s.port iod with service := put id n' (s.port iod).service }

/-- A remote request failed: STAT (R82). -/
def State.remoteFail (s : State) (iod id : Nat) (stat : BitVec 4) : State :=
  match lookup? id (s.port iod).service with
  | none => s
  | some n => s.setPort iod { s.port iod with service := put id { n with stat := stat } (s.port iod).service }

/-! ## Completion -/

/-- Whether an atomic or release write of a core to a sector waits at a die cache, so that no copy of the sector may be kept in
its first-level cache (R213). -/
def State.coreUpdating (s : State) (c : CoreId) (sec : Nat) : Bool :=
  (s.coh.accesses ++ s.coh.cxlReqs).any (fun a =>
    match a.who with
    | .lane t => decide (t.warp.coreId = c) && !a.reads && decide (sectorOf a.pa = sec)
    | _ => false)

/-- A hart of the module (R222). -/
def State.hart (s : State) (n : Nat) : Hart := lookupD n ⟨[], [], none⟩ s.service.harts
/-- A hart changed. -/
def State.onHart (s : State) (n : Nat) (f : Hart → Hart) : State :=
  { s with service := { s.service with harts := put n (f (s.hart n)) s.service.harts } }

/-- A hart's access performed: the value of a read or AMO; LR (mark 1) reserves its sector, SC (mark 2) returns 0 where it has stored and 1
where not, and its reservation is gone (R222). -/
def State.hartTakes (s : State) (n : Nat) (a : Access) (raw : Nat) : State :=
  if a.mark = 2 then
    s.onHart n (fun h => { h with values := h.values ++ [(a.id, if a.reads then 1 else 0)], resv := none })
  else if a.kind = .write then s
  else s.onHart n (fun h => { h with
    values := h.values ++ [(a.id, BitVec.ofNat 64 raw)], resv := if a.mark = 1 then some (sectorOf a.pa) else h.resv })

/-- A sector written: no hart has it reserved any more. -/
def State.breakResv (s : State) (sec : Nat) : State :=
  { s with service := { s.service with
      harts := s.service.harts.map (fun p => if p.2.resv = some sec then (p.1, { p.2 with resv := none }) else p) } }

/-- An SC whose hart has no reservation of its sector stores nothing. -/
def State.settleSc (s : State) (a : Access) : Access :=
  match a.who with
  | .hart n => if a.mark = 2 ∧ (s.hart n).resv ≠ some (sectorOf a.pa) then { a with kind := .read } else a
  | _ => a

/-- The value of an access delivered to whoever waits for it: `sector` the sector's bytes, `raw` the bytes asked for. -/
def State.complete (s : State) (a : Access) (sector raw : Nat) : State :=
  match a.who with
  | .lane t =>
    let s := if a.acq ≥ 3 then s.l1Invalidate t.warp.coreId else s
    let s := if a.kind = .read then
        (if s.coreUpdating t.warp.coreId (sectorOf a.pa) then s.l1DropClean t.warp.coreId (sectorOf a.pa)
         else s.l1Fill t.warp.coreId (sectorOf a.pa) sector a.cls)
      else s
    if a.dest.isEmpty then s else { s with returns := s.returns ++ [⟨t, a.mark, a.regs raw, none⟩] }
  | .host iod => { s with coh := { s.coh with hostReads := s.coh.hostReads ++ [(iod, a.pa, BitVec.ofNat 512 (if a.kind = .read then sector else raw))] } }
  | .remote iod id => (s.remoteData iod id a sector raw).remoteDone iod id
  | .writeBack _ _ => s
  | .engine _ => s
  | .words w => s.onLiveWarp w (fun v => { v with got := put (a.pa + 2 ^ 44 * s.nmod) (bytesOfNat a.size raw) v.got })
  | .hart n => s.hartTakes n a raw
  | .service => s

/-- A machine event that ends an access: class 14 with the physical address (R373, R375). FLAGS.NR is 1 for what may have
been performed. -/
def eventTrap (sub pa : Nat) (nr : Bool) : Trap := ⟨14, sub, BitVec.ofNat 64 pa, if nr then 2 else 0, none⟩

/-- The grid identifier of R468. -/
def State.gridIdent (s : State) (gid : Nat) : Nat :=
  match s.grid? gid with
  | none => 0
  | some g => packBits [(8, g.disp), (8, match g.queue with | some q => q | none => 0xFF), (16, 0), (32, g.index)]

/-- Event 0x05: a write lost whose thread cannot be told (R90, R375, R468). -/
def State.writeLost (s : State) (sock pa gid : Nat) : State :=
  s.raiseEvent 5 sock (BitVec.ofNat 128 (packBits [(64, pa), (64, s.gridIdent gid)]))

/-- The failure of a store is told to its thread at its next run boundary, or, once the thread has exited, to the event's
owner (R375). -/
def State.failStore (s : State) (t : ThreadId) (sub pa : Nat) : State :=
  if (s.thread t).st = .exited then s.writeLost t.warp.die pa (s.bundle t.warp).grid
  else { s with returns := s.returns ++ [⟨t, 0, [], some (eventTrap sub pa true)⟩] }

/-- How long what a unit asked for in vain is remembered: the units of the die that waited for it end their accesses in that time
(R106, log 12). -/
def farFailTime : Nat := 1100

/-- A sector of far memory that a unit of a die asked for in vain. -/
def State.noteFarFail (s : State) (site sec : Nat) : State :=
  s.onCoh (fun c => { c with farFails := put (site, sec) s.time (c.farFails.filter (fun f => decide (s.time < f.2 + farFailTime))) })

/-- Whether a unit's access at a site ends as the host ended its request (R106). -/
def State.farFailed (s : State) (site sec : Nat) : Bool :=
  match lookup? (site, sec) s.coh.farFails with
  | some t => decide (s.time < t + farFailTime)
  | none => false

/-- An access that fails (R375, R82): the trap has the access's own address (log 136), a host's read gets zeros (log 137), another module's
access finds local memory out of service as RANGE (log 141). -/
def State.failAccess (s : State) (a : Access) (sub : Nat) : State :=
  match a.who with
  | .lane t => { s with returns := s.returns ++ [⟨t, a.mark, [], some (eventTrap sub (a.pa + 2 ^ 44 * s.nmod) (!a.reads))⟩] }
  | .remote iod id => (s.remoteFail iod id (if sub = 0x42 then 2 else 1)).remoteDone iod id
  | .host iod => { s with coh := { s.coh with hostReads := s.coh.hostReads ++ [(iod, a.pa, 0)] } }
  | .writeBack _ ts => ts.foldl (fun s t => s.failStore t sub (a.pa + 2 ^ 44 * s.nmod)) s
  | .engine _ => s
  | .words w => s.onLiveWarp w (fun v => { v with got := put (a.pa + 2 ^ 44 * s.nmod) [BitVec.ofNat 8 sub] v.got })
  | .hart _ => s
  | .service => if sub = 0x46 then s.noteFarFail a.site (sectorOf a.pa) else s

/-- The bytes an access asks for, of a sector's data; a read's own bytes stand where the first-level cache had them. -/
def Access.raw (a : Access) (sector : Nat) : Nat :=
  let old := sector / 256 ^ (a.pa % 64) % 256 ^ a.size
  if a.reads then mergeBytes a.size a.wmask.toNat a.wdata.toNat old else old

/-- The sector's data after an access. -/
def Access.newData (a : Access) (sector : Nat) : Nat :=
  match a.kind with
  | .read => sector
  | .atom opn kind =>
    let old := sector / 256 ^ (a.pa % 64) % 256 ^ a.size
    let new := atomNew opn kind a.size old (a.wdata.toNat % 256 ^ a.size) a.comp.toNat
    mergeBytes 64 (onesMask (a.pa % 64) a.size) (new * 256 ^ (a.pa % 64)) sector
  | _ => mergeBytes 64 (a.wmask.toNat * 2 ^ (a.pa % 64)) (a.wdata.toNat * 256 ^ (a.pa % 64)) sector

/-! ## Room in a set (R54, R187, R188) -/

/-- The set of a sector at a site: 24,576 sets of 128-byte lines in a die cache; in a far cache 8,192 sets of sectors
(log 11). -/
def setOf (site sec : Nat) : Nat := if site < 8 then sec / 2 % 24576 else sec % 8192

/-- The line a sector belongs to at a site. -/
def lineOf (site sec : Nat) : Nat := if site < 8 then sec / 2 else sec

/-- The sectors of a site's set. -/
def State.inSet (s : State) (site set : Nat) : List (Nat × Line) :=
  s.coh.lines.filterMap (fun p => if p.1.1 = site ∧ setOf site p.1.2 = set then some (p.1.2, p.2) else none)

/-- The class a line may take: a thirteenth PIN line of a set is REUSE (R188). -/
def State.pinLimit (s : State) (site sec : Nat) (cls : BitVec 2) : BitVec 2 :=
  let pins := (((s.inSet site (setOf site sec)).filter (fun p => p.2.cls == 3 && lineOf site p.1 != lineOf site sec)).map
    (fun p => lineOf site p.1)).eraseDups
  if cls = 3 ∧ pins.length ≥ 12 then 2 else cls

/-- The other sector of a line, if a line of the site has two. -/
def sibling (site sec : Nat) : Option Nat := if site < 8 then some (sec ^^^ 1) else none

/-- The class and the consumed mark of a line, kept in each sector of it. -/
def State.classLine (s : State) (site sec : Nat) (cls : BitVec 2) (consumed : Bool) : State :=
  (sec :: (sibling site sec).toList).foldl (fun s x =>
    let l := s.line site x
    s.setLine site x { l with cls := cls, consumed := consumed, used := s.time }) s

/-- A sector filled: its line takes the class of the access, or where its other sector is there the higher of the two; a fill of class ONCE
is unconsumed (R188, log 145). -/
def State.fillLine (s : State) (site sec : Nat) (cls : BitVec 2) (l : Line) : State :=
  let c := s.pinLimit site sec cls
  let other := match (sibling site sec).map (s.line site) with | some x => if x.isBlank then 0 else x.cls | none => 0
  (s.setLine site sec { l with filled := true }).classLine site sec (if c.toNat < other.toNat then other else c) false

/-- A line used: the access that its sector was filled for is no hit; another raises the line's class, and a hit of class ONCE on an
unconsumed ONCE line marks it consumed (R188). -/
def State.touchLine (s : State) (site sec : Nat) (cls : BitVec 2) : State :=
  let l := s.line site sec
  if l.filled then s.setLine site sec { l with filled := false, used := s.time }
  else
    let c := s.pinLimit site sec cls
    s.classLine site sec (if l.cls.toNat < c.toNat then c else l.cls) (l.consumed || (c == 1 && l.cls == 1))

/-- An access performed on the line that its site holds. -/
def State.perform (s : State) (a : Access) : State :=
  let a := s.settleSc a
  let sec := sectorOf a.pa
  let data := (s.line a.site sec).data.toNat
  let s := if a.reads then s else s.breakResv sec
  let s := s.touchLine a.site sec a.cls
  let l := s.line a.site sec
  let s := s.setLine a.site sec { l with data := BitVec.ofNat 512 (a.newData data), dirty := l.dirty || !a.reads, hs := a.hostAfter l.hs }
  s.complete a data (a.raw data)

/-- Whether two reads are lanes of one instruction that read the same bytes (R376). -/
def Access.shares (a b : Access) : Bool :=
  a.reads && b.reads && decide (a.op ≠ 0) && a.op == b.op && a.site == b.site && a.pa == b.pa && a.size == b.size

/-- An access performed; a read, for every lane of its instruction that reads the same bytes: they share it (R376). -/
def State.performAll (s : State) (a : Access) : State :=
  let mates := s.coh.accesses.filter a.shares
  mates.foldl State.perform ((s.onCoh (fun c => { c with accesses := c.accesses.filter (fun b => !a.shares b) })).perform a)

/-- The back-invalidate snoops of a port that are outstanding at the host (R100). -/
def State.snoopsOut (s : State) (iod : Nat) : Nat := s.coh.snoops.countP (fun x => decide (x.iod = iod) && x.sent)

/-- A back-invalidate snoop sent to the host, or kept until fewer than 256 of its port are outstanding (R100, R103). -/
def State.snoopHost (s : State) (iod sec : Nat) (inval : Bool) (demand : Option Packet) : State :=
  s.onCoh (fun c => { c with snoops := c.snoops ++ [⟨iod, sec, inval, s.time, false, decide (s.snoopsOut iod < 256), demand⟩] })

/-- The next snoop that a port keeps back, sent. -/
def State.snoopNext (s : State) (iod : Nat) : State :=
  match s.coh.snoops.find? (fun x => decide (x.iod = iod) && !x.sent) with
  | some x =>
    if s.snoopsOut iod < 256 then
      s.onCoh (fun c => { c with snoops := c.snoops.map (fun y => if y = x then { x with sent := true, since := s.time } else y) })
    else s
  | none => s

/-- Whether a snoop of a sector is outstanding. -/
def State.snooping (s : State) (iod sec : Nat) : Bool :=
  s.coh.snoops.any (fun x => decide (x.iod = iod) && decide (x.sector = sec))

/-- A CXL.cache message of a die cache to the host (R100, R106). -/
def State.tellHost (s : State) (sec : Nat) (op : CxlOp) : State :=
  s.onCoh (fun c => { c with cxlSent := c.cxlSent ++ [(s.farIod (sec * 64), sec * 64, op)] })

/-- A sector evicted: tokens go home, a replica is dropped, the host is told of a line of far memory, with its data where it is dirty (R54,
R100, R106). -/
def State.evict (s : State) (site sec : Nat) : State :=
  let l := s.line site sec
  if l.hs ≠ .i ∧ site ≥ 20 then (if s.snooping site sec then s else s.snoopHost site sec true none)
  else if l.far then
    let s := s.setLine site sec Line.reset
    let s := s.onCoh (fun c => { c with farSnoop := c.farSnoop.filter (fun p => p ≠ (site, sec)) })
    if l.dirty then
      (s.tellHost sec .dirtyEvict).onCoh (fun c => { c with hostReads := c.hostReads ++ [(s.farIod (sec * 64), sec * 64, l.data)] })
    else s.tellHost sec .cleanEvict
  else if l.tok = 0 then s.setLine site sec Line.reset
  else s.sendTokens site (homeSock sec) sec Packet.blank

/-- Room for a sector at a site: where its set holds 16 other lines, the victim of R188 is evicted. -/
def State.makeRoom (s : State) (site sec : Nat) : State :=
  let here := s.inSet site (setOf site sec)
  let lines := (here.map (fun p => lineOf site p.1)).eraseDups
  if lines.contains (lineOf site sec) || decide (lines.length < 16) then s
  else
    match leastBy (fun p => (rankOf p.2.cls p.2.consumed, p.2.used)) here with
    | none => s
    | some v => (here.filter (fun p => decide (lineOf site p.1 = lineOf site v.1))).foldl (fun s p => s.evict site p.1) s

/-- Whether a set of a far cache has a way for a sector, beside its other lines and those that its misses will fill: a victim that the host
still holds gives its way up only after its BIRsp (R102, R103). -/
def State.hasWay (s : State) (site sec : Nat) : Bool :=
  let set := setOf site sec
  let taken := ((s.inSet site set).map Prod.fst ++
    s.coh.misses.filterMap (fun m => if m.1 = site ∧ setOf site m.2.sector = set then some m.2.sector else none)).eraseDups
  decide (site < 20) || taken.contains sec || decide (taken.length < 16)

/-- The sectors that the host holds by a far cache, its snoop filter's entries (R102). -/
def State.filterOf (s : State) (iod : Nat) : List (Nat × Line) :=
  s.coh.lines.filterMap (fun p => if p.1.1 = iod ∧ p.2.hs ≠ .i then some (p.1.2, p.2) else none)

/-- Whether the snoop filter has an entry for a sector that the host is about to hold: it has it, or has room (R102). -/
def State.filterRoom (s : State) (iod sec : Nat) : Bool :=
  (s.line iod sec).hs != .i || decide ((s.filterOf iod).length < 262144)

/-- The least recently used entry of a snoop filter evicted (R103). -/
def State.evictFilter (s : State) (iod : Nat) : State :=
  match leastBy (fun p => (0, p.2.used)) (s.filterOf iod) with
  | some v => s.evict iod v.1
  | none => s

/-! ## Requests (R50 to R52) -/

/-- The predictor's index and tag of a sector (R51). -/
def predIndex (sec : Nat) : Nat := sec * 64 / 2 ^ 14 % 4096
/-- See `predIndex`. -/
def predTag (sec : Nat) : BitVec 14 := BitVec.ofNat 14 (sec * 64 / 2 ^ 26)

/-- Where a request goes: the predicted set or all sites, and the home, never the requester; and the predictor then (R51). -/
def State.destinations (s : State) (site sec : Nat) : List Nat × State :=
  let i := predIndex sec
  match lookup? (site, i) s.coh.pred with
  | some e =>
    if e.tag = predTag sec then
      ((holderSites.filter (fun x => e.mask.getLsbD (siteBit x) && x != site)) ++ [homeSock sec], s)
    else (holderSites.filter (· != site) ++ [homeSock sec],
      { s with coh := { s.coh with pred := put (site, i) ⟨predTag sec, 0⟩ s.coh.pred } })
  | none => (holderSites.filter (· != site) ++ [homeSock sec],
      { s with coh := { s.coh with pred := put (site, i) ⟨predTag sec, 0⟩ s.coh.pred } })

/-- The request packet of a miss to one destination. -/
def State.request (s : State) (site : Nat) (m : Miss) (dst : Nat) : Packet :=
  { s.cohPacket (if m.replica then 3 else if m.write then 2 else 1) site dst m.sector with
    txn := m.txn, attempt := BitVec.ofNat 2 m.attempt }

/-- A miss sent to all sites and the home (R52). -/
def State.broadcast (s : State) (site : Nat) (m : Miss) : State :=
  s.sendAll ((holderSites.filter (· != site) ++ [homeSock m.sector]).map (s.request site m))

/-- A miss sent as a first issue: a replica read to its home, another to the predicted set or to all (R51, R66). -/
def State.firstIssue (s : State) (site : Nat) (m : Miss) : State :=
  if m.replica then s.send (s.request site m (homeSock m.sector))
  else
    let d := s.destinations site m.sector
    d.2.sendAll (d.1.map (d.2.request site m))

/-- A miss entry allocated and first issued (R50). -/
def State.issueMiss (s : State) (site sec : Nat) (write replica : Bool) : State :=
  let m : Miss := { sector := sec, write := write, txn := s.coh.nextTxn, attempt := 0, first := s.time, last := s.time,
                    raised := false, rmod := s.fab.nmod, replica := replica, covered := false, sent := 0 }
  let s := { s with coh := { s.coh with nextTxn := s.coh.nextTxn + 1 } }
  (s.putMiss site m).firstIssue site m

/-- The number of miss entries of a site (R48). -/
def State.missCount (s : State) (site : Nat) : Nat := s.coh.misses.countP (fun m => decide (m.1 = site))

/-- Whether a site may perform a read or a write of a sector on the tokens it holds (R46, R66). -/
def Line.allows (l : Line) (write : Bool) : Bool :=
  if write then decide (l.tok = 16) && l.dv else (decide (1 ≤ l.tok) && l.dv) || l.rep

/-- Whether the host's copy forbids an access at a far cache (R102, R103). -/
def Line.hostBars (l : Line) (write : Bool) : Bool := if write then l.hs != .i else l.hs == .e

/-- Whether the host's copy forbids this access: its own reads and writes never, its AtomicOps while it holds a copy (R102). -/
def Line.barsAccess (l : Line) (a : Access) : Bool :=
  match a.kind with
  | .atom _ _ => l.hostBars true
  | _ => !a.fromHost && l.hostBars (!a.reads)

/-- A memory die is OFFLINE, so local memory is out of service (R114). -/
def State.localOut (s : State) : Bool := s.mgmt.dieState.any (fun p => decide (8 ≤ p.1) && decide (p.1 ≤ 19) && p.2 == 2)

/-- The accesses without number n. -/
def State.dropAccess (s : State) (n : Nat) : State := { s with coh := { s.coh with accesses := removeNth s.coh.accesses n } }

/-- The first waiting access of a site and sector with its number. -/
def State.firstAccess (s : State) (site sec : Nat) : Option (Access × Nat) :=
  s.coh.accesses.zipIdx.find? (fun p => decide (p.1.site = site) && decide (sectorOf p.1.pa = sec))

/-- The waiting accesses of a site and sector performed, in order, as far as its tokens allow; n bounds their number. -/
def drainAccesses (site sec : Nat) : Nat → State → State
  | 0, s => s
  | n + 1, s =>
    match s.firstAccess site sec with
    | none => s
    | some (a, k) =>
      let l := s.line site sec
      if l.allows a.needsAll && !l.barsAccess a then drainAccesses site sec n ((s.dropAccess k).performAll a) else s

/-- Every waiting access of a site and sector ended with a failure (R64). -/
def failAccesses (site sec sub : Nat) : Nat → State → State
  | 0, s => s
  | n + 1, s =>
    match s.firstAccess site sec with
    | none => s
    | some (a, k) => failAccesses site sec sub n ((s.dropAccess k).failAccess a sub)

/-- PDONE of a miss whose persistent request has been raised (R60). -/
def State.reportDone (s : State) (site : Nat) (m : Miss) : State :=
  if m.raised then s.send { s.cohPacket 0x22 site (homeSock m.sector) m.sector with rmod := m.rmod } else s

/-- A miss that its tokens satisfy ends: the waiting accesses are performed, a GETX makes MASK exactly its senders, a die cache's
hold-off begins, and a raised request sends PDONE (R51, R54, R60). While a mend note stands, the site's accesses stall (R63). -/
def State.settle (s : State) (site sec : Nat) : State :=
  match s.missOf site sec with
  | none => s
  | some m =>
    if (s.line site sec).allows m.write && (s.mendNote site sec).isNone then
      let s := s.dropMiss site sec
      let i := predIndex sec
      let s := if m.write && !m.replica then
          match lookup? (site, i) s.coh.pred with
          | some e => if e.tag = predTag sec then { s with coh := { s.coh with pred := put (site, i) { e with mask := m.sent } s.coh.pred } } else s
          | none => s
        else s
      let s := if (s.line site sec).tok = 0 ∨ 8 ≤ site then s else { s with coh := { s.coh with holdoff := put (site, sec) (s.time + 64) s.coh.holdoff } }
      (drainAccesses site sec s.coh.accesses.length s).reportDone site m
    else s

/-- Whether a sector lies in far memory (R105). -/
def isFarSec (sec : Nat) : Bool := decide (farBase / 64 ≤ sec)

/-! ## Reads and writes by the units of a die: walkers, engines, dispatchers, firmware (R46, R50, R192, log 12) -/

/-- Whether a site may use the sector that it holds just now: it stalls while another site's persistent request is active or a mend note
stands (R59, R63). -/
def State.stalled (s : State) (site sec : Nat) : Bool := (s.activeAt site sec).isSome || (s.mendNote site sec).isSome

/-- The data of a sector that a site may read: under a token or as a replica, or a cached sector of far memory (R46, R66, R106). -/
def State.peekSector (s : State) (site sec : Nat) : Option (BitVec 512) :=
  let l := s.line site sec
  if isFarSec sec then (if l.far && l.dv then some l.data else none)
  else if l.allows false && !l.hostBars false && !s.stalled site sec then some l.data
  else none

/-- Whether a site may write a sector: under all 16 tokens, or owned of the host (R46, R106). -/
def State.mayWrite (s : State) (site sec : Nat) : Bool :=
  let l := s.line site sec
  if isFarSec sec then l.far && l.hs == .e
  else l.allows true && !l.hostBars true && !s.stalled site sec

/-- A sector that a unit of a die waits for is asked for by its cache, as a miss under R50, or of the host: the unit reads or writes it once
it has come. -/
def State.wantSector (s : State) (site sec : Nat) (write : Bool) (cls : BitVec 2 := 2) : State :=
  if s.coh.accesses.any (fun a => decide (a.who = .service) && decide (a.site = site) && decide (sectorOf a.pa = sec)) ||
     s.coh.cxlReqs.any (fun a => decide (a.who = .service) && decide (a.site = site) && decide (sectorOf a.pa = sec)) then s
  else
    s.queueAccesses [{
      id := s.fresh, who := .service, site := site, kind := if write then .write else .read, va := 0, pa := sec * 64
      size := 64, wdata := 0, wmask := 0, comp := 0, dest := [], signed := false, cls := cls, rep := false, mark := 0, acq := 0 }]

/-- Bytes of the module's memory one by one, each of the sector it lies in. -/
def State.peekEach (s : State) (site pa : Nat) : Nat → Option (List Byte)
  | 0 => some []
  | n + 1 =>
    match s.peekSector site (sectorOf pa), s.peekEach site (pa + 1) n with
    | some d, some t => some (BitVec.ofNat 8 (byteAt d.toNat (pa % 64)) :: t)
    | _, _ => none

/-- Bytes of the module's memory as a site may read them: of one sector, or one by one. -/
def State.peekBytes (s : State) (site pa n : Nat) : Option (List Byte) :=
  if pa % 64 + n ≤ 64 ∧ 0 < n then
    (s.peekSector site (sectorOf pa)).map (fun d => (List.range n).map (fun i => BitVec.ofNat 8 (byteAt d.toNat (pa % 64 + i))))
  else s.peekEach site pa n

/-- One byte written at a site that may write its sector. -/
def State.pokeByte (s : State) (site pa : Nat) (b : Byte) : Option State :=
  if s.mayWrite site (sectorOf pa) then
    let l := s.line site (sectorOf pa)
    some ((s.breakResv (sectorOf pa)).setLine site (sectorOf pa) { l with
      data := BitVec.ofNat 512 (mergeBytes 64 (onesMask (pa % 64) 1) (b.toNat * 256 ^ (pa % 64)) l.data.toNat), dirty := true })
  else none

/-- Bytes written one after another at a site. -/
def State.pokeBytes (s : State) (site pa : Nat) : List Byte → Option State
  | [] => some s
  | b :: t =>
    match s.pokeByte site pa b with
    | none => none
    | some s => s.pokeBytes site (pa + 1) t

end Sys2Proof.Machine
end

