-- ==== Sys2Proof/Machine/Coherence.lean ====
section
/-! DEFINITION. The steps of the coherence protocol: transient requests, token messages, persistent requests, mending and
replica reads (R50 to R67), each carried out by the site that a packet has reached. -/

namespace Sys2Proof.Machine

/-! ## Arrived packets -/

/-- The packet that `pick` names among those that have reached a die, where its OPC is the one looked for. -/
def State.arrived (s : State) (opc : BitVec 8) : Option (Nat × Packet) :=
  match nth? s.net.inbox s.pick with
  | some e => if e.2.opc = opc then some e else none
  | none => none

/-- The state without the arrived packet that `pick` names. -/
def State.takeArrived (s : State) : State := { s with net := { s.net with inbox := removeNth s.net.inbox s.pick } }

/-- A message carried out by the die it has reached; without one, nothing happens. -/
def onPacket (opc : BitVec 8) (f : Nat → Packet → State → State) (s : State) : Host.Outcome State Fault Refusal :=
  match s.arrived opc with
  | some e => .next (f e.1 e.2 s.takeArrived)
  | none => .next s

/-! ## DIE_CACHE_ACCESS (R50, R54, R66, R106) -/

/-- What a die cache asks the host for: a shared copy for a read, an owned one for a write or an atomic, ownership without data for a whole
sector (R100, R106, log 144). -/
def Access.cxlOp (a : Access) : CxlOp :=
  if a.reads then .rdShared else if a.kind = .write ∧ a.size = 64 ∧ a.wmask = BitVec.allOnes 64 then .itoMWr else .rdOwn

/-- An access to far memory, behind the requests that its die cache has made for the sector: served by a cached sector, else requested of
the host (R106, R205). -/
def farAccess (n : Nat) (a : Access) (s : State) : State :=
  let l := s.line a.site (sectorOf a.pa)
  if s.coh.cxlReqs.any (fun x => decide (x.site = a.site) && decide (sectorOf x.pa = sectorOf a.pa)) then s
  else if l.far && l.dv && (a.reads || l.hs == .e) then (s.dropAccess n).performAll a
  else ((s.dropAccess n).tellHost (sectorOf a.pa) a.cxlOp).onCoh (fun c => { c with cxlReqs := c.cxlReqs ++ [a] })

/-- An access to a local sector: performed under the tokens held, else a miss is issued (R46, R50, R66). -/
def localAccess (n : Nat) (a : Access) (s : State) : State :=
  let sec := sectorOf a.pa
  let l := s.line a.site sec
  if s.stalled a.site sec || s.snooping a.site sec then s
  else if l.allows a.needsAll then
    if l.barsAccess a then s.snoopHost a.site sec (!a.reads) none
    else if a.fromHost && a.hostAfter .i != .i && !s.filterRoom a.site sec then s.evictFilter a.site
    else (s.dropAccess n).performAll a
  else if (s.missOf a.site sec).isSome || decide (512 ≤ s.missCount a.site) then s
  else if !s.hasWay a.site sec then s.makeRoom a.site sec
  else s.issueMiss a.site sec a.needsAll (a.rep && a.reads)

/-- DIE_CACHE_ACCESS: the access that `pick` names; accesses of one sector at one cache keep their order (R205). -/
def execDieCacheAccess (s : State) : Host.Outcome State Fault Refusal :=
  match nth? s.coh.accesses s.pick with
  | none => .next s
  | some a =>
    if (s.coh.accesses.take s.pick).any (fun x => decide (x.site = a.site) && decide (sectorOf x.pa = sectorOf a.pa)) then .next s
    else if a.pa ≥ farBase then .next (farAccess s.pick a s)
    else if s.localOut then .next ((s.dropAccess s.pick).failAccess a 0x47)
    else .next (localAccess s.pick a s)

/-! ## Transient requests (R53, R55, R103) -/

/-- A request that reaches a site in its hold-off waits for its end (R54). -/
def State.holdRequest (s : State) (site : Nat) (p : Packet) : State :=
  { s with coh := { s.coh with heldReqs := s.coh.heldReqs ++ [(site, p)] } }

/-- Whether a site knows its own request for a sector to be active (R60). -/
def State.requesterAt (s : State) (site sec : Nat) : Bool :=
  s.coh.active.any (fun a => decide (a.site = site) && decide (a.sector = sec) && decide (a.rsock = site))

/-- Whether a site ignores the transient requests of others for a sector: another site's persistent request is active there, or its own, and
not yet satisfied (R59, R60). -/
def State.keepsTokens (s : State) (site sec : Nat) : Bool :=
  (s.activeAt site sec).isSome || (s.requesterAt site sec && (s.missOf site sec).isSome)

/-- What waits for the host to give up its copy of a sector at a far cache: a snoop is sent, or one is under way (R103). -/
def State.awaitHost (s : State) (site : Nat) (inval : Bool) (p : Packet) : State :=
  if s.snooping site p.sec then s.holdRequest site p else s.snoopHost site p.sec inval (some p)

/-- GETS at a holder site; the last token of a sector that the host shares leaves only once the host has given its copy up (R53, R102,
R103, log 142). -/
def getsAtSite (site : Nat) (p : Packet) (s : State) : State :=
  let sec := p.sec
  let l := s.line site sec
  if s.keepsTokens site sec || decide (l.tok = 0) || !l.own then s
  else if (lookup? (site, sec) s.coh.holdoff).isSome then s.holdRequest site p
  else if l.hs = .e then s.awaitHost site false p
  else if 2 ≤ l.tok then
    let s := s.setLine site sec { l with tok := l.tok - 1 }
    s.send ((s.tokens site p.src sec 1 false false l.ser (some l.data)).answering p)
  else if l.hs ≠ .i then s.awaitHost site true p
  else s.sendTokens site p.src sec p

/-- GETX at a holder site (R53, R103). -/
def getxAtSite (site : Nat) (p : Packet) (s : State) : State :=
  let sec := p.sec
  let l := s.line site sec
  if s.keepsTokens site sec then s
  else if l.hs ≠ .i then s.awaitHost site true p
  else if l.tok = 0 then s
  else if (lookup? (site, sec) s.coh.holdoff).isSome then s.holdRequest site p
  else s.sendTokens site p.src sec p

/-- DLOSS in answer to a request, or to an active persistent requester (R64). -/
def State.sendLoss (s : State) (sec dst : Nat) (q : Packet) : State :=
  s.send ({ s.cohPacket 0x14 (homeSock sec) dst sec with cause := 1 }.answering q)

/-- Whether another site's persistent request is active at the home (R59). -/
def State.homeYields (s : State) (sec q : Nat) : Bool :=
  match s.activeHome sec with
  | some e => decide (e.rsock ≠ q)
  | none => false

/-- GETS at the home (R53, R55, R64). -/
def getsAtHome (p : Packet) (s : State) : State :=
  let sec := p.sec
  let h := s.homeEntry sec
  if h.lostb then s.sendLoss sec p.src p
  else if s.homeYields sec p.src || decide (h.htok = 0) || !h.hown then s
  else if 2 ≤ h.htok then
    let s := s.setHome sec { h with htok := h.htok - 1 }
    s.send ((s.tokens (homeSock sec) p.src sec 1 false false h.ser (some (s.dram sec))).answering p)
  else s.sendHomeTokens p.src sec p

/-- GETX at the home (R53, R55, R64). -/
def getxAtHome (p : Packet) (s : State) : State :=
  let sec := p.sec
  if (s.homeEntry sec).lostb then s.sendLoss sec p.src p
  else if s.homeYields sec p.src then s
  else s.sendHomeTokens p.src sec p

/-- GETS (R53). -/
def execGets (s : State) : Host.Outcome State Fault Refusal :=
  onPacket 0x01 (fun d p s => if isSite d then getsAtSite d p s else getsAtHome p s) s

/-- GETX (R53). -/
def execGetx (s : State) : Host.Outcome State Fault Refusal :=
  onPacket 0x02 (fun d p s => if isSite d then getxAtSite d p s else getxAtHome p s) s

/-! ## Token messages (R51, R53, R55, R59, R60) -/

/-- The predictor entry and the miss learn who sent tokens (R51). -/
def State.trainFrom (s : State) (site sec src : Nat) : State :=
  if !isSite src then s
  else
    let b : BitVec 10 := 1#10 <<< siteBit src
    let i := predIndex sec
    let s := match lookup? (site, i) s.coh.pred with
      | some e => if e.tag = predTag sec then { s with coh := { s.coh with pred := put (site, i) { e with mask := e.mask ||| b } s.coh.pred } } else s
      | none => s
    match s.missOf site sec with
    | some m => s.putMiss site { m with sent := m.sent ||| b }
    | none => s

/-- The tokens of a message added to a site's line; the first ones fill it, with the class of the access that waits longest (R53, R188). -/
def State.addTokens (s : State) (site : Nat) (p : Packet) : State :=
  let sec := p.sec
  let s := s.makeRoom site sec
  let l := s.line site sec
  let data := p.opc == 0x10
  let l' := { l with
    tok := l.tok + p.tok, own := l.own || p.own, dirty := if p.own then p.dirty else l.dirty, dv := l.dv || data
    ser := if l.tok = 0 then p.ser else l.ser, data := if data then p.sectorData else l.data, rep := false, used := s.time }
  if l.tok = 0 then s.fillLine site sec (match s.firstAccess site sec with | some a => a.1.cls | none => l.cls) l'
  else s.setLine site sec l'

/-- TOKD or TOKN at a holder site (R53, R59, R60). -/
def tokensAtSite (site : Nat) (p : Packet) (s : State) : State :=
  let sec := p.sec
  let l := s.line site sec
  let staleNote := match s.mendNote site sec with | some v => p.ser != v | none => false
  if staleNote || (decide (l.tok ≠ 0) && p.ser != l.ser) then s
  else
    match s.activeAt site sec with
    | some a => s.send { p with src := site, dst := a.rsock, rsock := a.rsock, rmod := a.rmod, txn := 0 }
    | none =>
      if decide (l.tok = 0) && (s.missOf site sec).isNone && !s.requesterAt site sec then s.send { p with src := site, dst := homeSock sec }
      else ((s.addTokens site p).trainFrom site sec p.src).settle site sec

/-- TOKD or TOKN at the home: a stale serial is discarded, dirty data is written to DRAM, and tokens go on to an active
requester (R55, R59, R62). -/
def tokensAtHome (p : Packet) (s : State) : State :=
  let sec := p.sec
  let h := s.homeEntry sec
  if p.ser ≠ h.ser ∨ (s.mendOf sec).isSome then s
  else
    let s := if p.own && p.dirty then s.setDram sec p.sectorData else s
    let s := s.setHome sec { h with htok := h.htok + p.tok, hown := h.hown || p.own }
    match s.activeHome sec with
    | some e => s.sendHomeTokens e.rsock sec e.named
    | none => s

/-- TOKD (R53). -/
def execTokd (s : State) : Host.Outcome State Fault Refusal :=
  onPacket 0x10 (fun d p s => if isSite d then tokensAtSite d p s else tokensAtHome p s) s

/-- TOKN (R53). -/
def execTokn (s : State) : Host.Outcome State Fault Refusal :=
  onPacket 0x11 (fun d p s => if isSite d then tokensAtSite d p s else tokensAtHome p s) s

/-! ## Timers of misses (R52, R56) -/

/-- The k-th miss of a site. -/
def State.missAt (s : State) (site k : Nat) : Option Miss :=
  (nth? (s.coh.misses.filter (fun m => decide (m.1 = site))) k).map Prod.snd

/-- One microsecond (R52). -/
def microsecond : Nat := 1100

/-- How many requests of a site last at a home (R56). -/
def State.lastingAt (s : State) (site home : Nat) : Nat :=
  s.coh.lasting.countP (fun p => decide (p.1 = site) && decide (homeSock p.2 = home))

/-- Whether a site may raise a persistent request for a sector (R56). -/
def State.mayRaise (s : State) (site sec : Nat) : Bool :=
  !(s.coh.lasting.contains (site, sec)) && decide (s.lastingAt site (homeSock sec) < 6)

/-- PREQ of a miss (R56). -/
def State.sendPreq (s : State) (site : Nat) (m : Miss) : State :=
  s.send { s.cohPacket 0x20 site (homeSock m.sector) m.sector with rmod := m.rmod, pk := m.write }

/-- MISS_REISSUE: one microsecond after its last issue an unsatisfied miss is broadcast again (R52, R56). The timer of one that has raised a
request runs on, and recovers a PREQ that was lost: it is sent again until the site knows the request to be active (R42, log 143). A
replica miss becomes a GETS (log 134). -/
def execMissReissue (site k : Nat) (s : State) : Host.Outcome State Fault Refusal :=
  match s.missAt site k with
  | none => .next s
  | some m =>
    if s.time < m.last + microsecond ∨ (!m.raised ∧ m.attempt = 2 ∧ s.mayRaise site m.sector) then .next s
    else
      let m := { m with attempt := Nat.min 2 (m.attempt + 1), last := s.time, replica := false }
      let s := (s.putMiss site m).broadcast site m
      .next (if m.raised && !s.requesterAt site m.sector then s.sendPreq site m else s)

/-- The module that a persistent request names: that of the remote access which has waited longest at a far cache, where it is one that
waits first, else the site's own (R56). -/
def State.raisedFor (s : State) (site sec : Nat) : BitVec 8 :=
  match s.firstAccess site sec with
  | some (a, _) =>
    match a.who with
    | .remote iod id => match lookup? id (s.port iod).service with | some n => n.smod | none => s.fab.nmod
    | _ => s.fab.nmod
  | none => s.fab.nmod

/-- PREQ_RAISE: a microsecond after its second broadcast, a miss raises a persistent request (R52, R56). -/
def execPreqRaise (site k : Nat) (s : State) : Host.Outcome State Fault Refusal :=
  match s.missAt site k with
  | none => .next s
  | some m =>
    if s.time < m.last + microsecond ∨ m.raised ∨ m.attempt ≠ 2 ∨ !s.mayRaise site m.sector then .next s
    else
      let m := { m with raised := true, rmod := s.raisedFor site m.sector, last := s.time }
      let s := (s.putMiss site m).onCoh (fun c => { c with lasting := c.lasting ++ [(site, m.sector)] })
      .next (s.sendPreq site m)

/-! ## Persistent requests (R57 to R60) -/

/-- The first of a list's elements that equals another replaced. -/
def replaceFirst {α : Type} [DecidableEq α] (a b : α) : List α → List α
  | [] => []
  | x :: t => if x = a then b :: t else x :: replaceFirst a b t

/-- An entry of the table replaced: that very one, for a site may have another for the sector while its former one is ending (R56). -/
def State.putPreq (s : State) (old new : PreqEntry) : State :=
  s.onCoh (fun c => { c with preqs := replaceFirst old new c.preqs })

/-- A message from the home to all ten holder sites (R38). -/
def State.toSites (s : State) (f : Nat → Packet) : State := s.sendAll (holderSites.map f)

/-- PDEACT once the ten PACKs of its PACT are in and PDONE has come, and the sector is not being mended (R58, R69). -/
def State.mayDeactivate (s : State) (sec : Nat) : State :=
  match s.activeHome sec with
  | none => s
  | some e =>
    if e.packs = 10 ∧ e.pdone ∧ (s.mendOf sec).isNone then
      let s := s.putPreq e { e with stage := .ending, packs := 0 }
      s.toSites (fun d => { s.cohPacket 0x23 (homeSock sec) d sec with rmod := e.rmod, rsock := e.rsock, pk := e.pk })
    else s

/-- The lowest of the marked entries of a sector by (RMOD, RSOCK) (R57). -/
def State.lowestMarked (s : State) (sec : Nat) : Option PreqEntry :=
  leastBy (fun e => (e.rmod.toNat, e.rsock)) (s.coh.preqs.filter (fun e => decide (e.sector = sec) && decide (e.stage = .marked)))

/-- Activation of an entry: PACT to all ten sites, and the home's own tokens to the requester (R58). -/
def State.activate (s : State) (e : PreqEntry) : State :=
  let s := s.putPreq e { e with stage := .active, packs := 0, since := s.time }
  let s := s.toSites (fun d => { s.cohPacket 0x21 (homeSock e.sector) d e.sector with rmod := e.rmod, rsock := e.rsock, pk := e.pk })
  s.sendHomeTokens e.rsock e.sector e.named

/-- The home's decision on a sector: where no request is active and the sector is not being mended, the lowest marked entry
is activated; with none marked, every waiting one is marked first (R57). -/
def State.decidePreq (s : State) (sec : Nat) : State :=
  if s.coh.preqs.any (fun e => decide (e.sector = sec) && (decide (e.stage = .active) || decide (e.stage = .ending))) ||
      (s.mendOf sec).isSome then s
  else
    match s.lowestMarked sec with
    | some e => s.activate e
    | none =>
      let s := { s with coh := { s.coh with preqs := s.coh.preqs.map (fun (e : PreqEntry) =>
        if e.sector = sec ∧ e.stage = PreqStage.waiting then { e with stage := .marked } else e) } }
      match s.lowestMarked sec with
      | some e => s.activate e
      | none => s

/-- Whether the home has a site's request for a sector already, in its table and not ending, or held: another PREQ of the site for it is the
same one, sent again (R42, R56). -/
def State.knowsPreq (s : State) (sec rsock : Nat) : Bool :=
  s.coh.preqs.any (fun e => decide (e.sector = sec) && decide (e.rsock = rsock) && decide (e.stage ≠ .ending)) ||
  s.coh.preqHeld.any (fun q => decide (q.sec = sec) && decide (q.rsock = rsock))

/-- A PREQ entered in the table as waiting, with the PDONE that has come before it, or held while the home's table of 64 is full (R56 to
R58). -/
def State.enterPreq (s : State) (d : Nat) (p : Packet) : State :=
  if s.knowsPreq p.sec p.rsock then s
  else if s.coh.preqs.countP (fun e => decide (homeSock e.sector = d)) < 64 then
    let e : PreqEntry := ⟨p.sec, p.rmod, p.rsock, p.pk, .waiting, 0, s.coh.doneEarly.contains (p.sec, p.rsock), s.time⟩
    s.onCoh (fun c => { c with preqs := c.preqs ++ [e], doneEarly := c.doneEarly.erase (p.sec, p.rsock) })
  else s.onCoh (fun c => { c with preqHeld := c.preqHeld ++ [p] })

/-- PREQ, with every other PREQ for its sector that stands at the home in the same cycle: all are entered before the home decides, so
that they are marked together (R57). -/
def execPreq (s : State) : Host.Outcome State Fault Refusal :=
  onPacket 0x20 (fun d p s =>
    let along := fun (e : Nat × Packet) => decide (e.1 = d) && e.2.opc == 0x20 && decide (e.2.sec = p.sec)
    let more := s.net.inbox.filter along
    let s := { s with net := { s.net with inbox := s.net.inbox.filter (fun e => !along e) } }
    ((more.map Prod.snd).foldl (fun s q => s.enterPreq d q) (s.enterPreq d p)).decidePreq p.sec) s

/-- GETS and GETX held for a sector are ignored, for a persistent request or a mending takes its tokens (R54, R59, R63). -/
def State.dropHeld (s : State) (site sec : Nat) : State :=
  s.onCoh (fun c => { c with heldReqs := c.heldReqs.filter (fun h =>
    !(decide (h.1 = site) && decide (h.2.sec = sec) && (h.2.opc == 1 || h.2.opc == 2))) })

/-- The activation of a request entered at a site (R59). -/
def State.enterActive (s : State) (a : Active) : State :=
  if s.coh.active.contains a then s else s.onCoh (fun c => { c with active := c.active ++ [a] })

/-- PACT at a site: it is entered in the activation table; at another site than the requester the hold-off ends, host copies are settled, and
the tokens go to the requester; PACK answers, and PDONE where the site has no such request any more (R58, R59, R69, R103). -/
def pactAtSite (site : Nat) (p : Packet) (s : State) : State :=
  let sec := p.sec
  let pack := fun (s : State) => s.send { s.cohPacket 0x24 site p.src sec with rmod := p.rmod, rsock := p.rsock, pk := p.pk }
  let s := s.enterActive ⟨site, sec, p.rmod, p.rsock, p.pk⟩
  if p.rsock = site then
    let s := pack s
    if s.coh.lasting.contains (site, sec) then s
    else s.send { s.cohPacket 0x22 site p.src sec with rmod := p.rmod }
  else
    let s := (s.onCoh (fun c => { c with holdoff := drop (site, sec) c.holdoff })).dropHeld site sec
    if (s.line site sec).hs ≠ .i then s.awaitHost site true p else pack (s.sendTokens site p.rsock sec p)

/-- PACT (R59). -/
def execPact (s : State) : Host.Outcome State Fault Refusal := onPacket 0x21 pactAtSite s

/-- PDEACT at a site: the activation ends, and for the requester its request (R56, R58). -/
def execPdeact (s : State) : Host.Outcome State Fault Refusal :=
  onPacket 0x23 (fun site p s =>
    let sec := p.sec
    let s := { s with coh := { s.coh with
      active := s.coh.active.filter (fun a => !(decide (a.site = site) && decide (a.sector = sec)))
      lasting := if p.rsock = site then s.coh.lasting.filter (fun x => x ≠ (site, sec)) else s.coh.lasting } }
    s.send { s.cohPacket 0x24 site p.src sec with rmod := p.rmod, rsock := p.rsock, pk := p.pk }) s

/-- PDONE at the home: recorded whenever it comes, on its entry, or for the PREQ that it has overtaken (R58, R69). -/
def execPdone (s : State) : Host.Outcome State Fault Refusal :=
  onPacket 0x22 (fun _ p s =>
    match s.coh.preqs.find? (fun e => decide (e.sector = p.sec) && decide (e.rsock = p.rsock) && decide (e.stage ≠ .ending)) with
    | none => s.onCoh (fun c => { c with doneEarly := c.doneEarly ++ [(p.sec, p.rsock)] })
    | some e => (s.putPreq e { e with pdone := true }).mayDeactivate p.sec) s

/-- A held PREQ enters the table as an entry leaves it (R56). -/
def State.admitHeld (s : State) (home : Nat) : State :=
  match s.coh.preqHeld.find? (fun p => decide (homeSock p.sec = home)) with
  | none => s
  | some p => { s with coh := { s.coh with preqHeld := s.coh.preqHeld.erase p } }.enterPreq home p |>.decidePreq p.sec

/-- PACK at the home: ten end an activation's start, or its end; a sector has one entry at a time that is active or ending (R58). -/
def execPack (s : State) : Host.Outcome State Fault Refusal :=
  onPacket 0x24 (fun d p s =>
    match s.coh.preqs.find? (fun e => decide (e.sector = p.sec) && (decide (e.stage = .active) || decide (e.stage = .ending))) with
    | none => s
    | some e =>
      if e.stage = .active then (s.putPreq e { e with packs := e.packs + 1 }).mayDeactivate p.sec
      else if e.packs + 1 < 10 then s.putPreq e { e with packs := e.packs + 1 }
      else
        let s := s.onCoh (fun c => { c with preqs := c.preqs.erase e })
        (s.decidePreq p.sec).admitHeld d) s

/-! ## Mending (R61 to R65) -/

/-- The home begins mending a sector (R61, R62). -/
def State.startMend (s : State) (sec : Nat) : State :=
  let h := s.homeEntry sec
  let s := s.setHome sec { h with htok := 0, hown := false, ser := h.ser + 1 }
  let m : Mend := ⟨sec, s.time, [], h.hown⟩
  let s := s.onCoh (fun c => { c with mends := c.mends ++ [m] })
  s.toSites (fun d => { s.cohPacket 0x30 (homeSock sec) d sec with ser := h.ser + 1 })

/-- LOST (R61). -/
def execLost (s : State) : Host.Outcome State Fault Refusal :=
  onPacket 0x33 (fun _ p s =>
    if (s.mendOf p.sec).isSome ∨ p.ser ≠ (s.homeEntry p.sec).ser then s else s.startMend p.sec) s

/-- MEND_START_TIMEOUT: a persistent request has been active for 50 µs (R61), a mending meanwhile counted in (log 135). -/
def execMendStartTimeout (sector : Nat) (s : State) : Host.Outcome State Fault Refusal :=
  match s.activeHome sector with
  | none => .next s
  | some e =>
    if (s.mendOf sector).isSome ∨ s.time < e.since + 50 * microsecond then .next s else .next (s.startMend sector)

/-- MRET with what a site's line holds; the line is dropped (R63). -/
def State.sendMret (s : State) (site : Nat) (p : Packet) : State :=
  let sec := p.sec
  let l := s.line site sec
  let s := s.setLine site sec Line.reset
  s.send { s.cohPacket 0x31 site p.src sec with
    dlen := if l.own then 2 else 0, tok := l.tok, own := l.own, dirty := l.own && l.dirty, ser := p.ser
    data := if l.own then halves l.data else [] }

/-- MEND carried out: host copies settled, then every token returned in one MRET; one that MDONE has overtaken has an MRET without any
(R63, R103, R104). -/
def serveMend (site : Nat) (p : Packet) (s : State) : State :=
  if (s.line site p.sec).hs ≠ .i then s.awaitHost site true p
  else if s.mendNote site p.sec = some p.ser then s.sendMret site p
  else s.send { s.cohPacket 0x31 site p.src p.sec with ser := p.ser }

/-- MEND at a site: the serial is noted, requests held for the hold-off are ignored, and the sector goes home (R63). -/
def mendAtSite (site : Nat) (p : Packet) (s : State) : State :=
  let s := s.onCoh (fun c => { c with mendNotes := put (site, p.sec) p.ser c.mendNotes, holdoff := drop (site, p.sec) c.holdoff })
  serveMend site p (s.dropHeld site p.sec)

/-- MEND (R63). -/
def execMend (s : State) : Host.Outcome State Fault Refusal := onPacket 0x30 mendAtSite s

/-! ## Requests that a site has held (R54, R103) -/

/-- A message that a site has held, carried out. -/
def serveHeld (site : Nat) (p : Packet) (s : State) : State :=
  if p.opc = 1 then getsAtSite site p s
  else if p.opc = 2 then getxAtSite site p s
  else if p.opc = 0x21 then pactAtSite site p s
  else serveMend site p s

/-- What a site has held for a sector is carried out at once: a MEND first, for its tokens are void, and the others in arrival order
(R54). -/
def State.releaseHeld (s : State) (site sec : Nat) : State :=
  let mine := (s.coh.heldReqs.filter (fun h => decide (h.1 = site) && decide (h.2.sec = sec))).map Prod.snd
  let s := s.onCoh (fun c => { c with heldReqs := c.heldReqs.filter (fun h => !(decide (h.1 = site) && decide (h.2.sec = sec))) })
  (mine.filter (fun p => p.opc == 0x30) ++ mine.filter (fun p => p.opc != 0x30)).foldl (fun s p => serveHeld site p s) s

/-- HOLDOFF_EXPIRY: the hold-off of a sector, of at most 64 cycles, ends, and the requests that arrived in it are answered (R54). -/
def execHoldoffExpiry (site sector : Nat) (s : State) : Host.Outcome State Fault Refusal :=
  match lookup? (site, sector) s.coh.holdoff with
  | none => .next s
  | some _ => .next ((s.onCoh (fun c => { c with holdoff := drop (site, sector) c.holdoff })).releaseHeld site sector)

/-! ## The end of a mending (R62 to R65) -/

/-- A sector's mending leaves the list of those under way, and its time is kept (R65). -/
def State.closeMend (s : State) (sec : Nat) : State :=
  s.onCoh (fun c => { c with mends := c.mends.filter (fun x => decide (x.sector ≠ sec)), mendTimes := c.mendTimes ++ [(sec, s.time)] })

/-- The events of a mended sector: 3 where it is the third within a millisecond, 2 where its data is lost (R64, R65). -/
def State.reportMend (s : State) (sec : Nat) (current : Bool) : State :=
  let recent := s.coh.mendTimes.countP (fun x => decide (x.1 = sec) && decide (s.time < x.2 + 1000 * microsecond))
  let s := if 3 ≤ recent then s.report 3 (homeSock sec) sec else s
  if current then s else s.report 2 (homeSock sec) (s.saddr sec + 2 ^ 46 * (homeSock sec + 32 * (s.homeEntry sec).ser.toNat))

/-- After mending: an active requester gets the tokens, or the loss; else the home decides (R62, R64). -/
def State.afterMend (s : State) (sec : Nat) (current : Bool) : State :=
  match s.activeHome sec with
  | none => s.decidePreq sec
  | some e => (if current then s.sendHomeTokens e.rsock sec e.named else s.sendLoss sec e.rsock e.named).mayDeactivate sec

/-- The end of mending: 16 tokens recreated under the new serial, MDONE to all, and then the tokens to an active requester, or
the loss (R62, R64, R65). -/
def State.finishMend (s : State) (sec : Nat) : State :=
  match s.mendOf sec with
  | none => s
  | some m =>
    let h := s.homeEntry sec
    let s := (s.closeMend sec).setHome sec { h with htok := 16, hown := true, lostb := h.lostb || !m.current }
    let s := s.toSites (fun d => { s.cohPacket 0x32 (homeSock sec) d sec with ser := h.ser })
    (s.reportMend sec m.current).afterMend sec m.current

/-- MRET at the home; outside mending it is discarded (R62). -/
def execMret (s : State) : Host.Outcome State Fault Refusal :=
  onPacket 0x31 (fun _ p s =>
    match s.mendOf p.sec with
    | none => s
    | some m =>
      if m.got.contains p.src ∨ p.ser ≠ (s.homeEntry p.sec).ser then s
      else
        let s := if p.own && p.dirty then s.setDram p.sec p.sectorData else s
        let m' := { m with got := m.got ++ [p.src], current := m.current || p.own }
        let s := { s with coh := { s.coh with mends := s.coh.mends.map (fun x => if x.sector = p.sec then m' else x) } }
        if m'.got.length = 10 then s.finishMend p.sec else s) s

/-- MEND_WINDOW_TIMEOUT: 50 µs after MEND the home goes on without the missing MRETs (R62). -/
def execMendWindowTimeout (sector : Nat) (s : State) : Host.Outcome State Fault Refusal :=
  match s.mendOf sector with
  | none => .next s
  | some m => if s.time < m.since + 50 * microsecond then .next s else .next (s.finishMend sector)

/-- MDONE at a site: the note goes, and with it the void tokens of a far cache that still waits for its host; tokens that have come under the
new serial serve the accesses that stalled, and a miss that is still open is a first issue again, with its TXN (R63, R104). -/
def execMdone (s : State) : Host.Outcome State Fault Refusal :=
  onPacket 0x32 (fun site p s =>
    let sec := p.sec
    if s.mendNote site sec ≠ some p.ser then s
    else
      let s := s.onCoh (fun c => { c with mendNotes := drop (site, sec) c.mendNotes })
      let l := s.line site sec
      let s := if l.hs ≠ .i ∧ l.ser ≠ p.ser then s.setLine site sec { Line.reset with hs := l.hs } else s
      let s := s.settle site sec
      match s.missOf site sec with
      | none => s
      | some m =>
        let m := { m with attempt := 0, first := s.time, last := s.time }
        (s.putMiss site m).firstIssue site m) s

/-- DLOSS: every access that waits for the sector ends (R64), and a persistent request raised for them is done (R60). -/
def execDloss (s : State) : Host.Outcome State Fault Refusal :=
  onPacket 0x14 (fun site p s =>
    let m := s.missOf site p.sec
    let s := s.dropMiss site p.sec
    let s := failAccesses site p.sec 0x42 s.coh.accesses.length s
    match m with
    | some m => s.reportDone site m
    | none => s) s

/-! ## Replica reads (R66, R67) -/

/-- GETR at the home: DATR with all 16 tokens there, RMIS otherwise, DLOSS for a lost sector (R64, R66). -/
def execGetr (s : State) : Host.Outcome State Fault Refusal :=
  onPacket 0x03 (fun _ p s =>
    let sec := p.sec
    let h := s.homeEntry sec
    if h.lostb then s.sendLoss sec p.src p
    else if h.htok = 16 then
      s.send ({ s.cohPacket 0x12 (homeSock sec) p.src sec with dlen := 2, data := halves (s.dram sec) }.answering p)
    else s.send ((s.cohPacket 0x13 (homeSock sec) p.src sec).answering p)) s

/-- A sector kept as a replica line, where the cache holds it in no other way (R66, R67). -/
def State.fillReplica (s : State) (site sec : Nat) (d : BitVec 512) : State :=
  let l := s.line site sec
  if l.tok ≠ 0 ∨ l.rep then s
  else
    let s := s.makeRoom site sec
    s.fillLine site sec (match s.firstAccess site sec with | some a => a.1.cls | none => 2)
      { Line.reset with rep := true, dv := true, data := d, used := s.time }

/-- A replica that has come ends its miss and serves its readers, unless the site stalls its accesses to the sector (R59, R63, R66). -/
def State.settleReplica (s : State) (site sec : Nat) : State :=
  match s.missOf site sec with
  | some m =>
    if m.replica then
      let s := s.dropMiss site sec
      if s.stalled site sec then s else drainAccesses site sec s.coh.accesses.length s
    else s
  | none => s

/-- DATR (R66). -/
def execDatr (s : State) : Host.Outcome State Fault Refusal :=
  onPacket 0x12 (fun site p s => (s.fillReplica site p.sec p.sectorData).settleReplica site p.sec) s

/-- A replica miss that its home refused becomes a GETS, broadcast with TRY = 1 (R66); one that only a BRDQ's range covered ends (R67). -/
def State.fallBack (s : State) (site : Nat) (m : Miss) : State :=
  if m.covered then s.dropMiss site m.sector
  else
    let m := { m with replica := false, attempt := 1, last := s.time }
    (s.putMiss site m).broadcast site m

/-- RMIS: the replica misses of its transaction, which are several where it answers a BRDQ (R66, R67). -/
def execRmis (s : State) : Host.Outcome State Fault Refusal :=
  onPacket 0x13 (fun site p s =>
    (s.coh.misses.filter (fun e => decide (e.1 = site) && e.2.replica && e.2.txn == p.txn)).foldl (fun s e => s.fallBack site e.2) s) s

/-- BRDQ at the home: BRDR when every sector of the range is eligible, else RMIS; DLOSS for a lost one (R64, R66). -/
def execBrdq (s : State) : Host.Outcome State Fault Refusal :=
  onPacket 0x50 (fun d p s =>
    let secs := (List.range ((p.rqlen + 1) / 2)).map (fun i => p.sec + i)
    match secs.find? (fun x => (s.homeEntry x).lostb) with
    | some x => s.send ({ s.cohPacket 0x14 d p.src x with cause := 1 }.answering p)
    | none =>
      if secs.all (fun x => decide ((s.homeEntry x).htok = 16)) then
        s.send ({ s.cohPacket 0x51 d p.src p.sec with
          dlen := p.rqlen, data := (secs.flatMap (fun x => halves (s.dram x))).take p.rqlen }.answering p)
      else s.send ((s.cohPacket 0x13 d p.src p.sec).answering p)) s

/-- BRDR: whole sectors become replica lines, and engine reads that wait for them go on (R67). -/
def execBrdr (s : State) : Host.Outcome State Fault Refusal :=
  onPacket 0x51 (fun site p s =>
    ((joinHalves p.data).zipIdx).foldl (fun s e => (s.fillReplica site (p.sec + e.2) e.1).settleReplica site (p.sec + e.2)) s) s

/-- Sectors of a replicable page brought to a die for an engine: a BRDQ for two or more sectors of one 256-byte unit that the die cache
holds none of, with a miss entry for each sector it covers and none yet, where the miss table has room; a GETR for one (R48, R67). -/
def State.fetchReplicas (s : State) (die : Nat) (secs : List Nat) : State :=
  let missing := secs.filter (fun x => !((s.line die x).allows false))
  let open' := missing.filter (fun x => (s.missOf die x).isNone)
  match open' with
  | [] => s
  | x :: _ =>
    let unit := x / 4
    let same := secs.filter (fun y => decide (y / 4 = unit))
    if 2 ≤ same.length ∧ same.all (fun y => missing.contains y) then
      let lastIdx := same.foldl (fun m y => Nat.max m (y % 4)) 0
      let covered := ((List.range (lastIdx + 1)).map (fun i => 4 * unit + i)).filter (fun y =>
        (s.missOf die y).isNone && !(s.line die y).allows false)
      if 512 < s.missCount die + covered.length then s
      else
        let txn := s.coh.nextTxn
        let s := s.onCoh (fun c => { c with nextTxn := txn + 1 })
        let s := covered.foldl (fun s y =>
          s.putMiss die { sector := y, write := false, txn := txn, attempt := 0, first := s.time, last := s.time, raised := false
                          rmod := s.fab.nmod, replica := true, covered := !same.contains y, sent := 0 }) s
        s.send { s.cohPacket 0x50 die (homeSock x) (4 * unit) with txn := txn, rqlen := 2 * (lastIdx + 1) }
    else if 512 ≤ s.missCount die then s
    else s.issueMiss die x false true

end Sys2Proof.Machine
end

