-- ==== Sys2Proof/Machine/Trans.lean ====
section
/-! DEFINITION. Address spaces, page walks, the translation caches, and faults of translation: delivered or parked in a fault
slot until they are serviced (R185, R189 to R197). -/

namespace Sys2Proof.Machine

/-- A register write refused (R5, R189). -/
def State.writeError (s : State) : State := s.onMgmt (fun m => { m with writeErrors := m.writeErrors + 1 })

/-! ## Page-table entries (R190, R191) -/

/-- V of an entry. -/
def pteValid (e : Nat) : Bool := e.testBit 0
/-- LEAF of an entry. -/
def pteLeaf (e : Nat) : Bool := e.testBit 1
/-- W of an entry. -/
def pteW (e : Nat) : Bool := e.testBit 2
/-- X of an entry. -/
def pteX (e : Nat) : Bool := e.testBit 3
/-- REPL of an entry. -/
def pteRepl (e : Nat) : Bool := e.testBit 4
/-- RCL of an entry (R188). -/
def pteRcl (e : Nat) : BitVec 2 := BitVec.ofNat 2 (bitsAt e 5 2)
/-- SIZE of an entry. -/
def pteSize (e : Nat) : Nat := bitsAt e 7 4
/-- The size of the page of a leaf in bytes. -/
def pageBytes (e : Nat) : Nat := 4 ^ pteSize e * 4096
/-- OUT of a leaf as a 52-bit address. -/
def pteOut (e : Nat) : Nat := bitsAt e 12 40 * 4096

/-- Whether a page size suits its level (R190). -/
def sizeSuits (level size : Nat) : Bool :=
  if level = 1 then decide (size = 11) else if level = 2 then decide (6 ≤ size) && decide (size ≤ 10)
  else if level = 3 then decide (size ≤ 5) else false

/-- Whether an entry with V = 1 is malformed at its level (R191). -/
def State.malformed (s : State) (level e : Nat) : Bool :=
  let pa := pteOut e % 2 ^ 44
  e.testBit 11 || decide (bitsAt e 52 4 ≠ 0) || (decide (level = 0) && pteLeaf e) || (decide (level = 3) && !pteLeaf e) ||
  emptyRow pa ||
  (if pteLeaf e then
    !sizeSuits level (pteSize e) || (pteRepl e && pteW e) || decide (pteOut e % pageBytes e ≠ 0)
   else
    decide (bitsAt e 2 9 ≠ 0) || decide (bitsAt e 12 2 ≠ 0) || decide (pteOut e / 2 ^ 44 ≠ s.nmod) ||
    (decide (farBase ≤ pa) && (s.farWindow pa).isNone))

/-! ## Walks (R190, R192) -/

/-- The outcome of a walk: a page, with the table entries it met; a fault of class 03 and whether it may be parked; a machine
event; or a sector that must come to rest first. -/
inductive Walked where
  | page (e : TlbEntry) (seen : List (BitVec 8 × Nat × Nat))
  | fault (sub : Nat) (parks : Bool)
  | event (sub : Nat) (pa : Nat)
  | wait (sec : Nat)
  deriving DecidableEq, Repr

/-- The key of a table entry in the walk cache. -/
def walkKey (level va : Nat) : Nat := level + 4 * (va / 2 ^ (45 - 11 * level))

/-- What the walk cache of a die holds for an entry. -/
def State.walkCached (s : State) (d : Nat) (asid : BitVec 8) (key : Nat) : Option Nat :=
  ((s.die d).walkCache.find? (fun c => c.1 == asid && decide (c.2.1 = key))).map (fun c => c.2.2)

/-- A page-table entry read coherently through the cache of a site; one that cannot be reached ends the walk by its event (R64, R105, R106,
R114, R192). -/
def State.readPte (s : State) (site pa : Nat) : Except Walked Nat :=
  if decide (pa < farBase) && s.localOut then .error (.event 0x47 pa)
  else if decide (pa < farBase) && (s.homeEntry (sectorOf pa)).lostb then .error (.event 0x42 pa)
  else if decide (farBase ≤ pa) && (s.farWindow pa).isNone then .error (.event 0x45 pa)
  else if s.farFailed site (sectorOf pa) then .error (.event 0x46 pa)
  else
    match s.peekBytes site pa 8 with
    | some bs => .ok (natOfBytes bs)
    | none => .error (.wait (sectorOf pa))

/-- The levels of a walk from a table on, read at a site; n levels are left. -/
def walkFrom (s : State) (site d : Nat) (asid : BitVec 8) (va : Nat) : Nat → Nat → List (BitVec 8 × Nat × Nat) → Walked
  | 0, _, _ => .fault 4 false
  | n + 1, table, seen =>
    let level := 3 - n
    let entry : Except Walked Nat := match s.walkCached d asid (walkKey level va) with
      | some e => .ok e
      | none => s.readPte site (table + 8 * (va / 2 ^ (45 - 11 * level) % 2048))
    match entry with
    | .error w => w
    | .ok e =>
      if !pteValid e then .fault 1 true
      else if s.malformed level e then .fault 4 false
      else if pteLeaf e then .page ⟨asid, va / pageBytes e * pageBytes e, pageBytes e, BitVec.ofNat 64 e⟩ seen
      else walkFrom s site d asid va n (pteOut e % 2 ^ 44) (seen ++ [(asid, walkKey level va, e)])

/-- An address-space root of a die (R189). -/
def State.asRoot (s : State) (d : Nat) (asid : BitVec 8) : AsRoot := lookupD asid.toNat AsRoot.reset (s.die d).roots

/-- A whole walk under the roots of a die, its tables read at a site (R189, R190). -/
def State.walkBy (s : State) (site d : Nat) (asid : BitVec 8) (va : Nat) : Walked :=
  let r := s.asRoot d asid
  if r.en then walkFrom s site d asid va 4 r.root.toNat [] else .fault 1 false

/-- A walk of a die, through its own cache (R192). -/
def State.walk (s : State) (d : Nat) (asid : BitVec 8) (va : Nat) : Walked := s.walkBy d d asid va

/-! ## The translation caches (R192) -/

/-- Whether a cached page covers an address. -/
def TlbEntry.covers (e : TlbEntry) (asid : BitVec 8) (va : Nat) : Bool :=
  e.asid == asid && decide (e.va ≤ va) && decide (va < e.va + e.size)

/-- The page of an address in the core's first-level TLB, or its cluster's. -/
def State.tlbFind (s : State) (c : CoreId) (asid : BitVec 8) (va : Nat) : Option TlbEntry :=
  match (s.core c).tlb.find? (fun e => e.covers asid va) with
  | some e => some e
  | none => (s.cluster c.die c.cluster).tlb.find? (fun e => e.covers asid va)

/-- The set of a page among the 256 of a cluster TLB: its number in pages of its own size (log 127). -/
def TlbEntry.set (e : TlbEntry) : Nat := e.va / e.size % 256

/-- A page entered in a cluster TLB of 256 sets of 8 ways; the oldest of its set goes. -/
def fillSet (e : TlbEntry) (l : List TlbEntry) : List TlbEntry :=
  let l := e :: l.filter (fun x => x ≠ e)
  let mine := (l.filter (fun x => decide (x.set = e.set))).take 8
  l.filter (fun x => decide (x.set ≠ e.set) || mine.contains x)

/-- A page entered in both levels; of the core's 64 entries, and of the 8 of the cluster's set, the oldest goes. -/
def State.tlbFill (s : State) (c : CoreId) (e : TlbEntry) : State :=
  let s := s.onCore c (fun k => { k with tlb := (e :: k.tlb.filter (fun x => x ≠ e)).take 64 })
  let k := s.cluster c.die c.cluster
  s.setCluster c.die c.cluster { k with tlb := fillSet e k.tlb }

/-- Table entries kept in a die's walk cache of 512. -/
def State.walkFill (s : State) (d : Nat) (seen : List (BitVec 8 × Nat × Nat)) : State :=
  s.onDie d (fun v => { v with walkCache := (seen ++ v.walkCache.filter (fun x => !(seen.contains x))).take 512 })

/-- Whether a page denies a kind of access: 0 read, 1 write, 2 fetch, 3 atomic; the subcode, and whether it may be parked
(R194). -/
def pageDenies (leaf kind : Nat) : Option (Nat × Bool) :=
  if (kind = 1 ∨ kind = 3) ∧ (!pteW leaf || pteRepl leaf) then some (2, true)
  else if kind = 2 ∧ !pteX leaf then some (3, false)
  else none

/-- What a translation gives: a 52-bit address with the leaf; a fault and whether it may be parked; an event; a walk needed. -/
inductive Translated where
  | ok (pa leaf : Nat)
  | fault (sub : Nat) (parks : Bool)
  | event (sub : Nat) (pa : Nat)
  | wait (sec : Nat)
  deriving DecidableEq, Repr

/-- The translation that a page gives. -/
def TlbEntry.translate (e : TlbEntry) (va kind : Nat) : Translated :=
  match pageDenies e.leaf.toNat kind with
  | some f => .fault f.1 f.2
  | none => .ok (pteOut e.leaf.toNat + (va - e.va)) e.leaf.toNat

/-- A translation by a walk made at once under the roots of a die, its tables read at a site. -/
def State.translateBy (s : State) (site d : Nat) (asid : BitVec 8) (va kind : Nat) : Translated :=
  match s.walkBy site d asid va with
  | .page e _ => e.translate va kind
  | .fault sub p => .fault sub p
  | .event sub pa => .event sub pa
  | .wait sec => .wait sec

/-- A translation of a unit of a die that holds no TLB of its own. -/
def State.translate (s : State) (d : Nat) (asid : BitVec 8) (va kind : Nat) : Translated := s.translateBy d d asid va kind

/-! ## Faults of translation (R194 to R196) -/

/-- Whether an address space parks faults. -/
def State.parking (s : State) (d : Nat) (asid : BitVec 8) : Bool := (s.asRoot d asid).pfs

/-- The detail of event 0x07: VA, slot, ASID, kind, subcode (R196). -/
def parkDetail (slot : Nat) (f : FaultSlot) : BitVec 128 :=
  BitVec.ofNat 128 (packBits [(64, f.va.toNat), (8, slot), (8, f.asid.toNat), (8, f.kind), (8, f.sub)])

/-- The slot that a fault shares: same address space, 4 KiB page and subcode. -/
def Die.sharedSlot (v : Die) (f : FaultSlot) : Option Nat :=
  (v.slots.find? (fun p => p.2.asid == f.asid && decide (p.2.page = f.page) && decide (p.2.sub = f.sub))).map Prod.fst

/-- The lowest free fault slot of 256. -/
def Die.freeSlot (v : Die) : Option Nat := (List.range 256).find? (fun n => (lookup? n v.slots).isNone)

/-- A fault placed in a slot of a die, shared or new, with its event; the slot, or none where all are taken. -/
def State.takeSlot (s : State) (d : Nat) (f : FaultSlot) : Option Nat × State :=
  let v := s.die d
  match v.sharedSlot f with
  | some n =>
    (some n, s.setDie d { v with slots := v.slots.map (fun p => if p.1 = n then (n, { p.2 with copies := p.2.copies ++ f.copies }) else p) })
  | none =>
    match v.freeSlot with
    | some n => (some n, (s.setDie d { v with slots := v.slots ++ [(n, f)] }).raiseEvent 7 d (parkDetail n f))
    | none => (none, s)

/-- The fault of an address as a slot names it. -/
def faultSlot (asid : BitVec 8) (va : BitVec 64) (sub kind : Nat) : FaultSlot := ⟨asid, va.toNat / 4096, sub, va, kind, []⟩

/-- A thread that stands parked in a slot; 256 while it waits for one. -/
def Thread.parkAt (th : Thread) (slot : Nat) (va : BitVec 64) : Thread :=
  { th with st := .blocked, wait := some (.parked slot), pc := th.repc, reenter := true, atSafe := false, faultVa := va }

/-- A parkable fault of a thread: a slot, or a place in the queue for one (R196). -/
def State.park (s : State) (x : ThreadId) (asid : BitVec 8) (va : BitVec 64) (sub kind : Nat) : State :=
  let d := x.warp.die
  let f := faultSlot asid va sub kind
  let r := (s.leaveGroup x).takeSlot d f
  match r.1 with
  | some n => r.2.onThread x (fun th => th.parkAt n va)
  | none => (r.2.onDie d (fun v => { v with slotWaits := v.slotWaits ++ [(f, some x)] })).onThread x (fun th => th.parkAt 256 va)

/-- A translation fault of a thread: parked, or taken as class 03 at once (R195, R196). -/
def State.translationFault (s : State) (x : ThreadId) (asid : BitVec 8) (va : BitVec 64) (sub kind : Nat) (parks : Bool) : State :=
  if parks && s.parking x.warp.die asid then s.park x asid va sub kind
  else takeTrap (Trap.sync 3 sub va) x s

/-! ## Walks under way -/

/-- An access needs a walk: merged with one of its die for the same address space and page, or queued (R192). -/
def State.addWalk (s : State) (asid : BitVec 8) (a : WalkAsk) : State :=
  let v := s.die a.core.die
  let same (w : Walk) : Bool := w.asid == asid && decide (w.va.toNat / 4096 = a.va.toNat / 4096)
  if v.walks.any same then
    s.setDie a.core.die { v with walks := v.walks.map (fun w =>
      if same w && !(w.asks.contains a) then { w with asks := w.asks ++ [a] } else w) }
  else s.setDie a.core.die { v with walks := v.walks ++ [⟨asid, a.va, [a]⟩] }

/-! ## FRES (R196) -/

/-- The threads of a die that wait in a fault slot. -/
def State.parkedIn (s : State) (d slot : Nat) : List ThreadId :=
  (s.threads.filter (fun p => decide (p.1.warp.die = d) && p.2.wait == some (.parked slot))).map Prod.fst

/-- An engine operation suspended in a fault slot; 256 while it waits for one. -/
def State.suspendJob (s : State) (slot id : Nat) : State :=
  { s with jobs := s.jobs.map (fun (j : EngineJob) => if j.id = id then { j with suspended := some slot } else j) }

/-- A fault that waited for a slot has one: its thread, or its engine operations. -/
def State.slotFound (s : State) (n : Nat) (w : FaultSlot × Option ThreadId) : State :=
  match w.2 with
  | some x => s.onThread x (fun th => if th.wait = some (.parked 256) then { th with wait := some (.parked n) } else th)
  | none => w.1.copies.foldl (fun s j => s.suspendJob n j.1) s

/-- A freed slot goes to the fault that has waited longest; every waiting fault it covers shares it. -/
def State.refillSlot (s : State) (d : Nat) : State :=
  match (s.die d).slotWaits with
  | [] => s
  | (f, _) :: _ =>
    let covered (w : FaultSlot × Option ThreadId) : Bool := w.1.asid == f.asid && decide (w.1.page = f.page) && decide (w.1.sub = f.sub)
    let mine := (s.die d).slotWaits.filter covered
    let r := s.takeSlot d { f with copies := mine.flatMap (fun w => w.1.copies) }
    match r.1 with
    | none => s
    | some n =>
      mine.foldl (fun s w => s.slotFound n w) (r.2.onDie d (fun v => { v with slotWaits := v.slotWaits.filter (fun w => !covered w) }))

/-- Saved threads of a die that wait in a slot retry once they are restored (R196). -/
def State.releaseSaved (s : State) (d slot : Nat) : State :=
  { s with shadow := s.shadow.map (fun (c : Saved) =>
      if c.die = d then
        { c with threads := c.threads.map (fun p =>
            if p.2.wait = some (.parked slot) then (p.1, { p.2 with st := .ready, wait := none }) else p) }
      else c) }

/-- A slot resolved: freed, its copies and its threads released as `f` says. -/
def State.resolveSlot (s : State) (d slot : Nat) (f : FaultSlot → ThreadId → State → State)
    (g : FaultSlot → Nat × BitVec 64 → State → State) : State :=
  match lookup? slot (s.die d).slots with
  | none => s
  | some fs =>
    let waiting := s.parkedIn d slot
    let s := (s.onDie d (fun v => { v with slots := drop slot v.slots })).releaseSaved d slot
    let s := fs.copies.foldl (fun s j => g fs j s) s
    (waiting.foldl (fun s x => f fs x s) s).refillSlot d

/-- A suspended engine operation goes on; one that stands saved retries once it is restored (R196). -/
def State.resumeJob (s : State) (id : Nat) : State :=
  let free (j : EngineJob) : EngineJob := if j.id = id then { j with suspended := none } else j
  { s with jobs := s.jobs.map free, shadow := s.shadow.map (fun (c : Saved) => { c with jobs := c.jobs.map free }) }

/-- A parked thread goes on at REPC; one that stands halted does so once it is restored (R196). -/
def Thread.unpark (th : Thread) (now : Nat) : Thread :=
  if th.st = .halted then { th with wait := none } else { th with st := .ready, wait := none, readyAt := now }

/-- FRES with ACT 0: the waiting threads become READY at REPC (R196). -/
def execFresRetry (die : Nat) (slot : BitVec 8) (s : State) : Host.Outcome State Fault Refusal :=
  .next (s.resolveSlot die slot.toNat (fun _ x s => s.onThread x (fun th => th.unpark s.time))
    (fun _ j s => s.resumeJob j.1))

/-- The job of an engine by its number. -/
def State.job? (s : State) (id : Nat) : Option EngineJob := s.jobs.find? (fun j => decide (j.id = id))

/-- The lowest lane active at the issue of an engine operation (R414). -/
def EngineJob.lane0 (j : EngineJob) : ThreadId := ⟨j.warp, match j.lanes with | l :: _ => l.1 | [] => 0⟩

/-- An engine operation ends with a fault: recorded in its warp with what each issuing lane had, and the operation is done
(R233, R255); in a grid that is ending it is a second fault (R265). -/
def State.endJob (s : State) (j : EngineJob) (t : Trap) : State :=
  let s := { s with jobs := s.jobs.filter (fun x => decide (x.id ≠ j.id)) }
  let cls := if j.gather then 1 else 0
  let s := match s.endingGrid j.lane0 with
    | some r => s.noteSecond (s.fatalOf t j.lane0) j.lane0 r.1 r.2.1 r.2.2
    | none => s.onWarp j.warp (fun w => { w with faults := w.faults ++ [(⟨j.id, cls, t, j.lanes⟩ : EngFault)] })
  s.opDone j.warp cls j.id

/-- The trap of a fault that was parked, with the faulting address of its own: PARK is set (R194, R249). -/
def parkedTrap (sub : Nat) (va : BitVec 64) : Trap := ⟨3, sub, va, 8, none⟩

/-- FRES with ACT 1: the waiting threads take class 03 at REPC (R196), and a suspended copy ends with its fault (R233). -/
def execFresDeliver (die : Nat) (slot : BitVec 8) (s : State) : Host.Outcome State Fault Refusal :=
  .next (s.resolveSlot die slot.toNat
    (fun f x s =>
      if (s.thread x).st = .halted ∧ !s.gridEnding x then s.onThread x (fun th => th.unpark s.time)
      else takeTrap (parkedTrap f.sub (s.thread x).faultVa) x (s.onThread x (fun th => { th with st := .ready, wait := none })))
    (fun f j s => match s.job? j.1 with
      | some job => s.endJob job (parkedTrap f.sub j.2)
      | none => s.resumeJob j.1))

/-! ## Roots (R189) -/

/-- ASRH_WRITE: the high half waits in the staging copy. -/
def execAsrhWrite (die n : Nat) (v : BitVec 32) (s : State) : Host.Outcome State Fault Refusal :=
  if 256 ≤ n then .next s
  else
    let r := lookupD n AsRoot.reset (s.die die).roots
    .next (s.onDie die (fun d => { d with roots := put n { r with staged := v.extractLsb' 0 12 } d.roots }))

/-- ASRL_WRITE: commits both halves, or is refused for a root in the empty row or in far memory that no window claims. -/
def execAsrlWrite (die n : Nat) (v : BitVec 32) (s : State) : Host.Outcome State Fault Refusal :=
  if 256 ≤ n then .next s
  else
    let r := lookupD n AsRoot.reset (s.die die).roots
    let root : BitVec 44 := r.staged ++ v.extractLsb' 14 18 ++ 0#14
    if emptyRow root.toNat || (decide (farBase ≤ root.toNat) && (s.farWindow root.toNat).isNone) then .next s.writeError
    else .next (s.onDie die (fun d => { d with
      roots := put n { r with en := v.getLsbD 0, pfs := v.getLsbD 1, root := root } d.roots }))

end Sys2Proof.Machine
end

