-- ==== Sys2Proof/Machine/Fabric.lean ====
section
/-! DEFINITION. The Nimcor scale-up fabric: the remote access unit that sends, counts and retires remote accesses (R71 to R84,
R88), the requests of other modules served at the I/O dies (R78 to R80, R85, R86), and the failure and remapping of planes
(R89 to R91). -/

namespace Sys2Proof.Machine

/-! ## The remote access unit -/

/-- The flag state towards a destination (R83). -/
def Rau.flag (r : Rau) (d : BitVec 8) : FlagState := lookupD d.toNat r.flagBase r.flags
/-- The unit with the flag state towards a destination replaced. -/
def Rau.setFlag (r : Rau) (d : BitVec 8) (f : FlagState) : Rau := { r with flags := put d.toNat f r.flags }

/-- A count of OUT changed (R84). -/
def Rau.addOut (r : Rau) (e : Bool) (d : BitVec 8) (p : Nat) : Rau :=
  { r with out := put (e, d.toNat, p) (lookupD (e, d.toNat, p) 0 r.out + 1) r.out }
/-- See `Rau.addOut`. -/
def Rau.subOut (r : Rau) (e : Bool) (d : BitVec 8) (p : Nat) : Rau :=
  { r with out := put (e, d.toNat, p) (lookupD (e, d.toNat, p) 0 r.out - 1) r.out }

/-- Whether a request writes: a write, atomic, compare-and-swap or flag. -/
def isWriteReq (o : BitVec 8) : Bool := decide (2 ≤ o.toNat) && decide (o.toNat ≤ 5)

/-- The sectors a request names. -/
def NPacket.sectors (n : NPacket) : List Nat :=
  if n.nopc = 1 ∨ n.nopc = 2 then (maskSectors n.bmask).map (fun h => n.pa.toNat / 128 * 2 + h)
  else if n.nopc.toNat ≤ 5 then [n.pa.toNat / 64] else []

/-- Whether two requests to one destination share a sector. -/
def NPacket.overlaps (a b : NPacket) : Bool := a.dmod == b.dmod && a.sectors.any (fun x => b.sectors.contains x)

/-- The first free entry of the transaction table of 1,024. -/
def Rau.freeTxn (r : Rau) : Option Nat :=
  if 1024 ≤ r.txns.length then none else (List.range (r.txns.length + 1)).find? (fun i => !(r.txns.any (fun t => decide (t.idx = i))))

/-- The path entropy of a pair (R77). -/
def State.pentOf (s : State) (r : Rau) (d : BitVec 8) (p : Nat) : BitVec 8 :=
  lookupD (d.toNat, p) (BitVec.ofNat 8 (s.nmod * 0x25 + p)) r.pent

/-- A packet put on the path from a die to the port of its plane (R76). -/
def State.toPort (s : State) (sock : Nat) (n : NPacket) : State :=
  if sock = planeIod n.plane then s.sendFlits (nimTx n.plane) n else s.send (nimWrap sock (planeIod n.plane) n)

/-- A request sent: an entry of the table, its tag, its path entropy. -/
def State.transmit (s : State) (sock i : Nat) (n : NPacket) (h : Held) : State :=
  let r := s.rau sock
  let n := { n with
    smod := s.fab.nmod, ssock := sock, ntag := (lookupD i 0 r.gens) ++ BitVec.ofNat 10 i, pent := s.pentOf r n.dmod n.plane }
  let t : Txn := { idx := i, pkt := n, accs := h.accs, warp := h.warp, opId := h.opId, grid := h.grid, sentAt := h.since.getD s.time,
                   resendAt := none, kept := h.kept }
  (s.onRau sock (fun r => { r with txns := r.txns ++ [t] })).toPort sock n

/-- The counts of a flag: SNC for every path (R84). -/
def FlagState.counts (f : FlagState) : List Nat := (List.range 8).map (fun q => lookupD q 0 f.snc)

/-- The flag state after a flag or null flag is sent (R84). -/
def FlagState.closed (f : FlagState) : FlagState := { f with snc := [], fseqn := f.fseqn + 1, ufl := f.ufl + 1 }

/-- The flag state after a write on a path (R84). -/
def FlagState.counted (f : FlagState) (p : Nat) : FlagState :=
  let c := lookupD p 0 f.snc + 1
  { f with snc := put p c f.snc, rnfl := if c = 16383 then some p else f.rnfl }

/-- Whether the reset of a destination's flag state holds a packet back: everything while its RSYN waits to be sent, and then
writes, flags and null flags (R71, R83). -/
def FlagState.holds (f : FlagState) (o : BitVec 8) : Bool :=
  f.shold && (f.rsynAt.isNone || o == 2 || o == 5 || o == 6)

/-- Whether a held access may be sent now (R79, R84, R90): k is its place. -/
def State.maySend (s : State) (sock k : Nat) (h : Held) : Bool :=
  let r := s.rau sock
  let n := h.pkt
  let f := r.flag n.dmod
  let earlier := r.held.take k
  s.fab.up.getLsbD (planeOf r.map n.planeKey) && r.freeTxn.isSome && !f.holds n.nopc &&
  !((n.nopc == 2 || n.nopc == 5) && f.rnfl.isSome) && !(n.nopc == 5 && decide (4 ≤ f.ufl)) &&
  !(r.txns.any (fun t => t.pkt.overlaps n && (isWriteReq t.pkt.nopc || t.warp == h.warp))) &&
  !(earlier.any (fun e => e.pkt.overlaps n && (isWriteReq e.pkt.nopc || e.warp == h.warp))) &&
  !(n.nopc == 5 && earlier.any (fun e => e.warp == h.warp && e.pkt.dmod == n.dmod && isWriteReq e.pkt.nopc))

/-- A request with its plane, and with the epochs, the number and the counts that R76 gives its kind (R84). -/
def Rau.stamp (r : Rau) (n : NPacket) : NPacket :=
  let f := r.flag n.dmod
  let numbered := n.nopc == 2 || n.nopc == 5
  let num : BitVec 16 := if numbered then f.fseqn else 0
  let counts := if n.nopc == 5 then f.counts else List.replicate 8 0
  { n with plane := planeOf r.map n.planeKey, ep := isWriteReq n.nopc && r.epoch, fsyn := if numbered then f.fsyn else 0, fseq := num
           cnt := counts }

/-- The counters of a unit after a request is sent (R84). -/
def Rau.countSent (r : Rau) (n : NPacket) : Rau :=
  let f := r.flag n.dmod
  let r := if n.nopc == 2 then r.setFlag n.dmod (f.counted n.plane) else if n.nopc == 5 then r.setFlag n.dmod f.closed else r
  if isWriteReq n.nopc then r.addOut n.ep n.dmod n.plane else r

/-- A held access sent, with its counts and its epoch (R84). -/
def State.sendHeld (s : State) (sock k i : Nat) (h : Held) : State :=
  let n := (s.rau sock).stamp h.pkt
  (s.onRau sock (fun r => Rau.countSent { r with held := removeNth r.held k } n)).transmit sock i n h

/-- An access of a lane that the unit ends: a value, or class 14 at the next run boundary (R375). -/
def State.endAccess (s : State) (sock grid : Nat) (resident : Bool) (a : Access) (sub : Nat) : State :=
  match a.who with
  | .lane t =>
    if resident && decide ((s.thread t).st ≠ .exited) then
      { s with returns := s.returns ++ [⟨t, a.mark, [], some (eventTrap sub a.pa (!a.reads))⟩] }
    else if a.reads then s else s.writeLost sock a.pa grid
  | .engine id =>
    match s.job? id with
    | some j => s.endJob j (eventTrap sub a.pa (!a.reads))
    | none => if a.reads then s else s.writeLost sock a.pa grid
  | .words w => s.onLiveWarp w (fun v => { v with got := put a.pa [BitVec.ofNat 8 sub] v.got })
  | _ => s

/-- The counters of an instruction fall with its last packet (R78, R81). -/
def State.settleOp (s : State) (sock : Nat) (w : Option WarpId) (op : Nat) : State :=
  let r := s.rau sock
  match w with
  | none => s
  | some v =>
    if r.txns.any (fun t => decide (t.opId = op) && t.warp == w) || r.held.any (fun t => decide (t.opId = op) && t.warp == w) then s
    else s.opDone v 3 op

/-- Whether the warp that issued an instruction is still there. -/
def State.issuerHere (s : State) (w : Option WarpId) (op : Nat) : Bool :=
  match w with
  | none => false
  | some v => (s.warp v).ops.any (fun o => decide (o.id = op) && decide (o.cls = 3))

/-- The accesses of a packet ended with a subcode; a chit message is lost (R98), and its invocation retires. -/
def State.failPacket (s : State) (sock : Nat) (n : NPacket) (accs : List Access) (w : Option WarpId) (op grid sub : Nat) : State :=
  if isChitMsg n.nopc then
    let s := s.chitLost sock n
    match w with | some v => s.opDone v 4 op | none => s
  else
    let here := s.issuerHere w op
    (accs.foldl (fun s a => s.endAccess sock grid here a sub) s).settleOp sock w op

/-- An entry of the table freed; its generation rises (R81). -/
def Rau.freeEntry (r : Rau) (t : Txn) : Rau :=
  { r with txns := r.txns.filter (fun x => decide (x.idx ≠ t.idx)), gens := put t.idx (lookupD t.idx 0 r.gens + 1) r.gens }

/-- An entry ended: freed, OUT and UFL counted down (R81, R84). -/
def State.dropTxn (s : State) (sock : Nat) (t : Txn) : State :=
  s.onRau sock (fun r =>
    let r := r.freeEntry t
    let r := if isWriteReq t.pkt.nopc then r.subOut t.pkt.ep t.pkt.dmod t.pkt.plane else r
    let f := r.flag t.pkt.dmod
    if t.pkt.nopc = 5 ∨ t.pkt.nopc = 6 then r.setFlag t.pkt.dmod { f with ufl := f.ufl - 1 } else r)

/-- An entry ended with a failure of its accesses. -/
def State.failTxn (s : State) (sock : Nat) (t : Txn) (sub : Nat) : State :=
  (s.dropTxn sock t).failPacket sock t.pkt t.accs t.warp t.opId t.grid sub

/-! ## Flag state resets (R90 step 3) -/

/-- RSYN to a destination, on the lowest live plane, if there is one. -/
def State.sendRsyn (s : State) (sock : Nat) (d : BitVec 8) : State :=
  let r := s.rau sock
  match (List.range 8).find? (fun p => s.fab.up.getLsbD p), r.freeTxn with
  | some p, some i =>
    let n := { NPacket.blank with nopc := 7, dmod := d, plane := p, fsyn := (r.flag d).fsyn }
    let s := s.onRau sock (fun r => r.setFlag d { r.flag d with rsynAt := some s.time })
    s.transmit sock i n ⟨n, [], none, 0, 0, none, false⟩
  | _, _ => s

/-- The flag state as its reset leaves it. -/
def FlagState.resync (f : FlagState) : FlagState :=
  { f with snc := [], fseqn := 0, ufl := 0, fsyn := f.fsyn + 1, shold := true, rnfl := none, rsynAt := none }

/-- The flag state of a destination reset: its flags end with 0x43, and RSYN is sent, or waits while no port is up. -/
def State.resetFlags (s : State) (sock : Nat) (d : BitVec 8) : State :=
  let mine := (s.rau sock).txns.filter (fun t => t.pkt.dmod == d && (t.pkt.nopc == 5 || t.pkt.nopc == 6 || t.pkt.nopc == 7))
  let s := mine.foldl (fun s t => s.failTxn sock t 0x43) s
  let s := s.onRau sock (fun r => r.setFlag d (r.flag d).resync)
  s.sendRsyn sock d

/-! ## RAU_SEND (R71, R79, R84) -/

/-- The j-th destination for which a null flag waits and may be sent. -/
def Rau.nullFlag (r : Rau) (j : Nat) : Option (Nat × FlagState) :=
  nth? (r.flags.filter (fun p => p.2.rnfl.isSome && decide (p.2.ufl < 4) && !p.2.shold)) j

/-- A null flag sent on its path. -/
def State.sendNull (s : State) (sock d : Nat) (f : FlagState) : State :=
  let r := s.rau sock
  match r.freeTxn with
  | none => s
  | some i =>
    let n := { NPacket.blank with
      nopc := 6, dmod := BitVec.ofNat 8 d, plane := f.rnfl.getD 0, fsyn := f.fsyn, fseq := f.fseqn, cnt := f.counts }
    if s.fab.up.getLsbD n.plane then
      (s.onRau sock (fun r => r.setFlag n.dmod { f.closed with rnfl := none })).transmit sock i n ⟨n, [], none, 0, 0, none, false⟩
    else s

/-- RAU_SEND: held access k of a unit, or beyond them the waiting null flags. With the fabric disabled the access ends
UNREACH (R71). -/
def execRauSend (sock k : Nat) (s : State) : Host.Outcome State Fault Refusal :=
  let r := s.rau sock
  match nth? r.held k with
  | none =>
    match r.nullFlag (k - r.held.length) with
    | some p => .next (s.sendNull sock p.1 p.2)
    | none => .next s
  | some h =>
    let f := r.flag h.pkt.dmod
    if !s.fab.en then
      .next ((s.onRau sock (fun r => { r with held := removeNth r.held k })).failPacket sock h.pkt h.accs h.warp h.opId h.grid 0x40)
    else if f.shold && f.rsynAt.isNone then .next (s.sendRsyn sock h.pkt.dmod)
    else if s.maySend sock k h then
      match r.freeTxn with
      | some i => .next (s.sendHeld sock k i h)
      | none => .next s
    else .next s

/-! ## Responses (R77, R81, R82, R84) -/

/-- A congestion echo: counted in CMK, and PENT rotated at most once per 2 µs (R77). -/
def State.echo (s : State) (sock : Nat) (n : NPacket) : State :=
  if !n.ce then s
  else
    let c := lookupD n.plane 0 s.fab.cmk
    let s := s.onFab (fun v => { v with cmk := put n.plane (if c = 0xFFFF then c else c + 1) v.cmk })
    let key := (n.smod.toNat, n.plane)
    let r := s.rau sock
    match lookup? key r.rotated with
    | some t => if s.time < t + 2 * microsecond then s
      else s.onRau sock (fun r => { r with pent := put key (s.pentOf r n.smod n.plane + 0x65) r.pent, rotated := put key s.time r.rotated })
    | none => s.onRau sock (fun r => { r with pent := put key (s.pentOf r n.smod n.plane + 0x65) r.pent, rotated := put key s.time r.rotated })

/-- The outstanding entry that a response's NTAG names at its current generation (R81). -/
def Rau.txnOf (r : Rau) (n : NPacket) : Option Txn :=
  r.txns.find? (fun t => t.pkt.ntag == n.ntag)

/-- The subcode of a STAT other than OK (R82). -/
def statSub (st : BitVec 4) : Nat := if st = 1 then 0x41 else if st = 2 then 0x42 else 0x40

/-- The bytes that a response holds for an access: of the block read, or the old value of an atomic. -/
def responseRaw (req n : NPacket) (a : Access) : Nat :=
  if req.nopc = 1 then
    let secs := maskSectors req.bmask
    let at' := (secs.takeWhile (fun h => decide (h ≠ a.pa / 64 % 2))).length
    (nth 0 n.data at').toNat / 256 ^ (a.pa % 64) % 256 ^ a.size
  else if a.size = 16 then (nth 0 n.data 0).toNat % 256 ^ 16 else n.opa.toNat % 256 ^ a.size

/-- The value of a remote access delivered; remote data stays out of the caches (R78). -/
def State.finishRemote (s : State) (a : Access) (raw : Nat) : State :=
  match a.who with
  | .lane t =>
    let s := if a.acq ≥ 3 then s.l1Invalidate t.warp.coreId else s
    if a.dest.isEmpty then s else { s with returns := s.returns ++ [⟨t, a.mark, a.regs raw, none⟩] }
  | .engine id =>
    if a.reads then
      { s with jobs := s.jobs.map (fun (j : EngineJob) => if j.id = id then { j with got := put a.pa (bytesOfNat a.size raw) j.got } else j) }
    else
      { s with jobs := s.jobs.map (fun (j : EngineJob) => if j.id = id then { j with got := j.got ++ [(2 ^ 52, bytesOfNat a.size 0)] } else j) }
  | .words w => s.onLiveWarp w (fun v => { v with got := put a.pa (bytesOfNat a.size raw) v.got })
  | _ => s

/-- A response taken from a unit's inbox and matched, its congestion echo counted; a response that matches nothing is discarded and changes
no counter (R77, R81). -/
def State.response (s : State) (sock k : Nat) (nopc : BitVec 8) (f : Txn → NPacket → State → State) : Host.Outcome State Fault Refusal :=
  match nth? (s.rau sock).inbox k with
  | none => .next s
  | some n =>
    if n.nopc ≠ nopc then .next s
    else
      let s := s.onRau sock (fun r => { r with inbox := removeNth r.inbox k })
      match (s.rau sock).txnOf n with
      | none => .next s
      | some t => .next (f t n (s.echo sock n))

/-- A response that ends a read, write or atomic. -/
def endByResponse (sock : Nat) (t : Txn) (n : NPacket) (s : State) : State :=
  if n.stat ≠ 0 then s.failTxn sock t (statSub n.stat)
  else
    let s := s.dropTxn sock t
    (t.accs.foldl (fun s a => s.finishRemote a (responseRaw t.pkt n a)) s).settleOp sock t.warp t.opId

/-- RRSP (R78, R82). -/
def execRrsp (sock k : Nat) (s : State) : Host.Outcome State Fault Refusal := s.response sock k 0x10 (endByResponse sock)
/-- RACK (R78, R82, R84). -/
def execRack (sock k : Nat) (s : State) : Host.Outcome State Fault Refusal := s.response sock k 0x11 (endByResponse sock)
/-- RARS (R80, R82, R84). -/
def execRars (sock k : Nat) (s : State) : Host.Outcome State Fault Refusal := s.response sock k 0x12 (endByResponse sock)

/-- RFAK: of an RSYN it ends the hold; of a flag or null flag it counts UFL down (R84, R85). -/
def execRfak (sock k : Nat) (s : State) : Host.Outcome State Fault Refusal :=
  s.response sock k 0x13 (fun t n s =>
    if t.pkt.nopc = 7 then
      s.onRau sock (fun r =>
        let r := r.freeEntry t
        let f := r.flag t.pkt.dmod
        if t.pkt.fsyn = f.fsyn then r.setFlag t.pkt.dmod { f with shold := false } else r)
    else endByResponse sock t n s)

/-- RNAK: the flag is sent again 2 µs later (R86). -/
def execRnak (sock k : Nat) (s : State) : Host.Outcome State Fault Refusal :=
  s.response sock k 0x14 (fun t _ s =>
    s.onRau sock (fun r => { r with txns := r.txns.map (fun x => if x.idx = t.idx then { x with resendAt := some (s.time + 2 * microsecond) } else x) }))

/-- FLAG_RESEND: transaction k, a flag not accepted, with the same number and counts (R86). -/
def execFlagResend (sock k : Nat) (s : State) : Host.Outcome State Fault Refusal :=
  match nth? (s.rau sock).txns k with
  | none => .next s
  | some t =>
    match t.resendAt with
    | none => .next s
    | some at' =>
      if s.time < at' then .next s
      else
        let s := s.onRau sock (fun r => { r with txns := r.txns.map (fun x => if x.idx = t.idx then { x with resendAt := none } else x) })
        .next (s.toPort sock t.pkt)

/-- REMOTE_TIMEOUT: no response for 1 ms; k counts the transactions and then the held accesses (R81, R90). A chit message that is not
acknowledged is held to the same limit (log 140). -/
def execRemoteTimeout (sock k : Nat) (s : State) : Host.Outcome State Fault Refusal :=
  let r := s.rau sock
  match nth? r.txns k with
  | some t =>
    if s.time < t.sentAt + 1000 * microsecond ∨ t.pkt.nopc = 7 then .next s
    else
      let s := s.failTxn sock t 0x44
      .next (if t.pkt.nopc = 5 ∨ t.pkt.nopc = 6 then s.resetFlags sock t.pkt.dmod else s)
  | none =>
    match nth? r.held (k - r.txns.length) with
    | none => .next s
    | some h =>
      match h.since with
      | none => .next s
      | some at' =>
        if s.time < at' + 1000 * microsecond then .next s
        else .next ((s.onRau sock (fun r => { r with held := removeNth r.held (k - r.txns.length) })).failPacket
          sock h.pkt h.accs h.warp h.opId h.grid 0x44)

/-! ## Requests of other modules, served at an I/O die (R78 to R80, R85) -/

/-- A request taken from the port; while the remote-service table of 1,024 is full, requests wait (R79). -/
def State.request' (s : State) (iod k : Nat) (nopc : BitVec 8) (f : NPacket → State → State) : Host.Outcome State Fault Refusal :=
  match nth? (s.port iod).arrivals k with
  | none => .next s
  | some n =>
    if n.nopc ≠ nopc ∨ (s.port iod).service.length ≥ 1024 then .next s
    else .next (f n (s.onPort iod (fun p => { p with arrivals := removeNth p.arrivals k })))

/-- Whether a remote address is out of range (R82, R105). -/
def remoteRange (n : NPacket) : Bool := decide (localEnd ≤ n.pa.toNat % 2 ^ 44)

/-- An access of the far cache for a remote request. -/
def remoteAccess (iod id : Nat) (kind : AccKind) (pa size : Nat) (wdata wmask comp : Nat) : Access :=
  { id := id, who := .remote iod id, site := iod, kind := kind, va := 0, pa := pa, size := size, wdata := BitVec.ofNat 512 wdata
    wmask := BitVec.ofNat 64 wmask, comp := BitVec.ofNat 128 comp, dest := [], signed := false, cls := 2, rep := false, mark := 0
    acq := 0 }

/-- A request entered in the remote-service table with its accesses; without any it is answered at once. -/
def State.serve (s : State) (iod : Nat) (n : NPacket) (accs : Nat → List Access) : State :=
  let id := s.fresh
  let s := { s with fresh := id + 1 }
  let s := s.onPort iod (fun p => { p with service := put id n p.service })
  (s.queueAccesses (accs id)).remoteDone iod id

/-- The block of a request within local memory. -/
def NPacket.block (n : NPacket) : Nat := n.pa.toNat % 2 ^ 44 / 128 * 128

/-- RRD: a read at the far cache of the I/O die (R78). -/
def execRrd (iod k : Nat) (s : State) : Host.Outcome State Fault Refusal :=
  s.request' iod k 1 (fun n s =>
    if remoteRange n then s.answer n 1 0 [0]
    else s.serve iod { n with data := [0, 0] } (fun id =>
      (maskSectors n.bmask).map (fun h => remoteAccess iod id .read (n.block + 64 * h) 64 0 0 0)))

/-- The writes of a remote write, one per sector: a packet of two flits carries the whole block, of one the one sector that
its mask touches (log 14). -/
def writesOfMask (iod id : Nat) (n : NPacket) : List Access :=
  (maskSectors n.bmask).map (fun h =>
    remoteAccess iod id .write (n.block + 64 * h) 64 (nth 0 n.data (if n.data.length = 2 then h else 0)).toNat
      (n.bmask.toNat / 2 ^ (64 * h) % 2 ^ 64) 0)

/-- RWR: a write at the far cache (R78, R85). -/
def execRwr (iod k : Nat) (s : State) : Host.Outcome State Fault Refusal :=
  s.request' iod k 2 (fun n s => if remoteRange n then s.answer n 1 0 [] else s.serve iod n (fun id => writesOfMask iod id n))

/-- The width of an AOP in bytes (R382). -/
def aopBytes (a : BitVec 8) : Nat := 4 * 2 ^ (a.extractLsb' 4 2).toNat
/-- Whether an AOP is reserved, or an atomic's packet carries the wrong operands for its width (R76, R382). -/
def aopBad (cas : Bool) (n : NPacket) : Bool :=
  let op := (n.aop.extractLsb' 0 4).toNat
  n.aop.extractLsb' 4 2 == 3 || n.aop.extractLsb' 6 2 == 3 ||
  (if cas then decide (op ≠ 8) else decide (6 < op) || (decide (aopBytes n.aop = 16) && decide (op ≠ 6))) ||
  decide (n.ndlen ≠ if aopBytes n.aop = 16 then 1 else 0)

/-- The update of a remote atomic (R80, R382). -/
def atomOfRemote (iod id : Nat) (n : NPacket) : Access :=
  let size := aopBytes n.aop
  let d := (nth 0 n.data 0).toNat
  let cas := n.nopc == 4
  remoteAccess iod id (.atom (n.aop.extractLsb' 0 4).toNat (n.aop.extractLsb' 6 2).toNat) (n.pa.toNat % 2 ^ 44) size
    (if size = 16 then d % 2 ^ 128 else n.opa.toNat % 256 ^ size) (2 ^ size - 1)
    (if !cas then 0 else if size = 16 then d / 2 ^ 128 % 2 ^ 128 else n.opb.toNat % 256 ^ size)

/-- RATM (R80); a reserved AOP is discarded (R382). -/
def execRatm (iod k : Nat) (s : State) : Host.Outcome State Fault Refusal :=
  s.request' iod k 3 (fun n s =>
    if aopBad false n then s else if remoteRange n then s.answer n 1 0 [] else s.serve iod n (fun id => [atomOfRemote iod id n]))

/-- RCAS (R80); a reserved AOP is discarded (R382). -/
def execRcas (iod k : Nat) (s : State) : Host.Outcome State Fault Refusal :=
  s.request' iod k 4 (fun n s =>
    if aopBad true n then s else if remoteRange n then s.answer n 1 0 [] else s.serve iod n (fun id => [atomOfRemote iod id n]))

/-- RNAK: a flag that finds no entry (R86). -/
def State.refuseFlag (s : State) (n : NPacket) : State :=
  s.sendFlits (nimTx n.plane) { nimAnswer s.fab.nmod n 0 0 [] with nopc := 0x14, ep := false }

/-- A flag or null flag at an I/O die: discarded for another epoch, refused without an entry, else it waits (R85, R86); only the
total of the entries is judged (log 139). -/
def acceptFlag (iod : Nat) (n : NPacket) (s : State) : State :=
  let v := s.source iod n.source
  let held := (s.port iod).flags.countP (fun f => f.pkt.nopc != 7)
  if n.fsyn ≠ v.sync then s
  else if 256 ≤ held ∨ (224 ≤ held ∧ n.fseq ≠ v.nextf) then s.refuseFlag n
  else (s.onPort iod (fun p => { p with flags := p.flags ++ [⟨n, false, false⟩] })).advanceOrder iod

/-- The flag that a confirmation names is performed: the counters of its interval cleared, its write made, RFAK sent (R85). -/
def performFlag (iod : Nat) (n : NPacket) (s : State) : State :=
  let v := s.source iod n.source
  let s := s.setSource iod n.source (v.clear iod n.fseq)
  if n.nopc = 5 ∧ !remoteRange n then s.serve iod n (fun id => writesOfMask iod id n)
  else (s.answer n (if n.nopc = 5 then 1 else 0) 0 []).flagDone iod n

/-- A confirmed flag performed, or kept while the remote-service table is full (R79, R85). -/
def State.confirmFlag (s : State) (iod : Nat) (f : WaitingFlag) : State :=
  if (s.port iod).service.length < 1024 then
    performFlag iod f.pkt (s.onPort iod (fun v => { v with flags := v.flags.erase f }))
  else s.onPort iod (fun v => { v with flags := v.flags.map (fun x => if x = f then { f with confirmed := true } else x) })

/-- RFLG: flag k of those that have arrived, or beyond them the confirmed flags that wait for the service table (R79, R85, R86). -/
def execRflg (iod k : Nat) (s : State) : Host.Outcome State Fault Refusal :=
  if k < (s.port iod).arrivals.length then s.request' iod k 5 (acceptFlag iod)
  else
    match nth? ((s.port iod).flags.filter (fun f => f.confirmed)) (k - (s.port iod).arrivals.length) with
    | some f => .next (s.confirmFlag iod f)
    | none => .next s
/-- RNFL (R85, R86). -/
def execRnfl (iod k : Nat) (s : State) : Host.Outcome State Fault Refusal := s.request' iod k 6 (acceptFlag iod)

/-- What a reset leaves of a source: a new epoch, nothing counted (R90). -/
def State.resyncSource (s : State) (iod : Nat) (n : NPacket) : State :=
  let s := s.onPort iod (fun p => { p with
    flags := p.flags.filter (fun f => decide (f.pkt.source ≠ n.source) || f.pkt.nopc == 7), checks := p.checks.filter (fun c => decide (c.source ≠ n.source)) })
  s.setSource iod n.source ⟨[], 0, n.fsyn⟩

/-- RSYN: applied once, passed to the peer, and answered when the peer confirms; one whose reset has been applied is answered at once
(R90). -/
def execRsyn (iod k : Nat) (s : State) : Host.Outcome State Fault Refusal :=
  s.request' iod k 7 (fun n s =>
    if n.fsyn = (s.source iod n.source).sync then
      s.answer n 0 0 []
    else
      let s := s.resyncSource iod n
      (s.onPort iod (fun p => { p with flags := p.flags ++ [⟨n, true, false⟩] })).sendCheck iod true n)

/-- OCHK: an order check waits in sequence; a reset is applied and confirmed at once (R85, R90). -/
def execOchk (s : State) : Host.Outcome State Fault Refusal :=
  onPacket 0x64 (fun d p s =>
    let n := checkOf d (nth 0 p.data 0)
    if n.nopc = 7 then
      let s := if n.fsyn = (s.source d n.source).sync then s else s.resyncSource d n
      s.sendConfirm d n
    else (s.onPort d (fun v => { v with checks := v.checks ++ [n] })).advanceOrder d) s

/-- OCNF: the waiting flag is performed, or the RSYN answered (R85, R90). -/
def execOcnf (s : State) : Host.Outcome State Fault Refusal :=
  onPacket 0x65 (fun d p s =>
    let reset := p.sector.testBit 19
    let named (f : WaitingFlag) : Bool :=
      decide (f.pkt.source = (p.rmod, p.rsock)) && f.checked && decide (f.pkt.fsyn.toNat = bitsAt p.sector 16 3) &&
      (if reset then f.pkt.nopc == 7 else f.pkt.nopc != 7 && decide (f.pkt.fseq.toNat = bitsAt p.sector 0 16))
    match (s.port d).flags.find? named with
    | none => s
    | some f =>
      if reset then (s.onPort d (fun v => { v with flags := v.flags.erase f })).answer f.pkt 0 0 [] else s.confirmFlag d f) s

/-! ## Planes (R71, R72, R89 to R91) -/

/-- The dies that have a remote access unit: compute dies and I/O dies (R78). -/
def rauSocks : List Nat := holderSites

/-- A read that its plane lost is kept for resending; any other access ends with 0x43 (R90 step 2). -/
def State.loseTxn (s : State) (sock : Nat) (keep : Bool) (t : Txn) : State :=
  if t.pkt.nopc = 7 then s.onRau sock (fun r => r.freeEntry t)
  else if keep && t.pkt.nopc == 1 then
    s.onRau sock (fun r =>
      let r := r.freeEntry t
      { r with held := ⟨t.pkt, t.accs, t.warp, t.opId, t.grid, some t.sentAt, true⟩ :: r.held })
  else s.failTxn sock t 0x43

/-- Steps 1 to 3 of R90 at one unit; the 1 ms of what waits there for the failed plane runs. -/
def State.planeFailsAt (s : State) (sock p : Nat) : State :=
  let lost := (s.rau sock).txns.filter (fun t => decide (t.pkt.plane = p))
  let dests := ((lost.filter (fun t => t.pkt.nopc == 2 || t.pkt.nopc == 5 || t.pkt.nopc == 6)).map (fun t => t.pkt.dmod)).eraseDups
  let s := s.onRau sock (fun r => { r with held := r.held.map (fun h =>
    if planeOf r.map h.pkt.planeKey = p ∧ h.since.isNone then { h with since := some s.time } else h) })
  let s := lost.foldl (fun s t => s.loseTxn sock true t) s
  dests.foldl (fun s d => s.resetFlags sock d) s

/-- LOST for a sector (R61, R90). -/
def State.sendLost (s : State) (src sec : Nat) (ser : BitVec 8) : State :=
  s.send { s.cohPacket 0x33 src (homeSock sec) sec with ser := ser, cause := 2 }

/-- The requests of a far cache that arrived on a failed plane are abandoned, and their sectors' homes told (R90 step 4). -/
def State.abandonService (s : State) (iod p : Nat) : State :=
  let gone := (s.port iod).service.filter (fun e => decide (e.2.plane = p))
  let ids := gone.map Prod.fst
  let mine (a : Access) : Bool := match a.who with | .remote i id => decide (i = iod) && ids.contains id | _ => false
  let secs := (gone.flatMap (fun e => e.2.sectors.map (fun x => x % 2 ^ 38))).eraseDups
  let s := s.onPort iod (fun v => { v with service := v.service.filter (fun e => decide (e.2.plane ≠ p)) })
  let s := s.onCoh (fun c => { c with accesses := c.accesses.filter (fun a => !mine a) })
  secs.foldl (fun s sec => s.sendLost iod sec (s.homeEntry sec).ser) s

/-- The two directions of a plane's port as a training leaves them, or a failure. -/
def State.setPlane (s : State) (p : Nat) (up : Bool) : State :=
  let s := s.setLinkDir (nimTx p) { Link.reset with down := !up }
  let s := s.setLinkDir (nimRx p) { Link.reset with down := !up }
  let other (l : Nat) : Bool := decide (l ≠ nimTx p) && decide (l ≠ nimRx p)
  let s := { s with net := { s.net with wire := s.net.wire.filter (fun w => other w.link), msgs := s.net.msgs.filter (fun m => other m.link) } }
  let b : BitVec 8 := 1#8 <<< p
  s.onFab (fun f => { f with
    live := if up then f.live ||| b else f.live &&& ~~~b, up := if up then f.up ||| b else f.up &&& ~~~b
    dup := if up then f.dup &&& ~~~b else f.dup })

/-- PLANE_FAIL (R89, R90 steps 1 to 4). -/
def execPlaneFail (plane : Nat) (s : State) : Host.Outcome State Fault Refusal :=
  if 8 ≤ plane ∨ !s.fab.up.getLsbD plane then .next s
  else
    let s := (s.setPlane plane false).report 4 20 plane
    let s := rauSocks.foldl (fun s k => s.planeFailsAt k plane) s
    .next (s.abandonService (planeIod plane) plane)

/-- RSYN_RESEND: a reset not yet confirmed is sent, or sent again after 1 ms (R71, R90). -/
def execRsynResend (sock dmod : Nat) (s : State) : Host.Outcome State Fault Refusal :=
  let d := BitVec.ofNat 8 dmod
  let r := s.rau sock
  let f := r.flag d
  let due := match f.rsynAt with | none => true | some t => decide (t + 1000 * microsecond ≤ s.time)
  if !f.shold || !due || !s.fab.en then .next s
  else
    let old := r.txns.filter (fun t => t.pkt.nopc == 7 && t.pkt.dmod == d)
    .next ((old.foldl (fun s t => s.onRau sock (fun r => r.freeEntry t)) s).sendRsyn sock d)

/-- NPMAP written: refused where it names a plane that is not live (R72). -/
def execNpmapWrite (v : BitVec 32) (s : State) : Host.Outcome State Fault Refusal :=
  if (List.range 8).all (fun h => s.fab.live.getLsbD (bitsAt v.toNat (3 * h) 3)) then
    .next (s.onFab (fun f => { f with map := v.extractLsb' 0 24 }))
  else .next s.writeError

/-- NPMAP_ADOPT: a unit takes the new map once nothing is outstanding on the planes that change (R90 step 6, R91). -/
def execNpmapAdopt (sock : Nat) (s : State) : Host.Outcome State Fault Refusal :=
  let r := s.rau sock
  let moved := (List.range 8).filterMap (fun h =>
    let a := bitsAt r.map.toNat (3 * h) 3
    if a = bitsAt s.fab.map.toNat (3 * h) 3 then none else some a)
  if r.txns.any (fun t => moved.contains t.pkt.plane) then .next s
  else .next (s.onRau sock (fun r => { r with map := s.fab.map }))

/-- NMOD written; ignored once locked (R71). -/
def execNmodWrite (v : BitVec 32) (s : State) : Host.Outcome State Fault Refusal :=
  if s.fab.lock then .next s
  else .next (s.onFab (fun f => { f with nmod := v.extractLsb' 0 8, lock := v.getLsbD 8 }))

/-- NCTL_EN_SET: refused while NMOD is not locked (R71). -/
def execNctlEnSet (s : State) : Host.Outcome State Fault Refusal :=
  if s.fab.lock then .next (s.onFab (fun f => { f with en := true })) else .next s.writeError

/-- What clearing EN does at one unit: every access that has been sent ends with 0x43, every destination's flag state is reset, and the
RSYNs are held (R71). -/
def State.disableAt (s : State) (sock : Nat) : State :=
  let kept := (s.rau sock).held.filter (fun h => h.kept)
  let s := (s.rau sock).txns.foldl (fun s t => s.loseTxn sock false t) s
  let s := s.onRau sock (fun r => { r with held := r.held.filter (fun h => !h.kept) })
  let s := kept.foldl (fun s h => s.failPacket sock h.pkt h.accs h.warp h.opId h.grid 0x43) s
  s.onRau sock (fun r => { r with
    flags := r.flags.map (fun p => (p.1, p.2.resync)), flagBase := r.flagBase.resync })

/-- NCTL_EN_CLEAR (R71). -/
def execNctlEnClear (s : State) : Host.Outcome State Fault Refusal :=
  if !s.fab.en then .next s
  else
    let s := s.onFab (fun f => { f with en := false })
    let s := (List.range 8).foldl (fun s p => s.setPlane p false) s
    .next (rauSocks.foldl (fun s k => s.disableAt k) s)

/-- NIMCOR_PORT_TRAINED: the port comes up with its spine count, or is refused for a duplicate number (R71, R72). -/
def execNimcorPortTrained (plane : Nat) (dup : Bool) (spines : BitVec 8) (s : State) : Host.Outcome State Fault Refusal :=
  if 8 ≤ plane ∨ !s.fab.en ∨ s.fab.up.getLsbD plane then .next s
  else if dup then .next (s.onFab (fun f => { f with dup := f.dup ||| (1#8 <<< plane) }))
  else .next ((s.setPlane plane true).onFab (fun f => { f with spn := put plane spines f.spn }))

/-! ## Nimcor packets inside the module (R76, R110) -/

/-- A chit message out of a Nimcor packet; CTSK goes to the global dispatcher on I/O die 20, an answer to its requester. -/
def chitMsgOf (n : NPacket) : ChitMsg :=
  { nopc := n.nopc, dsock := if n.nopc = 0x21 then 20 else if n.nopc = 0x25 then n.ssock else chitSock n.opa, dmod := n.dmod
    ssock := n.ssock, smod := n.smod, chit := n.opa, other := n.opb, payload := nth 0 n.data 0, broken := n.stat != 0
    warp := none, opId := n.ntag.toNat, plane := n.plane, cm := n.cm, ce := n.ce }

/-- A Nimcor packet of this module handed to the die it is for. -/
def State.deliverNim (s : State) (n : NPacket) : State :=
  if isChitMsg n.nopc then s.onChits (fun c => { c with msgs := c.msgs ++ [chitMsgOf n] })
  else s.onRau n.ssock (fun r => { r with inbox := r.inbox ++ [n] })

/-- A Nimcor packet that has arrived whole at a port of this module: requests wait to be served, the rest goes on to its die
(R76). -/
def State.nimArrived (s : State) (iod : Nat) (n : NPacket) : State :=
  let dst := if isChitMsg n.nopc then (chitMsgOf n).dsock else n.ssock
  if isResponse n.nopc || isChitMsg n.nopc then
    (if dst = iod then s.deliverNim n else if dst ≤ 21 then s.send (nimWrap iod dst n) else s.deliverNim n)
  else s.onPort iod (fun p => { p with arrivals := p.arrivals ++ [n] })

/-- An interposer message that carries a Nimcor packet: on to the plane, or to the die (R76, R110). -/
def State.nimMessage (s : State) (d : Nat) (p : Packet) : State :=
  match nimUnwrap p with
  | none => s
  | some n => if n.dmod ≠ s.fab.nmod ∧ 20 ≤ d then s.sendFlits (nimTx n.plane) n else s.deliverNim n

/-- NXRQ (R76, R110). -/
def execNxrq (s : State) : Host.Outcome State Fault Refusal := onPacket 0x62 (fun d p s => s.nimMessage d p) s
/-- NXRS (R76, R110). -/
def execNxrs (s : State) : Host.Outcome State Fault Refusal := onPacket 0x63 (fun d p s => s.nimMessage d p) s

end Sys2Proof.Machine
end

