-- ==== Sys2Proof/Machine/Issue.lean ====
section
/-! DEFINITION. Issuing the next instruction of a group: decoding it from the run buffer, the placement rules (R151, R253,
R307), region entry (R252, R389), the stall counts (R303), and holding an issue (R412). -/

namespace Sys2Proof.Machine

/-- The stall count of instruction word i, 1 to 22 (R300). -/
def Group.stall (g : Group) (i : Nat) : Nat :=
  if i = 0 then 0
  else if i ≤ 6 then g.trailerA.toNat / 2 ^ (2 * i - 2) % 4
  else if i ≤ 22 then g.trailerB.toNat / 2 ^ (2 * i - 14) % 4
  else 0

/-- The cycles from one instruction to the next that a stall count sets (R303). -/
def stallGap (s : Nat) : Nat := if s = 0 then 1 else if s = 1 then 2 else if s = 2 then 4 else 8

/-- The group as its next instruction issues: the position moved over n words, the cycle by the gap before it, and the
instruction's variable-latency destinations noted. -/
def Group.advance (g : Group) (n : Nat) (vd : List Nat) : Group :=
  { g with here := g.next, next := g.next + n,
           cycle := g.cycle + (if g.next = 0 then 0 else stallGap (g.stall g.next)),
           varDests := g.varDests ++ vd.map (fun f => (g.next, f)) }

/-- The state with a group's next instruction current; the one after it issues no earlier than its stall count says (R303). -/
def issueAt (k : GroupKey) (g : Group) (s : State) : State :=
  { (s.setGroup k { g with dueAt := s.time + stallGap (g.stall g.next), held := false }) with cur := some k, openVals := s.openVals + 2048 }

/-- The current instruction does not issue: it stands next again, with no effect (R412). -/
def holdIssue (s : State) : State :=
  match s.cur with
  | none => s
  | some k =>
    match s.group? k with
    | none => s
    | some g =>
      s.setGroup k { g with
        next := g.here, dueAt := s.time, held := true, cycle := g.cycle - (if g.here = 0 then 0 else stallGap (g.stall g.here)),
        varDests := g.varDests.filter (fun v => decide (v.1 ≠ g.here)) }

/-- A group noted as one whose next instruction could not issue when it was tried (R156). -/
def State.markHeld (s : State) (k : GroupKey) : State :=
  match s.group? k with
  | none => s
  | some g => s.setGroup k { g with held := true }

/-- Whether a warp's MMAs have a gang partner: PMASK names another partition (R401). -/
def Warp.partnered (w : Warp) : Bool :=
  (List.range 4).any (fun q => w.gang.getLsbD q && q != w.wp % 4)

/-- Whether an instruction of a group blocks: one of R307, or an MMA of a warp with a partner. -/
def blocksHere (i : Instr) (s : State) : Bool :=
  isBlocking i ||
  (match i with
    | .mma _ _ _ _ _ _ =>
      match (laneCtxs s).head? with
      | some c => c.warp.partnered
      | none => false
    | _ => false)

/-- Whether what follows word index `n` of a run is nothing or its control transfer alone (R253). -/
def onlyControlAfter (ws : List Word) (n : Nat) : Bool :=
  match ws.drop n with
  | [] => true
  | w :: t =>
    match decodeWords (w :: t) with
    | .ok (i, k) => isControl i && (t.drop (k - 1)).isEmpty
    | .error _ => false

/-- The lowest class 00 subcode of the placement rules that the current instruction breaks (R307, R151). -/
def placementFault (g : Group) (i : Instr) (blocks narrow : Bool) : Option Nat :=
  firstCode [
    (isControl i && decide (g.next < g.len), 6),
    (blocks && decide (g.here ≠ 0), 7),
    ((namedFields i).any (fun f => g.varDests.any (fun v => decide (v.1 < g.here) && v.2 == f)), 0x0A),
    (narrow && !isReservedOp i && !(match majorOp i with | some op => narrowOps op | none => true), 0x10),
    (isNonIdempotent i && !onlyControlAfter g.words g.next, 0x12)]

/-- Whether a member would begin a new region while its warp has an MMA or MTX that has not committed (R389). -/
def regionWaits (s : State) (g : Group) (c : LaneCtx) : Bool :=
  (g.entry || c.th.newRegion) && !c.th.reenter && s.matrix.any (fun j => decide (j.warp = c.tid.warp))

/-- What comes of an attempt to issue. -/
inductive Prepared where
  | run (i : Instr) (s : State)
  | done (s : State)

/-- Every member enters its region as the run's first instruction issues (R252). -/
def enterAll (k : GroupKey) (s : State) : State :=
  let s := (laneCtxs s).foldl (fun s c => enterRegion k c.tid s) s
  match s.group? k with
  | none => s
  | some g => s.setGroup k { g with entered := true }

/-- The next instruction of a group: what is to be carried out and from which state; or the state where nothing is (a run not
fetched, at its end, held, or an instruction that the placement rules stop). Of several class 00 causes the lowest subcode is taken (log 131). -/
def prepare (k : GroupKey) (s : State) : Prepared :=
  match s.group? k with
  | none => .done s
  | some g =>
    if !g.fetched || decide (g.len ≤ g.next) then .done s
    else
      match decodeWords (g.words.drop g.next) with
      | .error e =>
        let r := rejected e (g.words.drop g.next)
        let s := issueAt k (g.advance r.1 []) s
        let s := if g.next = 0 && !g.entered then enterAll k s else s
        .done (trapGuarded r.2.1 r.2.2 s)
      | .ok (i, n) =>
        let g1 := g.advance n (varDestFields i)
        let s1 := issueAt k g1 s
        let blocks := blocksHere i s1
        if g.next = 0 && !g.entered && (laneCtxs s1).any (regionWaits s1 g1) then .done (s.markHeld k)
        else
          let s2 := if g.next = 0 && !g.entered && !blocks then enterAll k s1 else s1
          match placementFault g1 i blocks (k.port == 1) with
          | none => .run i s2
          | some p =>
            if decide (((guardOf i).getD 12).toNat > 12) then .run i s2
            else
              let s3 := if g.next = 0 && !g.entered then enterAll k s1 else s1
              match encodingFault i with
              | some e => if e < p then .run i s2 else .done (trapGuarded ((guardOf i).getD 12) p s3)
              | none => .done (trapGuarded ((guardOf i).getD 12) p s3)

end Sys2Proof.Machine
end

