-- ==== Sys2Proof/Machine/Record.lean ====
section
/-! DEFINITION. The fields of a task record (R127, R128), and what a bundle knows of its grid and spread. -/

namespace Sys2Proof.Machine

/-- n bytes of a record from an offset. -/
def recNum (r : BitVec 512) (off n : Nat) : Nat := bitsAt r.toNat (8 * off) (8 * n)
/-- CODE. -/
def recCode (r : BitVec 512) : BitVec 64 := BitVec.ofNat 64 (recNum r 0 8)
/-- FRAME. -/
def recFrame (r : BitVec 512) : BitVec 64 := BitVec.ofNat 64 (recNum r 8 8)
/-- DONEA. -/
def recDonea (r : BitVec 512) : BitVec 64 := BitVec.ofNat 64 (recNum r 16 8)
/-- JADDR. -/
def recJaddr (r : BitVec 512) : BitVec 64 := BitVec.ofNat 64 (recNum r 24 8)
/-- CHIT. -/
def recChit (r : BitVec 512) : BitVec 64 := BitVec.ofNat 64 (recNum r 32 8)
/-- JINIT. -/
def recJinit (r : BitVec 512) : Nat := recNum r 40 4
/-- GX. -/
def recGx (r : BitVec 512) : Nat := recNum r 44 4
/-- GY. -/
def recGy (r : BitVec 512) : Nat := recNum r 48 2
/-- GZ. -/
def recGz (r : BitVec 512) : Nat := recNum r 50 2
/-- WPB. -/
def recWpb (r : BitVec 512) : Nat := recNum r 52 1
/-- BPS. -/
def recBps (r : BitVec 512) : Nat := recNum r 53 1
/-- REGS. -/
def recRegs (r : BitVec 512) : Nat := recNum r 54 1
/-- ACCW. -/
def recAccw (r : BitVec 512) : Nat := recNum r 55 1
/-- SCRS. -/
def recScrs (r : BitVec 512) : Nat := recNum r 56 1
/-- MXSQ. -/
def recMxsq (r : BitVec 512) : Nat := recNum r 57 1
/-- CTL. -/
def recCtl (r : BitVec 512) : Nat := recNum r 58 1
/-- PRIO of CTL. -/
def recPrio (r : BitVec 512) : Nat := recCtl r % 8
/-- CHV of CTL. -/
def recChv (r : BitVec 512) : Bool := (recCtl r).testBit 3
/-- PNOTE of CTL. -/
def recPnote (r : BitVec 512) : Bool := (recCtl r).testBit 4
/-- QSEL. -/
def recQsel (r : BitVec 512) : Nat := recNum r 59 1
/-- Members of an element: BPS, or one for a grid of bundles (R128). -/
def recMembers (r : BitVec 512) : Nat := Nat.max (recBps r) 1
/-- Elements of a grid (R128). -/
def recElements (r : BitVec 512) : Nat := recGx r * recGy r * recGz r

/-- A record with a field of n bytes replaced. -/
def recSet (r : BitVec 512) (off n v : Nat) : BitVec 512 :=
  BitVec.ofNat 512 (mergeBytes 64 (onesMask off n) (v * 256 ^ off) r.toNat)

/-- The record of a bundle's grid. -/
def State.recordOf (s : State) (b : Bundle) : BitVec 512 :=
  match s.grid? b.grid with
  | some g => g.record
  | none => 0

/-- The members of the spread a bundle is one of: 1 for a grid of bundles (R181). -/
def State.membersIn (s : State) (b : Bundle) : Nat := recMembers (s.recordOf b)

/-- Whether a bundle is a member of a spread (R126). -/
def State.inSpread (s : State) (b : Bundle) : Bool := decide (recBps (s.recordOf b) ≠ 0)

/-- One number for the spread, or the lone bundle, that a bundle belongs to. -/
def Bundle.spread (b : Bundle) : Nat := b.grid * 2 ^ 64 + b.element

/-- Member m of a bundle's spread in its cluster: its core and slot (R181). -/
def State.memberAt (s : State) (w : WarpId) (b : Bundle) (m : Nat) : Option (CoreId × Nat × Bundle) :=
  (s.cores.filter (fun c => decide (c.1.die = w.die) && decide (c.1.cluster = w.coreId.cluster))).findSome? (fun c =>
    (c.2.bundles.find? (fun p => decide (p.2.spread = b.spread) && decide (p.2.member = m))).map (fun p => (c.1, p.1, p.2)))

/-- The warps of the bundle in a slot of a core. -/
def State.warpsOf (s : State) (c : CoreId) (bslot : Nat) : List WarpId :=
  (s.warps.filter (fun p => decide (p.1.coreId = c) && decide (p.2.bslot = bslot))).map Prod.fst

end Sys2Proof.Machine
end

