-- ==== Sys2Proof/Machine/Gate.lean ====
section
/-! DEFINITION. Where an address lies (R179 to R182, R372), the scratchpads as storage, and what a release or an acquire waits
for (R88, R207, R213). -/

namespace Sys2Proof.Machine

/-! ## Where an address lies -/

/-- What an address names: bytes of a bundle's scratchpad, of the die's weight store, or a 52-bit physical address with the leaf
of its page. -/
inductive At where
  | scr (c : CoreId) (b off : Nat)
  | weights (off : Nat)
  | mem (pa leaf : Nat)
  deriving DecidableEq, Repr

/-- What comes of looking: a place, a trap, a translation fault, a walk that is needed, or storage still being added (R170). -/
inductive Located where
  | here (p : At)
  | trap (t : Trap)
  | denied (sub : Nat) (parks : Bool)
  | walk
  | hold
  deriving DecidableEq, Repr

/-- Bytes of a bundle's scratchpad (R164). -/
def Bundle.scrBytes (b : Bundle) : Nat := b.scrSegs * 8192

/-- The bytes that a growing POOL will give a bundle (R170); zero where none grows. -/
def State.scrGrowing (s : State) (c : CoreId) (b : Nat) : Nat :=
  match (s.core c).wring with
  | some w => if w.pool.isSome then w.planned.countP (fun g => decide (g.role = .scr) && g.own == some b) * 8192 else 0
  | none => 0

/-- n bytes of window 0 of a warp (R179, R180). -/
def State.inScratch (s : State) (w : WarpId) (va : BitVec 64) (off n : Nat) : Located :=
  let b := (s.warp w).bslot
  if off + n ≤ (s.bundle w).scrBytes then .here (.scr w.coreId b off)
  else if off + n ≤ s.scrGrowing w.coreId b then .hold
  else .trap (Trap.sync 4 0x21 va)

/-- n bytes of window 1 of a warp, within one stripe (R181). -/
def State.inCluster (s : State) (w : WarpId) (va : BitVec 64) (off n : Nat) : Located :=
  let b := s.bundle w
  let k := s.membersIn b
  match s.memberAt w b (off / 128 % k) with
  | none => .trap (Trap.sync 4 0x22 va)
  | some m =>
    let o := off / 128 / k * 128 + off % 128
    if o + n ≤ m.2.2.scrBytes then .here (.scr m.1 m.2.1 o)
    else if m.1 = w.coreId ∧ m.2.1 = (s.warp w).bslot ∧ o + n ≤ s.scrGrowing m.1 m.2.1 then .hold
    else .trap (Trap.sync 4 0x22 va)

/-- A device window (R179, R180). -/
def State.inWindow (s : State) (w : WarpId) (va : BitVec 64) (n kind : Nat) : Located :=
  let win := bitsAt va.toNat 52 4
  let off := bitsAt va.toNat 0 52
  if kind = 2 then .trap (Trap.sync 3 3 va)
  else if 3 ≤ win then .trap (Trap.sync 3 6 va)
  else if win = 2 ∧ kind ≠ 0 then .trap (Trap.sync 3 2 va)
  else if win = 0 then s.inScratch w va off n
  else if win = 1 then s.inCluster w va off n
  else if off + n ≤ 0x20000000 then .here (.weights off) else .trap (Trap.sync 4 0x23 va)

/-- A translation as a place; a far address that no window claims is class 14 (R105). -/
def State.placed (s : State) (t : Translated) : Located :=
  match t with
  | .fault sub p => .denied sub p
  | .event sub pa => .trap (eventTrap sub (pa + 2 ^ 44 * s.nmod) false)
  | .wait _ => .walk
  | .ok pa leaf =>
    if pa / 2 ^ 44 = s.nmod ∧ farBase ≤ pa % 2 ^ 44 ∧ (s.farWindow (pa % 2 ^ 44)).isNone then .trap (eventTrap 0x45 pa false)
    else .here (.mem pa leaf)

/-- Where n bytes at an address lie for a kind of access, 0 read, 1 write, 2 fetch, 3 atomic; `al` is the class 05 subcode, zero
where alignment is not asked for (R372 steps 3 to 9). A disabled address space is never parked (R189, R194). -/
def State.locate (s : State) (w : WarpId) (va : BitVec 64) (n kind al : Nat) : Located :=
  if va.extractLsb' 57 7 ≠ 0 then .trap (Trap.sync 3 7 va)
  else if al ≠ 0 ∧ va.toNat % n ≠ 0 then .trap (Trap.sync 5 al va)
  else if va.getLsbD 56 then s.inWindow w va n kind
  else if !(s.asRoot w.die (s.bundle w).asid).en then .denied 1 false
  else
    match s.tlbFind w.coreId (s.bundle w).asid va.toNat with
    | none => .walk
    | some e => s.placed (e.translate va.toNat kind)

/-! ## Scratchpads and the weight store as storage -/

/-- A bundle in a slot of a core. -/
def State.bundleAt (s : State) (c : CoreId) (b : Nat) : Bundle := lookupD b Bundle.reset (s.core c).bundles

/-- Bytes of a scratchpad as a number. -/
def State.scrRead (s : State) (c : CoreId) (b off n : Nat) : Nat := readNum off n (s.bundleAt c b).scr

/-- Bytes of a scratchpad as a list. -/
def State.scrBytesAt (s : State) (c : CoreId) (b off n : Nat) : List Byte := readCells off (s.bundleAt c b).scr n

/-- Bytes stored in a scratchpad. -/
def State.scrWrite (s : State) (c : CoreId) (b off n x : Nat) : State :=
  let v := s.bundleAt c b
  s.setBundle c b { v with scr := writeNum off n x v.scr }

/-- The key of a byte of a die's weight store. -/
def weightKey (d off : Nat) : Nat := d * 0x20000000 + off

/-- Bytes of a die's weight store as a number (R182). -/
def State.weightRead (s : State) (d off n : Nat) : Nat := readNum (weightKey d off) n s.weights

/-- The bank of an offset (R182). -/
def weightBank (off : Nat) : Nat := off / 4096 % 16

/-- Whether a bank is refreshing (R184). -/
def State.refreshing (s : State) (b : Nat) : Bool :=
  let t := s.time % 70400
  decide (4400 * b ≤ t) && decide (t < 4400 * b + 1760)

/-! ## Remote accesses of threads -/

/-- The accesses of a lane that a unit holds or has outstanding. -/
def State.remoteOf (s : State) (x : ThreadId) : List Access :=
  let r := s.rau x.warp.die
  (r.held.flatMap (fun h => h.accs) ++ r.txns.flatMap (fun t => t.accs)).filter (fun a => decide (a.who = .lane x))

/-- Whether a thread has an access outstanding in its own module, a read that a refresh holds up, or a remote read. -/
def State.busy (s : State) (x : ThreadId) : Bool :=
  s.accessing x || (s.remoteOf x).any (fun a => !a.dest.isEmpty) ||
  (s.die x.warp.die).refreshWaits.any (fun r => decide (r.2.2.thread = x))

/-- Whether a thread's acquire has not been performed, so that its later accesses wait (R213). -/
def State.acquiring (s : State) (x : ThreadId) : Bool :=
  s.coh.accesses.any (fun a => decide (a.who = .lane x) && decide (a.acq ≠ 0)) ||
  s.coh.cxlReqs.any (fun a => decide (a.who = .lane x) && decide (a.acq ≠ 0)) ||
  (s.remoteOf x).any (fun a => decide (a.acq ≠ 0)) ||
  (s.die x.warp.die).refreshWaits.any (fun r => decide (r.2.2.thread = x) && decide (r.2.1 ≠ 0))

/-! ## The wait for remote writes (R88) -/

/-- Whether every count of an epoch is zero. -/
def Rau.quiet (r : Rau) (e : Bool) : Bool := r.out.all (fun p => p.1.1 != e || decide (p.2 = 0))

/-- Whether a fence that a group began has waited for its epoch. -/
def Rau.fenced (r : Rau) (k : GroupKey) : Bool :=
  match lookup? k r.fence with
  | some none => true
  | some (some e) => r.quiet e
  | none => false

/-- A fence begun for a group, once the other epoch is quiet: the epoch changes, and fences that waited for what is now quiet
have waited. -/
def Rau.beginFence (r : Rau) (k : GroupKey) : Rau :=
  if (lookup? k r.fence).isSome || !r.quiet (!r.epoch) then r
  else
    { r with
      epoch := !r.epoch
      fence := put k (some r.epoch) (r.fence.map (fun p => (p.1, if p.2 = some (!r.epoch) then none else p.2))) }

/-- A group's fence ended. -/
def State.endFence (s : State) (k : GroupKey) : State := s.onRau k.die (fun r => { r with fence := drop k r.fence })

/-! ## Releases (R207, R213) -/

/-- Whether what precedes a release of a thread at a scope has been performed. -/
def State.released (s : State) (k : GroupKey) (x : ThreadId) (sc : Nat) : Bool :=
  !s.busy x &&
  (if sc ≥ 3 then !s.l1Dirty x.warp.coreId && !s.writingBack x.warp.coreId else true) &&
  (if sc ≥ 6 then (s.remoteOf x).isEmpty && (s.rau x.warp.die).fenced k else true)

/-- The wait for the die's remote writes begun, once those of the thread have been sent (R88). -/
def State.pressAway (s : State) (k : GroupKey) (x : ThreadId) : State :=
  if (s.rau x.warp.die).held.any (fun h => h.accs.any (fun a => decide (a.who = .lane x))) then s
  else s.onRau x.warp.die (fun r => r.beginFence k)

/-- What a release that must wait sets going: the dirty bytes are written back, and from DOM on the die's remote writes are
waited for. -/
def State.pressRelease (s : State) (k : GroupKey) (x : ThreadId) (sc : Nat) : State :=
  let s := if sc ≥ 3 then s.l1Flush x.warp.coreId else s
  if sc ≥ 6 then s.pressAway k x else s

/-- The same for a fence at DOM or SYS scope that is no release: it waits for the die's remote writes alone (R88, R208). -/
def State.gatedAway (s : State) (xs : List ThreadId) (f : State → State) : State :=
  match s.cur with
  | none => s
  | some k =>
    if xs.isEmpty then f s
    else if (s.rau k.die).fenced k && xs.all (fun x => (s.remoteOf x).isEmpty) then f (s.endFence k)
    else holdIssue (xs.foldl (fun s x => s.pressAway k x) s)

/-- Every clean byte of a thread's core's cache goes, for an acquire at CLU scope or wider (R213). -/
def State.acquire (s : State) (x : ThreadId) (sc : Nat) : State := if sc ≥ 3 then s.l1Invalidate x.warp.coreId else s

/-- The instruction goes on once every listed release is met; otherwise it does not issue, and what it waits for is set
going. -/
def State.gated (s : State) (rs : List (ThreadId × Nat)) (f : State → State) : State :=
  match s.cur with
  | none => s
  | some k =>
    if rs.all (fun r => s.released k r.1 r.2) then
      let s := if rs.any (fun r => decide (6 ≤ r.2)) then s.endFence k else s
      f s
    else holdIssue (rs.foldl (fun s r => s.pressRelease k r.1 r.2) s)

end Sys2Proof.Machine
end

