-- ==== Sys2Proof/Machine/Barrier.lean ====
section
/-! DEFINITION. The barrier network: naming and holding slots, arrival, completion, waiting and breaking (R224 to R230, R417), with
the weigh monitors that are checked when a generation completes (R242 to R245, R423, R460). -/

namespace Sys2Proof.Machine

/-! ## Slots (R224) -/

/-- A physical slot of a level as a warp's place gives it: 1 bundle, 2 cluster, 3 die, 4 device. -/
def State.slot? (s : State) (w : WarpId) (level n : Nat) : Option BarSlot :=
  if level = 1 then lookup? n (s.core w.coreId).bars
  else if level = 2 then lookup? n (s.cluster w.die w.coreId.cluster).bars
  else if level = 3 then some (lookupD n BarSlot.reset (s.die w.die).bars)
  else some (lookupD n BarSlot.reset s.devBars)

/-- The state with a physical slot replaced. -/
def State.setSlot (s : State) (w : WarpId) (level n : Nat) (b : BarSlot) : State :=
  if level = 1 then s.onCore w.coreId (fun c => { c with bars := put n b c.bars })
  else if level = 2 then
    let k := s.cluster w.die w.coreId.cluster
    s.setCluster w.die w.coreId.cluster { k with bars := put n b k.bars }
  else if level = 3 then s.onDie w.die (fun d => { d with bars := put n b d.bars })
  else { s with devBars := put n b s.devBars }

/-- The state with a bound slot freed; its GEN stays with the physical slot (R224, R225). -/
def State.freeSlotAt (s : State) (w : WarpId) (level n : Nat) : State :=
  if level = 1 then
    s.onCore w.coreId (fun c => { c with bars := drop n c.bars, gens := keepGens (fun p => decide (p.1 = n)) c.bars c.gens })
  else
    let k := s.cluster w.die w.coreId.cluster
    s.setCluster w.die w.coreId.cluster { k with bars := drop n k.bars, gens := keepGens (fun p => decide (p.1 = n)) k.bars k.gens }

/-- The GEN of a free physical slot of a bindable level (R225). -/
def State.freeGen (s : State) (w : WarpId) (level n : Nat) : BitVec 16 :=
  lookupD n 0 (if level = 1 then (s.core w.coreId).gens else (s.cluster w.die w.coreId.cluster).gens)

/-- The registers of a die or device slot (R229). -/
def State.dbReg (s : State) (w : WarpId) (level n : Nat) : DbReg :=
  if level = 3 then lookupD n DbReg.reset (s.die w.die).dbregs else lookupD n DbReg.reset s.devRegs

/-- Who holds a bundle or cluster slot: the bundle's slot number, or its spread. -/
def holderOf (w : Warp) (b : Bundle) (level : Nat) : Nat := if level = 1 then w.bslot else b.spread

/-- The physical slots a level binds names to, for a warp. -/
def State.bound (s : State) (w : WarpId) (level : Nat) : List (Nat × BarSlot) :=
  if level = 1 then (s.core w.coreId).bars else (s.cluster w.die w.coreId.cluster).bars

/-- The physical slot a name is bound to. -/
def State.boundTo (s : State) (w : WarpId) (level name : Nat) : Option Nat :=
  let h := holderOf (s.warp w) (s.bundle w) level
  ((s.bound w level).find? (fun p => decide (p.2.holder = h) && decide (p.2.name = name))).map Prod.fst

/-- The class 09 trap of R228. -/
def barTrap (sub level n : Nat) : Trap := Trap.sync 9 sub (BitVec.ofNat 64 (level * 2 ^ 56 + n))

/-- The slot that a warp means by a name: an unbound name is class 04, a die or device slot of another address space class 09. -/
def State.barFind (s : State) (w : WarpId) (level name : Nat) : Except Trap Nat :=
  if level ≤ 2 then
    match s.boundTo w level name with
    | some n => .ok n
    | none => .error (Trap.sync 4 0x64 (BitVec.ofNat 64 name))
  else
    let r := s.dbReg w level name
    if r.en && r.asid == (s.bundle w).asid then .ok name else .error (barTrap 4 level name)

/-- The number of a warp's unit at a level: its wp, its bundle's member index, or its grid and bundle number. -/
def State.unitOf (s : State) (w : WarpId) (level : Nat) : Nat :=
  if level = 1 then (s.warp w).wp else if level = 2 then (s.bundle w).member
  else (s.bundle w).grid * 2 ^ 64 + (s.bundle w).bn

/-- The warps of a warp's unit. -/
def State.unitWarps (s : State) (w : WarpId) (level : Nat) : List WarpId :=
  if level = 1 then [w] else s.warpsOf w.coreId (s.warp w).bslot

/-! ## Breaking a slot (R228) -/

/-- Whether a thread waits at a slot. -/
def waitsAt (w : WarpId) (level n : Nat) (x : ThreadId) (th : Thread) : Bool :=
  (match th.wait with
    | some (.barrier l k _) => decide (l = level) && decide (k = n)
    | _ => false) &&
  (if level = 1 then decide (x.warp.coreId = w.coreId)
   else if level = 2 then decide (x.warp.die = w.die) && decide (x.warp.coreId.cluster = w.coreId.cluster)
   else if level = 3 then decide (x.warp.die = w.die) else true)

/-- BRK set: every waiter leaves with class 09, subcode 0x07, as it next issues its wait. -/
def State.breakSlot (s : State) (w : WarpId) (level n : Nat) : State :=
  match s.slot? w level n with
  | none => s
  | some b =>
    let s := s.setSlot w level n { b with brk := true }
    { s with threads := s.threads.map (fun p =>
        if waitsAt w level n p.1 p.2 then (p.1, { p.2 with wait := some (.broken level n) }) else p) }

/-! ## Weigh monitors: what they add (R243, R244) -/

/-- n bytes of a monitor's block from an offset (R242). -/
def Monitor.num (m : Monitor) (off n : Nat) : Nat := bitsAt m.block.toNat (8 * off) (8 * n)
/-- The size of the watched field. -/
def Monitor.fieldBytes (m : Monitor) : Nat := if m.num 24 1 % 2 = 1 then 8 else 4

/-- A field's value scaled by 2^BP and rounded to an integer; none for a NaN or an infinity (R243). -/
def Monitor.scaled (m : Monitor) (x : Nat) : Option Int :=
  let fmt := m.num 24 1
  let t := if fmt = 0 then tagF32 else if fmt = 1 then tagF64 else if fmt = 2 then tagS32 else tagS64
  match elemValue t x with
  | .num neg v e => some (roundToInt .rne neg v (e + (m.num 25 1 : Int))).1
  | _ => none

/-- Whether a sum is within the signed 128-bit range. -/
def inInt128 (x : Int) : Bool := decide (- 2 ^ 127 ≤ x) && decide (x < 2 ^ 127)

/-- An addend, or marks, added to the open generation. -/
def Monitor.addNow (m : Monitor) (marks : Nat) (x : Int) : Monitor :=
  let m := { m with ov := m.ov || marks.testBit 0, nf := m.nf || marks.testBit 1, pf := m.pf || marks.testBit 2 }
  if m.ov then m else if inInt128 (m.acc + x) then { m with acc := m.acc + x } else { m with ov := true }

/-- An addend, or marks, for the open generation or the next. -/
def Monitor.add (m : Monitor) (next : Bool) (marks : Nat) (x : Int) : Monitor :=
  if next then { m with early := m.early ++ [(marks, x)] } else m.addNow marks x

/-- What one record's field takes from a write of n bytes at an address: the whole of it is added, a part marks PF. -/
def Monitor.takeField (m : Monitor) (next : Bool) (va n data r : Nat) : Monitor :=
  let base := m.num 0 8
  let fa := base + r * m.num 16 4 + m.num 20 4
  let fe := fa + m.fieldBytes
  let lo := Nat.max va base
  let hi := Nat.min (va + n) (base + m.num 8 8)
  if fe ≤ lo ∨ hi ≤ fa then m
  else if fa < va ∨ va + n < fe then m.add next 4 0
  else
    match m.scaled (data / 256 ^ (fa - va) % 256 ^ m.fieldBytes) with
    | some x => m.add next 0 x
    | none => m.add next 2 0

/-- What a monitor takes from a write of n bytes at an address (R243). -/
def Monitor.take (m : Monitor) (next : Bool) (va n data : Nat) : Monitor :=
  let base := m.num 0 8
  let stride := m.num 16 4
  let lo := Nat.max va base
  let hi := Nat.min (va + n) (base + m.num 8 8)
  if hi ≤ lo then m
  else
    let r0 := (lo - base) / stride
    (List.range ((hi - 1 - base) / stride + 1 - r0)).foldl (fun m i => m.takeField next va n data (r0 + i)) m

/-- Whether a warp has arrived at a slot in its open generation. -/
def State.warpArrived (s : State) (w : WarpId) (level n : Nat) : Bool :=
  match s.slot? w level n with
  | none => false
  | some b =>
    let u := s.unitOf w level
    let wp := (s.warp w).wp
    b.last.any (fun p => decide (p.1 = u) && p.2 == b.gen) ||
    ((List.range 32).any (fun l => b.part.contains (u, wp, l)) &&
     (List.range 32).all (fun l => decide ((s.thread ⟨w, l⟩).st = .exited) || b.part.contains (u, wp, l)))

/-- A write to global memory by a thread or engine of a warp, shown to its cluster's monitors. -/
def State.watch (s : State) (w : WarpId) (va n data : Nat) : State :=
  let k := s.cluster w.die w.coreId.cluster
  if k.monitors.isEmpty then s
  else
    let asid := (s.bundle w).asid
    s.setCluster w.die w.coreId.cluster { k with
      monitors := k.monitors.map (fun p =>
        if p.2.asid = asid then (p.1, p.2.take (s.warpArrived w p.2.level p.2.slot) va n data) else p) }

/-! ## Completion (R226, R244, R245) -/

/-- The clusters that a slot's monitors may stand in, in ascending order. -/
def slotClusters (w : WarpId) (level : Nat) : List (Nat × Nat) :=
  if level ≤ 2 then [(w.die, w.coreId.cluster)]
  else if level = 3 then (List.range 4).map (fun k => (w.die, k))
  else (List.range 8).flatMap (fun d => (List.range 4).map (fun k => (d, k)))

/-- A monitor as a completed generation leaves it: its TOTAL, and what was early now counted. -/
def Monitor.renewed (m : Monitor) (total : Int) : Monitor :=
  m.early.foldl (fun m e => m.addNow e.1 e.2)
    { m with acc := 0, ov := false, nf := false, pf := false, early := [], total := total }

/-- The monitors of one name bound to a slot: cluster, physical number, monitor. -/
def State.monitorsOf (s : State) (w : WarpId) (level n name : Nat) : List ((Nat × Nat) × Nat × Monitor) :=
  (slotClusters w level).flatMap (fun c =>
    ((s.cluster c.1 c.2).monitors.filter (fun p => decide (p.2.level = level) && decide (p.2.slot = n) && decide (p.2.name = name))).map
      (fun p => (c, p.1, p.2)))

/-- A two's complement number of 128 bits. -/
def int128 (x : Nat) : Int := if 2 ^ 127 ≤ x then (x : Int) - 2 ^ 128 else x

/-- The check of one name: its subcode where it fails (R244, R245). -/
def monitorCheck (ms : List ((Nat × Nat) × Nat × Monitor)) (total : Int) : Nat :=
  match ms with
  | [] => 0
  | (_, _, r) :: _ =>
    let ref := int128 (r.num 32 16)
    let diff := (total - ref).natAbs
    let bound := r.num 48 16
    let apart := if r.num 26 1 = 0 then decide (bound < diff) else decide (bound * ref.natAbs < diff * 2 ^ 64)
    if apart then 1 else if ms.any (fun m => m.2.2.ov) then 2 else if ms.any (fun m => m.2.2.nf) then 3
    else if ms.any (fun m => m.2.2.pf) then 4 else 0

/-- One name's monitors renewed, and its failure if any: the subcode and the detail address (R460). -/
def State.checkName (s : State) (w : WarpId) (level n name : Nat) : State × Option (Nat × Nat) :=
  let ms := s.monitorsOf w level n name
  match ms with
  | [] => (s, none)
  | (c, phys, _) :: _ =>
    let total := ms.foldl (fun t m => t + m.2.2.acc) 0
    let sub := monitorCheck ms total
    let s := ms.foldl (fun s m =>
      let k := s.cluster m.1.1 m.1.2
      s.setCluster m.1.1 m.1.2 { k with monitors := put m.2.1 (m.2.2.renewed total) k.monitors }) s
    (s, if sub = 0 then none else some (sub, phys + 4 * (4 * c.1 + c.2)))

/-- All names of a slot checked as its generation completes: the lowest failing one. -/
def State.checkMonitors (s : State) (w : WarpId) (level n : Nat) : State × Option (Nat × Nat) :=
  [0, 1, 2, 3].foldl (fun r name =>
    let q := r.1.checkName w level n name
    (q.1, match r.2 with | some f => some f | none => q.2)) (s, none)

/-- The scope of a level (R207). -/
def levelScope (level : Nat) : Nat := level + 1

/-- The scope of the acquire that a wait for generation g is: the level's, and at least CLU where an engine's bytes were pending in
it, which it wrote at the die cache (R207, R234). -/
def BarSlot.waitScope (b : BarSlot) (level : Nat) (g : BitVec 16) : Nat :=
  if b.pended.contains g then Nat.max 3 (levelScope level) else levelScope level

/-- The failed check of a generation, if any (R245). -/
def BarSlot.failOf (b : BarSlot) (g : BitVec 16) : Option (Nat × Nat) := (b.failed.find? (fun f => f.1 == g)).map Prod.snd

/-- The waiters of a slot's generation released: those of the machine, and those that stand saved, of a die or device slot (R226). -/
def State.releaseWaiters (s : State) (w : WarpId) (level n : Nat) (g : BitVec 16) (b : BarSlot) : State :=
  let free (th : Thread) : Thread :=
    match th.wait with
    | some (.barrier l k x) =>
      if l = level ∧ k = n ∧ BitVec.ofNat 16 x = g then { th with wait := some (.released level n (b.waitScope level g) (b.failOf g)) } else th
    | _ => th
  { s with
    threads := s.threads.map (fun p => if waitsAt w level n p.1 p.2 then (p.1, free p.2) else p)
    shadow :=
      if level ≤ 2 then s.shadow
      else s.shadow.map (fun (c : Saved) =>
        if level = 4 ∨ c.die = w.die then { c with threads := c.threads.map (fun p => (p.1, free p.2)) } else c) }

/-- Whether every member of a slot has arrived; of a mask that exits have emptied, that is so (R226, R227). -/
def State.allArrived (s : State) (w : WarpId) (level n : Nat) (b : BarSlot) : Bool :=
  if level ≤ 2 then b.arrv == b.mask
  else decide (b.count = (s.dbReg w level n).exp.toNat) && decide (b.count ≠ 0)

/-- The open generation of a slot completed where it can be (R226). -/
def State.tryComplete (s : State) (w : WarpId) (level n : Nat) : State :=
  match s.slot? w level n with
  | none => s
  | some b =>
    if s.allArrived w level n b && decide (b.pend = 0) then
      let r := s.checkMonitors w level n
      let failed := b.failed.filter (fun f => f.1 != b.gen) ++ (match r.2 with | some f => [(b.gen, f.1, f.2)] | none => [])
      let pended := b.pended.filter (fun g => g != b.gen) ++ (if b.landed then [b.gen] else [])
      let b' := { b with
        gen := b.gen + 1, arrv := 0, count := 0, part := [], failed := failed, landed := false, pended := pended }
      (r.1.setSlot w level n b').releaseWaiters w level n b.gen b'
    else s

/-- Pending bytes subtracted by an engine; more than are pending breaks the slot, and the answer says so (R226, R228). -/
def State.subPend (s : State) (w : WarpId) (level n bytes : Nat) : State × Bool :=
  match s.slot? w level n with
  | none => (s, false)
  | some b =>
    if b.pend < bytes then ((s.setSlot w level n { b with pend := 0 }).breakSlot w level n, true)
    else if bytes = 0 then (s, false)
    else ((s.setSlot w level n { b with pend := b.pend - bytes, landed := true }).tryComplete w level n, false)

/-! ## Arrival (R226) -/

/-- Whether every thread of a unit that has not exited is among the arrivals. -/
def State.unitWhole (s : State) (w : WarpId) (level : Nat) (b : BarSlot) : Bool :=
  let u := s.unitOf w level
  (s.unitWarps w level).all (fun v =>
    (List.range 32).all (fun l => decide ((s.thread ⟨v, l⟩).st = .exited) || b.part.contains (u, (s.warp v).wp, l)))

/-- Whether one more arrival at a slot is beyond EXP (R228). -/
def State.beyondExp (s : State) (w : WarpId) (level n : Nat) (b : BarSlot) : Bool :=
  decide (3 ≤ level) && decide ((s.dbReg w level n).exp.toNat ≤ b.count)

/-- A unit wholly there arrives; beyond EXP the slot breaks. -/
def State.unitArrives (s : State) (w : WarpId) (level n : Nat) (b : BarSlot) : State :=
  let u := s.unitOf w level
  if s.beyondExp w level n b then s.breakSlot w level n
  else
    let b' := { b with
      arrv := if level ≤ 2 then b.arrv ||| (1#64 <<< u) else b.arrv
      count := if level ≤ 2 then b.count else b.count + 1
      part := b.part.filter (fun p => decide (p.1 ≠ u)), last := put u b.gen b.last }
    (s.setSlot w level n b').tryComplete w level n

/-- Whether a unit may arrive at a slot: a member of its mask, or from a cluster or die that CMASK or DMASK names (R228, R229). -/
def State.mayArrive (s : State) (w : WarpId) (level n : Nat) (b : BarSlot) : Bool :=
  if level ≤ 2 then b.mask.getLsbD (s.unitOf w level)
  else if level = 3 then (s.dbReg w level n).cmask.getLsbD w.coreId.cluster
  else (s.dbReg w level n).cmask.getLsbD w.die

/-- Whether a thread, or its unit, has already arrived in the open generation. -/
def State.arrivedHere (s : State) (x : ThreadId) (level : Nat) (b : BarSlot) : Bool :=
  let u := s.unitOf x.warp level
  b.last.any (fun p => decide (p.1 = u) && p.2 == b.gen) || b.part.contains (u, (s.warp x.warp).wp, x.lane)

/-- What is wrong with the arrives of one instruction's lanes at a slot, judged together: the subcode, and whether the slot breaks
(R6, R228). -/
def State.arriveFault (s : State) (level n : Nat) (b : BarSlot) (ls : List (ThreadId × Nat)) : Option (Nat × Bool) :=
  if b.brk then some (7, false)
  else if ls.any (fun l => !s.mayArrive l.1.warp level n b) then some (5, true)
  else if ls.any (fun l => s.arrivedHere l.1 level b) then some (6, true)
  else if 2 ^ 36 ≤ ls.foldl (fun p l => p + l.2) b.pend then some (3, true)
  else none

/-- The arrives of one instruction's lanes, all of one warp, with their byte operands: the state after, and the trap that every one
of them takes, if any (R226, R228). -/
def State.arriveLanes (level name : Nat) (ls : List (ThreadId × Nat)) (s : State) : State × Option Trap :=
  match ls with
  | [] => (s, none)
  | (x, _) :: _ =>
    match s.barFind x.warp level name with
    | .error t => (s, some t)
    | .ok n =>
      match s.slot? x.warp level n with
      | none => (s, some (barTrap 4 level n))
      | some b =>
        match s.arriveFault level n b ls with
        | some f => (if f.2 then s.breakSlot x.warp level n else s, some (barTrap f.1 level n))
        | none =>
          let u := s.unitOf x.warp level
          let b' := { b with pend := ls.foldl (fun p l => p + l.2) b.pend
                             part := b.part ++ ls.map (fun l => (u, (s.warp x.warp).wp, l.1.lane)) }
          let whole := s.unitWhole x.warp level b'
          if whole && s.beyondExp x.warp level n b then (s.breakSlot x.warp level n, some (barTrap 5 level n))
          else
            let s := ls.foldl (fun s l => s.onThread l.1 (fun th => { th with newRegion := true })) (s.setSlot x.warp level n b')
            (if whole then s.unitArrives x.warp level n b' else s, none)

/-- The slots a warp's exiting thread may have left a unit whole in, and their units, reconsidered (R226, R227). -/
def State.reconsider (s : State) (w : WarpId) (level n : Nat) : State :=
  match s.slot? w level n with
  | none => s
  | some b =>
    let u := s.unitOf w level
    if b.part.any (fun p => decide (p.1 = u)) && s.unitWhole w level b then s.unitArrives w level n b else s

/-- Every slot that a warp could have part in, reconsidered as one of its threads exits. -/
def State.reconsiderAll (s : State) (w : WarpId) : State :=
  let s := (s.core w.coreId).bars.foldl (fun s p => if p.2.holder = (s.warp w).bslot then s.reconsider w 1 p.1 else s) s
  let s := (s.cluster w.die w.coreId.cluster).bars.foldl (fun s p => if p.2.holder = (s.bundle w).spread then s.reconsider w 2 p.1 else s) s
  let s := (s.die w.die).bars.foldl (fun s p => s.reconsider w 3 p.1) s
  s.devBars.foldl (fun s p => s.reconsider w 4 p.1) s

/-- A warp that has exited leaves the masks of its bundle's slots (R227). -/
def State.unmaskWarp (s : State) (w : WarpId) : State :=
  let bit : BitVec 64 := 1#64 <<< (s.warp w).wp
  (s.core w.coreId).bars.foldl (fun s p =>
    if p.2.holder = (s.warp w).bslot ∧ p.2.mask &&& bit ≠ 0 then
      (s.setSlot w 1 p.1 { p.2 with mask := p.2.mask &&& ~~~bit, arrv := p.2.arrv &&& ~~~bit }).tryComplete w 1 p.1
    else s) s

/-- A bundle that has exited leaves the masks of its spread's slots (R227). -/
def State.unmaskBundle (s : State) (w : WarpId) : State :=
  let bit : BitVec 64 := 1#64 <<< (s.bundle w).member
  (s.cluster w.die w.coreId.cluster).bars.foldl (fun s p =>
    if p.2.holder = (s.bundle w).spread ∧ p.2.mask &&& bit ≠ 0 then
      (s.setSlot w 2 p.1 { p.2 with mask := p.2.mask &&& ~~~bit, arrv := p.2.arrv &&& ~~~bit }).tryComplete w 2 p.1
    else s) s

/-! ## BAR (R417) -/

/-- The level of a BAR. -/
def barLevel (l : BitVec 3) : Nat := l.toNat

/-- The same trap in every lane of a list of contexts. -/
def trapEvery (t : Trap) (cs : List LaneCtx) (s : State) : State := cs.foldl (fun s c => takeTrap t c.tid s) s

/-- Every lane of a list has performed what ends its region (R253). -/
def markNew (cs : List LaneCtx) (s : State) : State := cs.foldl (fun s c => s.onThread c.tid (fun th => { th with newRegion := true })) s

/-- The operand of BAR INIT: a mask that names only warps or members there are (R417). -/
def State.initMask (s : State) (c : LaneCtx) (level : Nat) (m : BitVec 64) : Option Trap :=
  let n := if level = 1 then c.bundle.wpb else s.membersIn c.bundle
  if m = 0 ∨ 2 ^ n ≤ m.toNat then some (Trap.sync 4 0x60 m) else none

/-- The lowest free physical slot of a bindable level (R224). -/
def State.freeBar (s : State) (w : WarpId) (level : Nat) : Option Nat :=
  (List.range (if level = 1 then 16 else 64)).find? (fun n => (lookup? n (s.bound w level)).isNone)

/-- A slot initialised (R225). -/
def BarSlot.init (b : BarSlot) (mask : BitVec 64) : BarSlot :=
  { b with mask := mask, arrv := 0, count := 0, pend := 0, brk := false, part := [], last := [], landed := false }

/-- BAR INIT on the slot that a name is bound to, or that it is bound to now (R224, R225, R228). -/
def barInitEffect (level name : Nat) (m : BitVec 64) (l0 : LaneCtx) (act : List LaneCtx) (s : State) : State :=
  let w := l0.tid.warp
  match s.boundTo w level name with
  | some n =>
    match s.slot? w level n with
    | none => s
    | some b =>
      if b.arrv ≠ 0 ∨ b.pend ≠ 0 then trapEvery (barTrap 1 level n) act (s.breakSlot w level n)
      else markNew act (s.setSlot w level n (b.init m))
  | none =>
    match s.freeBar w level with
    | none => trapEvery (barTrap 8 level 0) act s
    | some n =>
      let b := { BarSlot.reset with holder := holderOf l0.warp l0.bundle level, name := name, gen := s.freeGen w level n }
      markNew act (s.setSlot w level n (b.init m))

/-- BAR INIT (R417). -/
def execBarInit (g : BitVec 4) (s_ a : BitVec 7) (l : BitVec 3) (s : State) : Host.Outcome State Fault Refusal :=
  .next (runOnce (.barInit g s_ a l) (fun c => (c.pairOf (fld a) 0 4).map (fun _ => ()))
    (fun l0 act =>
      match l0.pairOf (fld a) 0 4 with
      | .error t => .error t
      | .ok m =>
        if barLevel l = 2 ∧ !s.inSpread l0.bundle then .error (barTrap 4 2 0)
        else
          match s.initMask l0 (barLevel l) m with
          | some t => .error t
          | none => .ok (barInitEffect (barLevel l) (fld s_) m l0 act)) s)

/-- The releases that an arrive of the active lanes makes (R207). -/
def arriveReleases (i : Instr) (level : Nat) (s : State) : List (ThreadId × Nat) :=
  (activeLanes i s).map (fun c => (c.tid, levelScope level))

/-- A byte count: a 32-bit integer or B32 register, or an N64, S64 or B32 pair by its tag (R410, R417). -/
def LaneCtx.byteCount (c : LaneCtx) (f n : Nat) : Except Trap Nat :=
  if f = 120 then .ok 0
  else
    match c.reg f n with
    | .error t => .error t
    | .ok r =>
      if r.tag = tagS64 ∨ r.tag = tagN64 then (c.pairOf f n 4).map BitVec.toNat
      else (c.word f n).map BitVec.toNat

/-- The arrives of an instruction's active lanes, each with the byte count it gives; a lane whose operand faults does not arrive. -/
def arriveAll (i : Instr) (level name : Nat) (bytes : LaneCtx → Except Trap Nat) (s : State) : State :=
  let ls := if (encodingFault i).isSome || decide (((guardOf i).getD 12).toNat > 12) then []
    else (activeLanes i s).filterMap (fun c => match bytes c with | .ok b => some (c.tid, b) | .error _ => none)
  let r := s.arriveLanes level name ls
  runLanes i (fun c =>
    match bytes c with
    | .error t => .error t
    | .ok _ =>
      match r.2 with
      | some t => .error t
      | none => .ok id) r.1

/-- BAR ARV (R226, R417). -/
def execBarArv (g : BitVec 4) (s_ : BitVec 7) (l : BitVec 3) (s : State) : Host.Outcome State Fault Refusal :=
  let i := Instr.barArv g s_ l
  .next (s.gated (arriveReleases i (barLevel l) s) (arriveAll i (barLevel l) (fld s_) (fun _ => .ok 0)))

/-- BAR ARVB (R226, R417). -/
def execBarArvb (g : BitVec 4) (h : BitVec 1) (s_ a : BitVec 7) (l : BitVec 3) (s : State) : Host.Outcome State Fault Refusal :=
  let i := Instr.barArvb g h s_ a l
  .next (s.gated (arriveReleases i (barLevel l) s) (arriveAll i (barLevel l) (fld s_) (fun c => c.byteCount (fld a) 0)))

/-- The generation a thread waits for: the one it began to wait for; the open one where its own arrive stands in it, though its unit
is not whole yet (log 63); else the one its unit last arrived for, or the open one (R227). -/
def State.waitGen (s : State) (c : LaneCtx) (level n : Nat) (b : BarSlot) : BitVec 16 :=
  let u := s.unitOf c.tid.warp level
  let g := if b.part.contains (u, c.warp.wp, c.lane) then b.gen else lookupD u b.gen b.last
  match c.th.wait with
  | some (.barrier l k x) => if l = level ∧ k = n then BitVec.ofNat 16 x else g
  | _ => g

/-- The class 07 trap of a generation whose check failed: taken after the wait, at the run that follows it, NR 1 (R245, R255). -/
def failedTrap (c : LaneCtx) (f : Nat × Nat) : Trap :=
  ⟨7, f.1, BitVec.ofNat 64 f.2, 2, some c.group.afterAddr⟩

/-- A wait that returns: its acquire, then the trap of a failed check (R207, R245). -/
def endWait (c : LaneCtx) (scope : Nat) (fail : Option (Nat × Nat)) (s : State) : State :=
  let s := s.acquire c.tid scope
  match fail with
  | some f => takeTrap (failedTrap c f) c.tid s
  | none => s

/-- BAR WAIT in a lane (R227, R228, R245). -/
def State.waitLane (s : State) (level name : Nat) (c : LaneCtx) : BlockOut :=
  match c.th.wait with
  | some (.broken l n) => .trap (barTrap 7 l n)
  | some (.released _ _ scope fail) => .pass (endWait c scope fail)
  | _ =>
    match s.barFind c.tid.warp level name with
    | .error t => .trap t
    | .ok n =>
      match s.slot? c.tid.warp level n with
      | none => .trap (barTrap 4 level n)
      | some b =>
        let g := s.waitGen c level n b
        if b.brk then .trap (barTrap 7 level n)
        else if meetReached b.gen (g + 1) then .pass (endWait c (b.waitScope level g) (b.failOf g))
        else .block (.barrier level n g.toNat)

/-- BAR WAIT (R417). -/
def execBarWait (g : BitVec 4) (h : BitVec 1) (s_ : BitVec 7) (l : BitVec 3) (s : State) : Host.Outcome State Fault Refusal :=
  .next (runBlocking (.barWait g h s_ l) (s.waitLane (barLevel l) (fld s_)) s)

/-- BAR REL (R417). -/
def execBarRel (g : BitVec 4) (s_ : BitVec 7) (l : BitVec 3) (s : State) : Host.Outcome State Fault Refusal :=
  .next (runOnce (.barRel g s_ l) (fun _ => .ok ())
    (fun l0 act =>
      let w := l0.tid.warp
      match s.boundTo w (barLevel l) (fld s_) with
      | none => .error (Trap.sync 4 0x64 (BitVec.ofNat 64 (fld s_)))
      | some n => .ok (fun s =>
          match s.slot? w (barLevel l) n with
          | none => s
          | some b =>
            if b.arrv ≠ 0 ∨ b.pend ≠ 0 then trapEvery (barTrap 1 (barLevel l) n) act (s.breakSlot w (barLevel l) n)
            else markNew act (s.freeSlotAt w (barLevel l) n))) s)

/-! ## Registers of die and device slots (R229) -/

/-- A place that names a die for slots of level 3; level 4 needs none. -/
def diePlace (d : Nat) : WarpId := ⟨d, 0, 0, 0⟩
/-- The level of a dispatcher's slots: 20 is the global one. -/
def dbLevel (die : Nat) : Nat := if die = 20 then 4 else 3

/-- BUSY of DBS: arrivals or pending bytes in the open generation. -/
def BarSlot.busy (b : BarSlot) : Bool := decide (b.count ≠ 0) || b.arrv != 0 || decide (b.pend ≠ 0)

/-- The registers of a slot replaced. -/
def State.setDbReg (s : State) (die n : Nat) (r : DbReg) : State :=
  if die = 20 then { s with devRegs := put n r s.devRegs } else s.onDie die (fun d => { d with dbregs := put n r d.dbregs })

/-- The number of slots of a die or of the device. -/
def dbSlots (die : Nat) : Nat := if die = 20 then 16 else 32

/-- A slot of a die or of the device initialised. -/
def State.initDb (s : State) (die n : Nat) : State :=
  let w := diePlace die
  match s.slot? w (dbLevel die) n with
  | none => s
  | some b => s.setSlot w (dbLevel die) n (b.init 0)

/-- DBC written: ignored while busy; EN written 1 performs the init (R229). -/
def execDbcEnWrite (die n : Nat) (v : BitVec 32) (s : State) : Host.Outcome State Fault Refusal :=
  if dbSlots die ≤ n then .next s
  else
    match s.slot? (diePlace die) (dbLevel die) n with
    | none => .next s
    | some b =>
      if b.busy then .next s
      else
        let r := s.dbReg (diePlace die) (dbLevel die) n
        let mask : BitVec 8 := if die = 20 then v.extractLsb' 1 8 else BitVec.setWidth 8 (v.extractLsb' 1 4)
        let s := s.setDbReg die n { r with en := v.getLsbD 0, cmask := mask }
        .next (if v.getLsbD 0 then s.initDb die n else s)

/-- DBS.BRK cleared: performs the init (R229). -/
def execDbsBrkClear (die n : Nat) (s : State) : Host.Outcome State Fault Refusal :=
  if dbSlots die ≤ n then .next s
  else
    match s.slot? (diePlace die) (dbLevel die) n with
    | none => .next s
    | some b => .next (if b.brk then s.initDb die n else s)

/-! ## WMON (R423, R460) -/

/-- The monitor that a spread has bound to a name. -/
def State.monitorOf (s : State) (w : WarpId) (name : Nat) : Option (Nat × Monitor) :=
  (s.cluster w.die w.coreId.cluster).monitors.find? (fun p => decide (p.2.spread = (s.bundle w).spread) && decide (p.2.name = name))

/-- A monitor as its block describes it, with the physical slot it is bound to. -/
def monitorOfBlock (b : Bundle) (name : Nat) (blk : BitVec 512) (slot : Nat) : Monitor :=
  { spread := b.spread, name := name, block := blk, asid := b.asid, level := bitsAt blk.toNat (8 * 27) 8, slot := slot, acc := 0,
    ov := false, nf := false, pf := false, early := [], total := 0 }

/-- Whether a field of a block is out of range (R242). -/
def Monitor.bad (m : Monitor) : Bool :=
  let fmt := m.num 24 1
  let stride := m.num 16 4
  let foff := m.num 20 4
  decide (3 < fmt) || decide (2 ^ 56 ≤ m.num 0 8) || decide (m.num 8 8 = 0) || decide (2 ^ 48 < m.num 8 8) || decide (stride = 0) ||
  decide (2 ^ 31 < stride) || decide (stride < foff + m.fieldBytes) || decide (foff % m.fieldBytes ≠ 0) || decide (112 < m.num 25 1) ||
  decide (1 < m.num 26 1) || decide (m.num 27 1 < 2) || decide (4 < m.num 27 1) || decide (m.num 30 2 ≠ 0)

/-- The physical slot that a block names, where the caller holds it (R242). -/
def State.monitorSlot (s : State) (w : WarpId) (m : Monitor) : Option Nat :=
  let n := m.num 28 2
  if m.level = 3 ∧ 32 ≤ n ∨ m.level = 4 ∧ 16 ≤ n then none
  else
    match s.barFind w m.level n with
    | .ok k => some k
    | .error _ => none

/-- WMON CFG: its code, and the state with the monitor bound (R242). -/
def State.configure (s : State) (w : WarpId) (name : Nat) (blk : BitVec 512) : Nat × State :=
  let m := monitorOfBlock (s.bundle w) name blk 0
  if m.bad then (2, s)
  else
    match s.monitorSlot w m with
    | none => (2, s)
    | some n =>
      if (s.monitorOf w name).isSome then (3, s)
      else
        let k := s.cluster w.die w.coreId.cluster
        match (List.range 4).find? (fun i => (lookup? i k.monitors).isNone) with
        | none => (1, s)
        | some i => (0, s.setCluster w.die w.coreId.cluster { k with monitors := put i { m with slot := n } k.monitors })

/-- A monitor freed. -/
def State.freeMonitor (s : State) (w : WarpId) (i : Nat) : State :=
  let k := s.cluster w.die w.coreId.cluster
  s.setCluster w.die w.coreId.cluster { k with monitors := drop i k.monitors }

/-- A 32-bit result under a destination in every active lane of a once-per-issue instruction (R410), of variable latency and
arriving at once. -/
def writeResult (d : Nat) (vals : List (BitVec 32 × BitVec 4)) (act : List LaneCtx) (s : State) : State :=
  act.foldl (fun s c =>
    let m := s.fresh
    let s := c.markPending d vals.length m { s with fresh := m + 1 }
    let regs := (c.physical d vals.length).zip (vals.map (fun v => (⟨v.1, v.2⟩ : Reg)))
    if regs.isEmpty then s else { s with returns := s.returns ++ [⟨c.tid, m, regs, none⟩] }) s

/-- The destination registers of every active lane checked (R295). -/
def destOk (d : Nat) (pair : Bool) (c : LaneCtx) : Except Trap Unit := (c.dest d pair).map (fun _ => ())

/-- Two checks of a lane, in the order of R320. -/
def bothOk {α β : Type} (a : Except Trap α) (b : Except Trap β) : Except Trap Unit :=
  match a, b with
  | .ok _, .ok _ => .ok ()
  | .error e, .ok _ => .error e
  | .ok _, .error e => .error e
  | .error e, .error f => .error (if checkRank f < checkRank e then f else e)

/-- The operand and destination of WMON in a lane. -/
def wmonCheck (d a : BitVec 7) (pair : Bool) (c : LaneCtx) : Except Trap Unit :=
  bothOk (c.word (fld a) 0) (destOk (fld d) pair c)

/-- WMON CFG: a non-zero A[5:2], or a block not wholly inside the allocation, is MON_BAD (R423). -/
def execWmonCfg (g : BitVec 4) (h : BitVec 1) (d a : BitVec 7) (s : State) : Host.Outcome State Fault Refusal :=
  .next (runOnce (.wmonCfg g h d a) (wmonCheck d a false)
    (fun l0 act =>
      match l0.word (fld a) 0 with
      | .error t => .error t
      | .ok v => .ok (fun s =>
          let w := l0.tid.warp
          let off := bitsAt v.toNat 6 26 * 64
          let r := if bitsAt v.toNat 2 4 ≠ 0 ∨ l0.bundle.scrBytes < off + 64 then (2, s)
            else s.configure w (v.toNat % 4) (BitVec.ofNat 512 (s.scrRead w.coreId l0.warp.bslot off 64))
          markNew act (writeResult (fld d) [(BitVec.ofNat 32 r.1, tagN32)] act r.2))) s)

/-- The name operand of the other WMON functions. -/
def wmonName (v : BitVec 32) : Except Trap Nat :=
  if v.toNat / 4 ≠ 0 then .error (Trap.sync 4 0x60 (BitVec.setWidth 64 v)) else .ok v.toNat

/-- WMON REL (R423). -/
def execWmonRel (g : BitVec 4) (h : BitVec 1) (d a : BitVec 7) (s : State) : Host.Outcome State Fault Refusal :=
  .next (runOnce (.wmonRel g h d a) (wmonCheck d a false)
    (fun l0 act =>
      match l0.word (fld a) 0 with
      | .error t => .error t
      | .ok v =>
        match wmonName v with
        | .error t => .error t
        | .ok name => .ok (fun s =>
            let w := l0.tid.warp
            let r := match s.monitorOf w name with
              | some m => (0, s.freeMonitor w m.1)
              | none => (1, s)
            markNew act (writeResult (fld d) [(BitVec.ofNat 32 r.1, tagN32)] act r.2))) s)

/-- A half of TOTAL as an S64 pair (R244). -/
def totalHalf (t : Int) (hi : Bool) : List (BitVec 32 × BitVec 4) :=
  let x := (t % 2 ^ 128).toNat / (if hi then 2 ^ 64 else 1)
  [(BitVec.ofNat 32 x, tagS64), (BitVec.ofNat 32 (x / 2 ^ 32), tagS64)]

/-- WMON RDLO and RDHI (R244, R423). -/
def runWmonRead (i : Instr) (hi : Bool) (d a : BitVec 7) (s : State) : Host.Outcome State Fault Refusal :=
  .next (runOnce i (wmonCheck d a true)
    (fun l0 act =>
      match l0.word (fld a) 0 with
      | .error t => .error t
      | .ok v =>
        match wmonName v with
        | .error t => .error t
        | .ok name =>
          match s.monitorOf l0.tid.warp name with
          | none => .error (Trap.sync 4 0x64 (BitVec.setWidth 64 v))
          | some m => .ok (writeResult (fld d) (totalHalf m.2.total hi) act)) s)

/-- WMON RDLO. -/
def execWmonRdlo (g : BitVec 4) (h : BitVec 1) (d a : BitVec 7) (s : State) : Host.Outcome State Fault Refusal :=
  runWmonRead (.wmonRdlo g h d a) false d a s

/-- WMON RDHI. -/
def execWmonRdhi (g : BitVec 4) (h : BitVec 1) (d a : BitVec 7) (s : State) : Host.Outcome State Fault Refusal :=
  runWmonRead (.wmonRdhi g h d a) true d a s

end Sys2Proof.Machine
end

