-- ==== Sys2Proof/Machine/Ports.lean ====
section
/-! DEFINITION. What besides its stall counts lets a group's next instruction issue: register banks and the operand latch
(R158 to R160), the port's order (R150, R156), the rate of F64 (R353) and the special-function lanes (R360). -/

namespace Sys2Proof.Machine

/-- The words of registers that a lane reads for each operand: warp slot and physical register, for v registers that the operand latch does
not serve (R158 to R160). -/
def LaneCtx.wordsRead (c : LaneCtx) (i : Instr) : List (List (Nat × Nat)) :=
  (c.operandReads i).map (fun r =>
    if r.1 < 112 ∧ !(c.group.latch.any (fun e => decide (e.1 = r.1) && decide (e.2.1 = r.2))) then
      (List.range r.2).map (fun k => (c.tid.warp.slot, c.th.wb + r.1 + k))
    else [])

/-- The words that a lane pair reads, operand by operand: one word of one register serves both lanes, other registers are reads of their
own (R158, R159). -/
def pairReads (i : Instr) (cs : List LaneCtx) (j : Nat) : List (Nat × Nat) :=
  let ws := (cs.filter (fun c => decide (c.lane / 2 = j))).map (fun c => c.wordsRead i)
  let n := ws.foldl (fun m w => Nat.max m w.length) 0
  (List.range n).flatMap (fun k => (ws.flatMap (fun w => nth [] w k)).eraseDups)

/-- The bank of a word (R158). -/
def bankOf (w : Nat × Nat) : Nat := (w.2 + w.1) % 4

/-- The lane pairs and banks that an instruction reads. -/
def bankUses (i : Instr) (cs : List LaneCtx) : List (Nat × Nat) :=
  (List.range 16).flatMap (fun j => ((pairReads i cs j).map bankOf).eraseDups.map (fun b => (j, b)))

/-- The extra operand cycles of an instruction: over the lane pairs, one less than the most reads of one bank (R159). -/
def operandExtra (i : Instr) (cs : List LaneCtx) : Nat :=
  (List.range 16).foldl (fun m j =>
    let bs := (pairReads i cs j).map bankOf
    Nat.max m ((List.range 4).foldl (fun n b => Nat.max n (bs.countP (fun x => decide (x = b)))) 0 - 1)) 0

/-- The instructions that R353 counts on F64, those of SFU apart. -/
def isF64Op : Instr → Bool
  | .add _ _ _ _ _ _ | .sub _ _ _ _ _ _ | .mul _ _ _ _ _ _ | .fma _ _ _ _ _ _ | .fms _ _ _ _ _ _ => true
  | .min _ _ _ _ _ | .max _ _ _ _ _ | .addi _ _ _ _ _ _ | .cmp _ _ _ _ _ _ | .cmpi _ _ _ _ _ _ => true
  | _ => false

/-- The functions of SFU, by code. -/
def sfuCode : Instr → Option Nat
  | .rcp _ _ _ _ => some 0
  | .rsq _ _ _ _ => some 1
  | .sqrt _ _ _ _ => some 2
  | .ex2 _ _ _ _ => some 3
  | .lg2 _ _ _ _ => some 4
  | .sin _ _ _ _ => some 5
  | .cos _ _ _ _ => some 6
  | .tanh _ _ _ _ => some 7
  | .sigm _ _ _ _ => some 8
  | _ => none

/-- The cycles that an SFU instruction occupies the lanes of its partition (R360). -/
def sfuOccupancy (fn : Nat) (t : BitVec 4) : Nat :=
  if t = tagF32 then 4 else if t = tagF64 then (if fn ≤ 2 then 16 else 32) else 8

/-- Whether an instruction meets F64 in a lane (R353). -/
def meetsF64 (i : Instr) (cs : List LaneCtx) : Bool :=
  (isF64Op i || (sfuCode i).isSome) && cs.any (fun c => (sourceReads i).any (fun r => decide (r.1 < 112) && c.tagSeen r.1 == tagF64))

/-- When a unit of a partition takes its next instruction. -/
def State.busyUntil (s : State) (k : GroupKey) (unit : Nat) : Nat := lookupD (k.part, unit) 0 (s.core k.coreId).busy

/-- Whether the units that an instruction needs can take it in this cycle (R159, R353, R360). -/
def State.unitsFree (s : State) (k : GroupKey) (g : Group) (i : Instr) (cs : List LaneCtx) : Bool :=
  (!meetsF64 i cs || decide (s.busyUntil k 2 ≤ s.time)) &&
  ((sfuCode i).isNone || decide (s.busyUntil k 3 ≤ s.time)) &&
  decide (g.dueAt + operandExtra i cs ≤ s.time) &&
  (k.port == 0 || (match lookup? k.part (s.core k.coreId).mainReads with
    | none => true
    | some (t, us) => decide (t ≠ s.time) || !((bankUses i cs).any (fun u => us.contains u))))

/-- The units of a partition as an instruction issues. -/
def State.useUnits (s : State) (k : GroupKey) (i : Instr) (cs : List LaneCtx) : State :=
  s.onCore k.coreId (fun c =>
    let b := put (k.part, k.port) (s.time + 1) c.busy
    let b := if meetsF64 i cs then put (k.part, 2) (s.time + 2) b else b
    let b := match sfuCode i, cs with
      | some fn, x :: _ =>
        put (k.part, 3) (s.time + sfuOccupancy fn (match sourceReads i with | r :: _ => x.tagSeen r.1 | [] => 0)) b
      | _, _ => b
    { c with busy := b, mainReads := if k.port = 0 then put k.part (s.time, bankUses i cs) c.mainReads else c.mainReads })

/-- Whether a group formed earlier on the port can issue in this cycle (R156). One that was tried and could not is passed over. -/
def State.olderWaits (s : State) (k : GroupKey) (g : Group) : Bool :=
  s.groups.any (fun p => decide (p.1.die = k.die) && decide (p.1.core = k.core) && decide (p.1.part = k.part) &&
    decide (p.1.port = k.port) && decide (p.1 ≠ k) &&
    (decide (p.2.formedAt < g.formedAt) || (decide (p.2.formedAt = g.formedAt) && decide (p.1.buf < k.buf))) &&
    p.2.fetched && decide (p.2.next < p.2.words.length) && !p.2.held && decide (p.2.dueAt ≤ s.time))

/-- Whether the gap that the last instruction's stall count sets has passed, the port is free, and the fixed-latency writes of
the members' previous runs have taken effect (R303, R305). -/
def State.issueDue (s : State) (k : GroupKey) (g : Group) : Bool :=
  decide (g.dueAt ≤ s.time) && decide (s.busyUntil k k.port ≤ s.time) && !s.olderWaits k g &&
  (g.next != 0 || (membersOf k g).all (fun m => decide ((s.thread m.2).settled ≤ s.time)))

end Sys2Proof.Machine
end

