-- ==== Sys2Proof/Machine/MemoryOps.lean ====
section
/-! DEFINITION. LD, ST, ATOM, CAS and FENCE (R364 to R385), and the arrival of what they wait for (R305, R375, R184). -/

namespace Sys2Proof.Machine

/-! ## Operands (R365, R372) -/

/-- The address of a memory instruction in a lane (R365). -/
def LaneCtx.address (c : LaneCtx) (a : BitVec 7) (off : BitVec 64) : Except Trap (BitVec 64) :=
  (c.pairOf (fld a) 0 2).map (fun v => v + off)

/-- A destination group of n registers within the warp's range (R295). -/
def LaneCtx.destGroup (c : LaneCtx) (d n : Nat) : Except Trap Unit :=
  if d < 112 then
    match c.wb with
    | .error t => .error t
    | .ok wb =>
      match (List.range n).find? (fun i => decide (c.limit ≤ wb + d + i)) with
      | some i => .error (Trap.sync 4 1 (boundsAddr (d + i) (wb + d + i)))
      | none => .ok ()
  else .ok ()

/-- The place of a fault among the checks of a memory instruction: class 02 and register names come before step 1 (R372). -/
def memRank (t : Trap) : Nat := if t.cls = 2 then 0 else if t.cls = 4 ∧ t.sub = 1 then 1 else 2

/-- Two results of one lane, the first checked first within a rank. -/
def memBoth {α β : Type} (a : Except Trap α) (b : Except Trap β) : Except Trap (α × β) :=
  match a, b with
  | .ok x, .ok y => .ok (x, y)
  | .error e, .ok _ => .error e
  | .ok _, .error e => .error e
  | .error e, .error f => .error (if memRank f < memRank e then f else e)

/-- Bytes of a size code (R315). -/
def szBytes (sz : Nat) : Nat := if sz ≤ 1 then 1 else if sz ≤ 3 then 2 else if sz = 4 then 4 else if sz = 5 then 8 else 16

/-- The class 05 subcode of LD and ST (R366). -/
def alLdSt : Nat := 1
/-- The class 05 subcode of ATOM and CAS (R366). -/
def alAtom : Nat := 2

/-- The scope of an access once narrowed for a scratchpad (R202). -/
def narrowScope (p : At) (sc : Nat) : Nat :=
  match p with
  | .scr _ _ _ => Nat.min sc 3
  | _ => sc

/-! ## Lanes that must wait before the instruction issues -/

/-- What an active lane of a memory instruction asks for: its address, width, kind and alignment code. -/
structure Want where
  c : LaneCtx
  va : BitVec 64
  n : Nat
  kind : Nat
  al : Nat

/-- Where a want lies. -/
def State.find (s : State) (w : Want) : Located := s.locate w.c.tid.warp w.va w.n w.kind w.al

/-- Whether a located want lies in another module. -/
def State.isRemote (s : State) (l : Located) : Bool :=
  match l with
  | .here (.mem pa _) => decide (pa / 2 ^ 44 ≠ s.nmod)
  | _ => false

/-- A memory instruction's walks, holds and releases seen to before it issues; then it goes on (R192, R213, R412). -/
def State.beforeAccess (s : State) (ws : List Want) (rs : List (ThreadId × Nat)) (f : State → State) : State :=
  if ws.any (fun w => s.acquiring w.c.tid) then holdIssue s
  else
    let at' := ws.map (fun w => (w, s.find w))
    let walks := at'.filter (fun p => decide (p.2 = .walk))
    if !walks.isEmpty then
      holdIssue (walks.foldl (fun s p => s.addWalk p.1.c.bundle.asid ⟨p.1.c.tid.warp.coreId, .thread p.1.c.tid, p.1.va, p.1.kind⟩) s)
    else if at'.any (fun p => decide (p.2 = .hold) || (s.isRemote p.2 && decide (255 ≤ p.1.c.warp.rmt))) then holdIssue s
    else s.gated rs f

/-! ## Values that come back -/

/-- A value that comes back at once: it is written when the pending write is carried out. -/
def State.giveBack (s : State) (a : Access) (x : ThreadId) (raw : Nat) : State :=
  if a.dest.isEmpty then s else { s with returns := s.returns ++ [⟨x, a.mark, a.regs raw, none⟩] }

/-- An operation to another module counted once for its warp (R78, R215). -/
def State.countRemote (s : State) (w : WarpId) (op : Nat) : State :=
  if (s.warp w).ops.any (fun o => decide (o.id = op) && decide (o.cls = 3)) then s else s.onWarp w (fun v => v.issueOp 3 op)

/-- The mask of n bytes of a 128-byte block. -/
def blockMask (pa n : Nat) : BitVec 128 := BitVec.ofNat 128 (onesMask (pa % 128) n)

/-- A request to another module for one access of a lane. -/
def remotePacket (nopc : BitVec 8) (pa n : Nat) (aop : BitVec 8) (opa opb : Nat) (data : List (BitVec 512)) : NPacket :=
  { NPacket.blank with
    nopc := nopc, ndlen := data.length, dmod := BitVec.ofNat 8 (pa / 2 ^ 44), pa := BitVec.ofNat 52 pa, aop := aop
    bmask := if nopc.toNat ≤ 2 ∨ nopc = 5 then blockMask pa n else 0, opa := BitVec.ofNat 64 opa, opb := BitVec.ofNat 64 opb
    data := data }

/-- The two flits of a block with n bytes at an address in place. -/
def blockFlits (old : List (BitVec 512)) (pa n x : Nat) : List (BitVec 512) :=
  let o := (nth 0 old 0).toNat + 2 ^ 512 * (nth 0 old 1).toNat
  let v := mergeBytes 128 (onesMask (pa % 128) n) (x * 256 ^ (pa % 128)) o
  [BitVec.ofNat 512 v, BitVec.ofNat 512 (v / 2 ^ 512)]

/-- Whether a held packet takes one more lane of its instruction: a read or write of the same block (R78). -/
def Held.joins (h : Held) (w : WarpId) (op : Nat) (n : NPacket) : Bool :=
  h.warp == some w && decide (h.opId = op) && h.pkt.nopc == n.nopc && (n.nopc == 1 || n.nopc == 2) && h.pkt.dmod == n.dmod &&
  decide (h.pkt.pa.toNat / 128 = n.pa.toNat / 128)

/-- An access of a lane to another module put in the unit: joined to its instruction's packet for the block, or a packet of its
own (R78). -/
def State.holdRemote (s : State) (x : ThreadId) (op : Nat) (n : NPacket) (a : Access) : State :=
  let s := s.countRemote x.warp op
  let sock := x.warp.die
  let r := s.rau sock
  if r.held.any (fun h => h.joins x.warp op n) then
    s.onRau sock (fun r => { r with held := r.held.map (fun h =>
      if h.joins x.warp op n then
        { h with
          accs := h.accs ++ [a]
          pkt := { h.pkt with
            bmask := h.pkt.bmask ||| n.bmask
            data := if n.nopc = 2 then blockFlits h.pkt.data n.pa.toNat a.size a.wdata.toNat else [] } }
      else h) })
  else
    s.holdPacket sock ⟨n, [a], some x.warp, op, (s.bundle x.warp).grid, none, false⟩

/-- An access of a lane as a record, with nothing supplied. -/
def laneAccess (x : ThreadId) (id : Nat) (kind : AccKind) (va : BitVec 64) (pa n : Nat) (cls : BitVec 2) : Access :=
  { id := id, who := .lane x, site := x.warp.die, kind := kind, va := va, pa := pa, size := n, wdata := 0, wmask := 0, comp := 0
    dest := [], signed := false, cls := cls, rep := false, mark := 0, acq := 0 }

/-! ## LD (R367, R368) -/

/-- The tags a load writes: one for each register (R367). -/
def ldTags (p : BitVec 26) (sz : Nat) : List (BitVec 4) :=
  let t := if sz = 1 ∨ sz = 3 then tagS32 else if sz < 4 then tagN32 else if memForm p = 2 then memTag p else tagB32
  List.replicate (sizeRegs sz) t

/-- A read of the issuing module's memory: the first-level cache's bytes where it has them all and no earlier access of the core to the sector is
under way, so that an instruction's lanes read alike, else the die cache, with the dirty bytes that the first-level cache supplies. An acquire takes no clean byte
(R203, R205, R210, R213). -/
def readLocal (x : ThreadId) (a : Access) (s : State) : State :=
  let c := x.warp.coreId
  let p := s.l1Peek c a.pa a.size (decide (a.acq ≠ 0))
  if p.1 = 2 ^ a.size - 1 ∧ !s.accessingAt c a.op (sectorOf a.pa) then
    ((s.l1Make c (a.pa / 128) a.cls true).acquire x a.acq).giveBack a x p.2
  else
    let q := s.l1Peek c a.pa a.size true
    s.queueAccesses [{ a with wmask := BitVec.ofNat 64 q.1, wdata := BitVec.ofNat 512 q.2 }]

/-- A read of one lane carried out at the place its address names (R376). -/
def readAt (x : ThreadId) (op : Nat) (p : At) (a : Access) (hint : Option (BitVec 2)) (s : State) : State :=
  match p with
  | .scr c b off => (s.acquire x a.acq).giveBack a x (s.scrRead c b off a.size)
  | .weights off =>
    let v := s.weightRead x.warp.die off a.size
    if s.refreshing (weightBank off) then
      s.onDie x.warp.die (fun d => { d with refreshWaits := d.refreshWaits ++ [(weightBank off, a.acq, ⟨x, a.mark, a.regs v, none⟩)] })
    else (s.acquire x a.acq).giveBack a x v
  | .mem pa leaf =>
    if pa / 2 ^ 44 = s.nmod then
      readLocal x { a with pa := pa % 2 ^ 44, cls := hint.getD (pteRcl leaf), rep := pteRepl leaf } s
    else s.holdRemote x op (remotePacket 1 pa a.size 0 0 0 []) { a with pa := pa }

/-- LD in a lane. -/
def laneLd (p : BitVec 26) (sz : Nat) (o : BitVec 2) (sc : BitVec 3) (d a : BitVec 7) (s0 : State) (c : LaneCtx) : LaneOut :=
  match memBoth (c.address a (memOff p)) (c.destGroup (fld d) (sizeRegs sz)) with
  | .error t => .error t
  | .ok (va, _) =>
    match s0.find ⟨c, va, szBytes sz, 0, alLdSt⟩ with
    | .trap t => .error t
    | .denied sub parks => .ok (fun s => s.translationFault c.tid c.bundle.asid va sub 0 parks)
    | .walk => .ok id
    | .hold => .ok id
    | .here at' => .ok (fun s =>
        let m := s.fresh
        let s := c.markPending (fld d) (sizeRegs sz) m { s with fresh := m + 1 }
        let acc := { laneAccess c.tid m .read va 0 (szBytes sz) 2 with
          dest := (c.physical (fld d) (sizeRegs sz)).zip (ldTags p sz), signed := sz == 1 || sz == 3, mark := m, op := s0.fresh + 1
          acq := if o = 1 then narrowScope at' sc.toNat else 0 }
        readAt c.tid s0.fresh at' acc (memHint p) s)

/-- The wants of the active lanes of a memory instruction whose operands pass. -/
def wants (i : Instr) (f : LaneCtx → Except Trap Want) (s : State) : List Want :=
  if (encodingFault i).isSome then []
  else (activeLanes i s).filterMap (fun c => match f c with | .ok w => some w | .error _ => none)

/-- The number that names an instruction's operation, taken before its lanes act. -/
def State.openOp (s : State) : State := { s with fresh := s.fresh + 1 }

/-- LD (R367). -/
def execLd (pfx : Option (BitVec 26)) (g : BitVec 4) (s1 : BitVec 1) (d a : BitVec 7) (s2 : BitVec 2) (o : BitVec 2) (c : BitVec 3)
    (s : State) : Host.Outcome State Fault Refusal :=
  let i := Instr.ld pfx g s1 d a s2 o c
  let p := payload pfx
  let sz := szOf s1 s2
  let ws := wants i (fun x => (memBoth (x.address a (memOff p)) (x.destGroup (fld d) (sizeRegs sz))).map
    (fun v => ⟨x, v.1, szBytes sz, 0, alLdSt⟩)) s
  .next (s.beforeAccess ws [] (fun s => runLanes i (laneLd p sz o c d a s) s.openOp))

/-! ## ST (R369, R370) -/

/-- Whether a register field holds raw bits for a store: a v register or temporary, its tag not 15, and a register of a 64-bit
tag whole (R369, R274). -/
def LaneCtx.rawReg (c : LaneCtx) (f i n : Nat) (narrow : Bool) : Except Trap (BitVec 32) :=
  match c.reg (f + i) n with
  | .error t => .error t
  | .ok r =>
    if r.tag = 15 then .error (tagTrap 1 (f + i))
    else if isPairTag r.tag then
      if narrow then .error (tagTrap 4 (f + i))
      else
        match c.reg (if (f + i) % 2 = 1 then f + i - 1 else f + i + 1) (n + 8) with
        | .error t => .error t
        | .ok q => if q.tag = r.tag then .ok r.data else .error (tagTrap 3 (f + i))
    else .ok r.data

/-- Words as one number, the first lowest. -/
def joinWords : List (BitVec 32) → Nat
  | [] => 0
  | w :: t => w.toNat + 2 ^ 32 * joinWords t

/-- The data of a store (R369). -/
def LaneCtx.storeData (c : LaneCtx) (d sz : Nat) : Except Trap Nat :=
  let n := sizeRegs sz
  if d < 120 then
    if d % n ≠ 0 then .error (tagTrap 3 d)
    else (allOk ((List.range n).map (fun i => c.rawReg d i (2 + i) (decide (sz ≤ 4))))).map joinWords
  else if d = 120 then .ok 0
  else if d = 124 then (if sz = 5 then .ok c.bundle.frame.toNat else .error (tagTrap 4 d))
  else if 4 < sz then .error (tagTrap 4 d)
  else (c.reg d 2).map (fun r => r.data.toNat)

/-- A write performed at the die cache, the first-level copy of its sector gone first (R213). -/
def writeThrough (x : ThreadId) (a : Access) (s : State) : State :=
  (s.l1Purge x.warp.coreId (sectorOf a.pa)).queueAccesses [{ a with wmask := BitVec.ofNat 64 (onesMask 0 a.size) }]

/-- A store of one lane carried out at the place its address names: `sync` where it is a release at CLU scope or wider, or a
flag (R87, R213, R370, R376). -/
def writeAt (x : ThreadId) (op : Nat) (p : At) (flag sync : Bool) (a : Access) (hint : Option (BitVec 2)) (s : State) : State :=
  match p with
  | .scr c b off => s.scrWrite c b off a.size a.wdata.toNat
  | .weights _ => s
  | .mem pa leaf =>
    let s := s.watch x.warp a.va.toNat a.size a.wdata.toNat
    let cls := hint.getD (pteRcl leaf)
    if pa / 2 ^ 44 = s.nmod then
      if sync then writeThrough x { a with pa := pa % 2 ^ 44, cls := cls } s
      else s.l1Store x.warp.coreId x (pa % 2 ^ 44) a.size a.wdata.toNat cls
    else
      let f := blockFlits [] pa a.size a.wdata.toNat
      if flag then s.holdRemote x op (remotePacket 5 pa a.size 0 0 0 [nth 0 f (pa / 64 % 2)]) { a with pa := pa }
      else s.holdRemote x op (remotePacket 2 pa a.size 0 0 0 f) { a with pa := pa }

/-- ST in a lane. -/
def laneSt (p : BitVec 26) (sz : Nat) (o : BitVec 2) (sc : BitVec 3) (d a : BitVec 7) (s0 : State) (c : LaneCtx) : LaneOut :=
  match memBoth (c.address a (memOff p)) (c.storeData (fld d) sz) with
  | .error t => .error t
  | .ok (va, x) =>
    match s0.find ⟨c, va, szBytes sz, 1, alLdSt⟩ with
    | .trap t => .error t
    | .denied sub parks => .ok (fun s => s.translationFault c.tid c.bundle.asid va sub 1 parks)
    | .walk => .ok id
    | .hold => .ok id
    | .here at' => .ok (fun s =>
        let n := szBytes sz
        let flag := memForm p == 1
        let acc := { laneAccess c.tid s.fresh .write va 0 n 2 with wdata := BitVec.ofNat 512 (x % 256 ^ n) }
        let s := { s with fresh := s.fresh + 1 }
        let s := if o = 2 ∨ flag then s.onThread c.tid (fun th => { th with newRegion := true }) else s
        writeAt c.tid s0.fresh at' flag (flag || (o == 2 && decide (3 ≤ sc.toNat))) acc (memHint p) s)

/-- The releases that a store makes: its own order in the lanes' scopes, and for a flag to the module's own memory or a window
everything its warp stored before (R87, R213, R370). -/
def stReleases (flag : Bool) (o : BitVec 2) (sc : BitVec 3) (ws : List Want) (s : State) : List (ThreadId × Nat) :=
  ws.flatMap (fun w =>
    match s.find w with
    | .here p =>
      let own := if o = 2 then [(w.c.tid, narrowScope p sc.toNat)] else []
      let local' := match p with | .mem pa _ => decide (pa / 2 ^ 44 = s.nmod) | _ => true
      own ++ (if flag && local' then w.c.tid.warp.threads.map (fun t => (t, narrowScope p 5)) else [])
    | _ => [])

/-- ST (R369, R370). -/
def execSt (pfx : Option (BitVec 26)) (g : BitVec 4) (s1 : BitVec 1) (d a : BitVec 7) (s2 : BitVec 2) (o : BitVec 2) (c : BitVec 3)
    (s : State) : Host.Outcome State Fault Refusal :=
  let i := Instr.st pfx g s1 d a s2 o c
  let p := payload pfx
  let sz := szOf s1 s2
  let ws := wants i (fun x => (memBoth (x.address a (memOff p)) (x.storeData (fld d) sz)).map
    (fun v => ⟨x, v.1, szBytes sz, 1, alLdSt⟩)) s
  .next (s.beforeAccess ws (stReleases (memForm p == 1) o c ws s) (fun s => runLanes i (laneSt p sz o c d a s) s.openOp))

/-! ## ATOM and CAS (R377 to R383) -/

/-- What an atomic brings: its operation and kind, width, operand, comparand, and the tags of the old value's registers. -/
structure AtomOp where
  opn : Nat
  kind : Nat
  size : Nat
  b : Nat
  comp : Nat
  tags : List (BitVec 4)
  deriving DecidableEq, Repr

/-- The kind of R382 of an operation tag: 2 float, 1 signed, 0 unsigned or raw. -/
def atomKind (t : BitVec 4) : Nat := if t = tagF32 ∨ t = tagF64 then 2 else if t = tagS32 ∨ t = tagS64 then 1 else 0

/-- Whether an ATOM operation accepts a tag of B (R379). -/
def atomAccepts (opn : Nat) (t : BitVec 4) : Bool :=
  if opn = 6 then t != 15
  else if opn = 1 ∨ opn = 2 ∨ opn = 3 then t == 0 || t == 1 || t == 2 || t == 5 || t == 6
  else t == 0 || t == 1 || t == 2 || t == 3 || t == 4 || t == 5 || t == 6

/-- n raw registers from a field, none of tag 15. -/
def LaneCtx.rawGroup (c : LaneCtx) (f n : Nat) : Except Trap Nat :=
  if f = 120 then .ok 0
  else
    (allOk ((List.range n).map (fun i =>
      match c.reg (f + i) (2 + i) with
      | .error t => .error t
      | .ok r => if r.tag = 15 then .error (tagTrap 1 (f + i)) else .ok r.data))).map joinWords

/-- The operands of ATOM (R379). -/
def LaneCtx.atomOperand (c : LaneCtx) (opn : Nat) (q : Bool) (b : Nat) : Except Trap AtomOp :=
  if q then
    if b % 4 ≠ 0 then .error (tagTrap 3 b)
    else (c.rawGroup b 4).map (fun x => ⟨opn, 0, 16, x, 0, List.replicate 4 tagB32⟩)
  else
    match c.src b 2 with
    | .error t => .error t
    | .ok v =>
      if !atomAccepts opn v.tag then .error (tagTrap 2 b)
      else
        let t := if v.tag = tagB32 ∧ (opn = 0 ∨ opn = 4 ∨ opn = 5) then tagN32 else v.tag
        let wide := isPairTag v.tag
        .ok ⟨opn, if opn = 6 then 0 else atomKind t, if wide then 8 else 4, v.bits.toNat % (if wide then 2 ^ 64 else 2 ^ 32), 0,
             if wide then [t, t] else [t]⟩

/-- The operands of CAS: the comparand and, after it, the new value (R381). -/
def LaneCtx.casOperand (c : LaneCtx) (q : Bool) (b : Nat) : Except Trap AtomOp :=
  if q then
    if b % 8 ≠ 0 then .error (tagTrap 3 b)
    else (c.rawGroup b 8).map (fun x => ⟨8, 0, 16, x / 2 ^ 128, x % 2 ^ 128, List.replicate 4 tagB32⟩)
  else
    match c.src b 2 with
    | .error t => .error t
    | .ok v =>
      let wide := isPairTag v.tag
      if b % (if wide then 4 else 2) ≠ 0 then .error (tagTrap 3 b)
      else
        match (if b = 120 then .ok ⟨0, v.tag⟩ else c.src (if wide then b + 2 else b + 1) 4) with
        | .error t => .error t
        | .ok (n : Val) =>
          if isPairTag n.tag != wide then .error (tagTrap 4 b)
          else
            let m := if wide then 2 ^ 64 else 2 ^ 32
            .ok ⟨8, 0, if wide then 8 else 4, n.bits.toNat % m, v.bits.toNat % m, if wide then [v.tag, v.tag] else [v.tag]⟩

/-- The destination group of an atomic: aligned to its width, and within the warp's range (R379, R381). -/
def LaneCtx.atomDest (c : LaneCtx) (d : Nat) (o : AtomOp) : Except Trap Unit :=
  if d ≠ 127 ∧ d % o.tags.length ≠ 0 then .error (c.code00 5) else c.destGroup d o.tags.length

/-- The address and operands of an atomic in a lane. -/
def LaneCtx.atomArgs (c : LaneCtx) (p : BitVec 26) (cas : Bool) (d a b : BitVec 7) : Except Trap (BitVec 64 × AtomOp) :=
  let op := if cas then c.casOperand (atomQ p) (fld b) else c.atomOperand (atomOpn p) (atomQ p) (fld b)
  (memBoth (memBoth (c.address a (atomOff p)) op) (match op with | .ok o => c.atomDest (fld d) o | .error _ => .ok ())).map Prod.fst

/-- The AOP field of an atomic (R382). -/
def aopOf (o : AtomOp) : BitVec 8 :=
  BitVec.ofNat 8 (o.opn + 16 * (if o.size = 4 then 0 else if o.size = 8 then 1 else 2) + 64 * o.kind)

/-- An atomic of one lane carried out at the place its address names (R380 to R382). -/
def atomAt (x : ThreadId) (op : Nat) (p : At) (o : AtomOp) (a : Access) (hint : Option (BitVec 2)) (s : State) : State :=
  match p with
  | .scr c b off =>
    let old := s.scrRead c b off o.size
    let s := s.scrWrite c b off o.size (atomNew o.opn o.kind o.size old o.b o.comp)
    (s.acquire x a.acq).giveBack a x old
  | .weights _ => s
  | .mem pa leaf =>
    if pa / 2 ^ 44 = s.nmod then
      let a := { a with pa := pa % 2 ^ 44, cls := hint.getD (pteRcl leaf) }
      (s.l1Purge x.warp.coreId (sectorOf a.pa)).queueAccesses [a]
    else
      let cas := o.opn == 8
      let wide := o.size == 16
      let n := remotePacket (if cas then 4 else 3) pa o.size (aopOf o) (if wide then 0 else o.b) (if wide then 0 else o.comp)
        (if wide then [BitVec.ofNat 512 (o.b + 2 ^ 128 * o.comp)] else [])
      s.holdRemote x op n { a with pa := pa }

/-- ATOM or CAS in a lane. -/
def laneAtom (p : BitVec 26) (cas : Bool) (d a b : BitVec 7) (s0 : State) (c : LaneCtx) : LaneOut :=
  match c.atomArgs p cas d a b with
  | .error t => .error t
  | .ok (va, o) =>
    match s0.find ⟨c, va, o.size, 3, alAtom⟩ with
    | .trap t => .error t
    | .denied sub parks => .ok (fun s => s.translationFault c.tid c.bundle.asid va sub 3 parks)
    | .walk => .ok id
    | .hold => .ok id
    | .here at' => .ok (fun s =>
        let m := s.fresh
        let s := c.markPending (fld d) o.tags.length m { s with fresh := m + 1 }
        let s := s.onThread c.tid (fun th => { th with newRegion := true })
        let acc := { laneAccess c.tid m (.atom o.opn o.kind) va 0 o.size 2 with
          wdata := BitVec.ofNat 512 o.b, wmask := BitVec.ofNat 64 (onesMask 0 o.size), comp := BitVec.ofNat 128 o.comp
          dest := (c.physical (fld d) o.tags.length).zip o.tags, mark := m
          acq := if (atomOrd p).getLsbD 0 then narrowScope at' (atomSc p).toNat else 0 }
        atomAt c.tid s0.fresh at' o acc (if atomRv p then some (atomRcl p) else none) s)

/-- The releases that an atomic makes. -/
def atomReleases (p : BitVec 26) (ws : List Want) (s : State) : List (ThreadId × Nat) :=
  if (atomOrd p).getLsbD 1 then
    ws.filterMap (fun w => match s.find w with | .here at' => some (w.c.tid, narrowScope at' (atomSc p).toNat) | _ => none)
  else []

/-- ATOM and CAS carried out. -/
def runAtom (i : Instr) (p : BitVec 26) (cas : Bool) (d a b : BitVec 7) (s : State) : Host.Outcome State Fault Refusal :=
  let ws := wants i (fun c => (c.atomArgs p cas d a b).map (fun v => ⟨c, v.1, v.2.size, 3, alAtom⟩)) s
  .next (s.beforeAccess ws (atomReleases p ws s) (fun s => runLanes i (laneAtom p cas d a b s) s.openOp))

/-- ATOM (R377 to R380). -/
def execAtom (pfx : BitVec 26) (g : BitVec 4) (h : BitVec 1) (d a b : BitVec 7) (s : State) : Host.Outcome State Fault Refusal :=
  runAtom (.atom pfx g h d a b) pfx false d a b s

/-- CAS (R377, R381, R383). -/
def execCas (pfx : BitVec 26) (g : BitVec 4) (h : BitVec 1) (d a b : BitVec 7) (s : State) : Host.Outcome State Fault Refusal :=
  runAtom (.cas pfx g h d a b) pfx true d a b s

/-! ## FENCE (R384) -/

/-- Whether every earlier read of a thread has returned. -/
def State.readsBack (s : State) (x : ThreadId) : Bool := !s.busy x && !(s.returns.any (fun r => decide (r.thread = x)))

/-- FENCE (R384, R88). -/
def execFence (g : BitVec 4) (h : BitVec 1) (o : BitVec 2) (c : BitVec 3) (s : State) : Host.Outcome State Fault Refusal :=
  let i := Instr.fence g h o c
  let act := if (encodingFault i).isSome then [] else activeLanes i s
  let acq := o.getLsbD 0
  if acq && act.any (fun x => !s.readsBack x.tid) then .next (holdIssue s)
  else
    let go (s : State) : State := runLanes i (fun x => .ok (fun s => if acq then s.acquire x.tid c.toNat else s)) s
    if o.getLsbD 1 then .next (s.gated (act.map (fun x => (x.tid, c.toNat))) go)
    else .next (s.gatedAway (if c.toNat ≥ 6 then act.map (fun x => x.tid) else []) go)

/-! ## What arrives (R305, R375, R184) -/

/-- Whether a thread stands at a run boundary: in no group, or in one whose run has not issued. -/
def State.atBoundary (s : State) (x : ThreadId) : Bool :=
  let th := s.thread x
  match th.st with
  | .grouped => s.groups.any (fun p => decide (p.1.die = x.warp.die) && decide (p.1.core = x.warp.core) && decide (p.1.part = x.warp.part) &&
      decide (p.2.member x.lane = some x.warp.slot) && decide (p.2.next = 0))
  | .ready | .blocked | .fetchWait => true
  | _ => false

/-- A completion failure: taken now by a thread that stands at a run boundary, or at its next one (R375); a second fault in a grid
that is ending (R265). -/
def State.lateTrap (s : State) (x : ThreadId) (t : Trap) : State :=
  let th := s.thread x
  if s.atBoundary x || (decide (th.st = .halted) && s.gridEnding x) then takeTrap t x s
  else s.setThread x { th with late := th.late ++ [t] }

/-- PENDING_REGISTER_WRITE: a value or a failure reaches its thread (R305, R367, R375). -/
def execPendingRegisterWrite (s : State) : Host.Outcome State Fault Refusal :=
  match nth? s.returns s.pick with
  | none => .next s
  | some r =>
    let s := { s with returns := removeNth s.returns s.pick }
    match r.trap with
    | none => .next (s.deliver r.thread r.mark r.regs)
    | some t =>
      if (lookup? r.thread s.threads).isSome then
        .next ((s.setThread r.thread ((s.thread r.thread).release r.mark)).lateTrap r.thread t)
      else .next s

/-- REFRESH_WINDOW_END: reads that stalled at a refreshing bank go on, and their acquires are performed (R184, R219). -/
def execRefreshWindowEnd (die bank : Nat) (s : State) : Host.Outcome State Fault Refusal :=
  if s.refreshing bank then .next s
  else
    let due := (s.die die).refreshWaits.filter (fun r => decide (r.1 = bank))
    let s := s.onDie die (fun d => { d with refreshWaits := d.refreshWaits.filter (fun r => decide (r.1 ≠ bank)) })
    let s := due.foldl (fun s r => s.acquire r.2.2.thread r.2.1) s
    .next { s with returns := s.returns ++ due.map (fun r => r.2.2) }

end Sys2Proof.Machine
end

