-- ==== Sys2Proof/Machine/Chits.lean ====
section
/-! DEFINITION. What each chit message does where it arrives (R93 to R98), the reserves of I/O die entries (R94), and INVK, CHIT and
WAIT (R415, R418 to R421). -/

namespace Sys2Proof.Machine

/-! ## Messages that have arrived -/

/-- The k-th waiting message, where it is of a kind and for a socket. -/
def State.chitAt (s : State) (sock k : Nat) (nopc : BitVec 8) : Option ChitMsg :=
  match nth? s.chits.msgs k with
  | some m => if m.nopc = nopc ∧ m.dsock = sock then some m else none
  | none => none

/-- The acknowledgement of a message: inside the module, or to the module that sent it (R95), without path
entropy (log 138). -/
def State.sendCack (s : State) (m : ChitMsg) : State :=
  if m.smod = s.fab.nmod then
    s.onChits (fun c => { c with msgs := c.msgs ++ [{ m with nopc := 0x25, dsock := m.ssock, ssock := m.dsock, payload := 0, ce := m.cm }] })
  else
    s.toPort m.dsock { NPacket.blank with
      nopc := 0x25, ce := m.cm, smod := s.fab.nmod, dmod := m.smod, ssock := m.ssock, plane := m.plane, ntag := BitVec.ofNat 16 m.opId
      opa := m.chit }

/-- A message taken from the waiting ones, acted on, and acknowledged. -/
def State.onChitMsg (s : State) (sock k : Nat) (nopc : BitVec 8) (f : ChitMsg → State → State) : Host.Outcome State Fault Refusal :=
  match s.chitAt sock k nopc with
  | none => .next s
  | some m => .next ((f m (s.onChits (fun c => { c with msgs := removeNth c.msgs k }))).sendCack m)

/-- An invocation sent on from a home to the location (R95). -/
def State.forwardOne (s : State) (home : BitVec 64) (loc : BitVec 64) (i : Invocation) : State :=
  let s := match s.liveChit home with
    | some e => s.setChit home { e with forwarded := e.forwarded + 1 }
    | none => s
  s.postChit { s.chitMsg 0x20 (chitSock home) loc with payload := i.record, other := i.chit }

/-- An invocation that reaches an entry (R95, R97). -/
def State.invokeAt (s : State) (sock : Nat) (c : BitVec 64) (i : Invocation) : State :=
  match s.liveChit c with
  | none => s.breakChit sock i.chit (brokenRec 3 0 c)
  | some e =>
    if e.state = .broken then s.breakChit sock i.chit (inheritRec e.result)
    else if e.state = .wait then s.setChit c (e.enqueue i)
    else
      match e.loc with
      | some l =>
        if l ≠ c then s.forwardOne c l i
        else if e.state = .done then s.releaseInvocation sock i e.result
        else s.setChit c (e.enqueue i)
      | none => if e.state = .done then s.releaseInvocation sock i e.result else s.setChit c (e.enqueue i)

/-- CINV (R95, R97). -/
def execCinv (sock k : Nat) (s : State) : Host.Outcome State Fault Refusal :=
  s.onChitMsg sock k 0x20 (fun m s => s.invokeAt sock m.chit ⟨m.payload, m.other⟩)

/-- Event 0x0A of a dispatcher: a code and an address, with the queue concerned (R468). -/
def State.launchEvent (s : State) (disp queue code addr : Nat) : State :=
  s.raiseEvent 0x0A disp (BitVec.ofNat 128 (packBits [(64, addr), (8, disp), (8, queue), (32, 0), (8, code)]))

/-- A record that hardware drops, for it names no queue it may enter: QUEUE of the event is 0xFF (R133, R468). -/
def State.dropPush (s : State) (disp : Nat) (r : BitVec 512) (addr : Nat) : State :=
  let s := s.launchEvent disp 0xFF 0x0A addr
  if recChv r then s.breakChit disp (recChit r) (brokenRec 1 0 (recChit r)) else s

/-- CTSK at the global dispatcher (R94, R133). -/
def execCtsk (sock k : Nat) (s : State) : Host.Outcome State Fault Refusal :=
  s.onChitMsg sock k 0x21 (fun m s =>
    let q := recQsel m.payload
    if q < 64 ∨ 79 < q then s.dropPush 20 m.payload 0
    else s.pushRecord 20 ⟨m.payload, q, false, 0, none, none⟩)

/-- CLOC at the home: LOC known, the queue sent on in order (R95). -/
def execCloc (sock k : Nat) (s : State) : Host.Outcome State Fault Refusal :=
  s.onChitMsg sock k 0x22 (fun m s =>
    match s.liveChit m.chit with
    | none => s
    | some e =>
      let st := if e.state = .wait then .placed else e.state
      let s := s.setChit m.chit { e.emptied with loc := some m.other, state := st }
      (e.queue ++ e.spill).foldl (fun s i => s.forwardOne m.chit m.other i) s)

/-- CRES at the home: the result, or the broken record; the first completion stands (R95, R97). -/
def execCres (sock k : Nat) (s : State) : Host.Outcome State Fault Refusal :=
  s.onChitMsg sock k 0x23 (fun m s =>
    match s.liveChit m.chit with
    | none => s
    | some e =>
      if e.state = .done ∨ e.state = .broken then s
      else
        let is := e.queue ++ e.spill
        let s := s.setChit m.chit { e.emptied with state := if m.broken then .broken else .done, result := m.payload }
        let s := if m.broken then s.inheritAll sock is m.payload
          else is.foldl (fun s i => s.releaseInvocation sock i m.payload) s
        s.tryRelease m.chit)

/-- CFRE: a location entry becomes free; at the home the chit is released once it may be (R95, R420). -/
def execCfre (sock k : Nat) (s : State) : Host.Outcome State Fault Refusal :=
  s.onChitMsg sock k 0x24 (fun m s =>
    match s.liveChit m.chit with
    | none => s
    | some e =>
      if e.locOnly then
        let s := (e.queue ++ e.spill).foldl (fun s i => s.breakChit sock i.chit (brokenRec 3 0 m.chit)) s
        s.freeEntry m.chit
      else (s.setChit m.chit { e with release := true }).tryRelease m.chit)

/-- Home entries of a die whose location has acknowledged an invocation count it (R95). -/
def State.countForwarded (s : State) (sock : Nat) (loc : BitVec 64) : State :=
  let homes := s.chits.tables.filter (fun p => decide (p.1.1 = sock) && p.2.loc == some loc && decide (p.2.forwarded ≠ 0))
  homes.foldl (fun s p =>
    let c := mkChit s.fab.nmod sock p.1.2 p.2.gen.toNat
    (s.setEntry sock p.1.2 { p.2 with forwarded := p.2.forwarded - 1 }).tryRelease c) s

/-- A message acknowledged to its sender: the next may go, and what counted it retires (R95, R415). -/
def State.acked (s : State) (sock : Nat) (c : BitVec 64) (w : Option WarpId) (op : Nat) : State :=
  let s := (s.ackChit sock c).countForwarded sock c
  match w with
  | some v => s.opDone v 4 op
  | none => s

/-- CACK, whose congestion echo counts where it answers a message (R77, R95, R98). -/
def execCack (sock k : Nat) (s : State) : Host.Outcome State Fault Refusal :=
  match s.chitAt sock k 0x25 with
  | none => .next s
  | some m =>
    let s := s.onChits (fun c => { c with msgs := removeNth c.msgs k })
    if m.smod = s.fab.nmod then .next (s.acked sock (if m.chit = 0 then m.other else m.chit) m.warp m.opId)
    else
      match (s.rau sock).txns.find? (fun t => decide (t.pkt.ntag.toNat = m.opId)) with
      | none => .next s
      | some t =>
        let s := (s.echo sock { NPacket.blank with ce := m.ce, smod := m.smod, plane := m.plane }).dropTxn sock t
        if m.broken then .next (s.failPacket sock t.pkt t.accs t.warp t.opId t.grid 0x40)
        else .next (s.acked sock (if t.pkt.nopc = 0x21 then t.pkt.opb else t.pkt.opa) t.warp t.opId)

/-- CHIT_RESERVE_REFILL: a die's reserve of up to 64 free entries of an I/O die's table takes one more (R94). -/
def execChitReserveRefill (die iod : Nat) (s : State) : Host.Outcome State Fault Refusal :=
  let r := lookupD (die, iod) [] s.chits.reserves
  if 7 < die ∨ (iod ≠ 20 ∧ iod ≠ 21) ∨ 64 ≤ r.length then .next s
  else
    match s.freeChit iod with
    | none => .next s
    | some i => .next (s.onChits (fun c => { c with reserves := put (die, iod) (r ++ [i]) c.reserves }))

/-! ## INVK (R418, R419) -/

/-- TMOD of INVK's payload. -/
def invkMod (p : BitVec 26) : BitVec 8 := p.extractLsb' 0 8
/-- TDV of INVK's payload. -/
def invkTdv (p : BitVec 26) : Bool := p.getLsbD 12
/-- CH of INVK's payload. -/
def invkCh (p : BitVec 26) : Bool := p.getLsbD 13
/-- Whether INVK's payload names another module. -/
def State.invkAway (s : State) (p : BitVec 26) : Bool := p.getLsbD 8 && invkMod p != s.fab.nmod

/-- A new chit for an invocation of a die, from its own table, or for another module from its reserve (R94). -/
def State.mintChit (s : State) (die : Nat) (away : Option (BitVec 8)) : Option (BitVec 64 × State) :=
  match away with
  | none => (s.freeChit die).map (fun i => s.issueChit die i .wait)
  | some m =>
    let iod := if m.getLsbD 0 then 21 else 20
    match lookupD (die, iod) [] s.chits.reserves with
    | [] => none
    | i :: t => some ((s.onChits (fun c => { c with reserves := put (die, iod) t c.reserves })).issueChit iod i .wait)

/-- The module an invocation goes to, where it is another one. -/
def State.invkTarget (s : State) (p : BitVec 26) (c : BitVec 64) : Option (BitVec 8) :=
  if c ≠ 0 then (if chitMod c ≠ s.fab.nmod then some (chitMod c) else none)
  else if s.invkAway p then some (invkMod p) else none

/-- The operands of INVK in a lane: the template's offset and the addressed chit (R419). -/
def State.invkArgs (s : State) (p : BitVec 26) (d a b : BitVec 7) (c : LaneCtx) : Except Trap (BitVec 32 × BitVec 64) :=
  let args : Except Trap (BitVec 32 × BitVec 64) := match c.word (fld a) 0, c.pairOf (fld b) 2 4 with
    | .ok o, .ok k => .ok (o, k)
    | .error e, .ok _ => .error e
    | .ok _, .error e => .error e
    | .error e, .error f => .error (if checkRank f < checkRank e then f else e)
  if s.invkAway p && invkTdv p then .error (c.code00 8)
  else match args with
  | .error t => .error t
  | .ok (o, k) =>
    match c.dest (fld d) true with
    | .error t => .error t
    | .ok _ =>
      if o.toNat % 64 ≠ 0 ∨ c.bundle.scrBytes < o.toNat + 64 then .error (Trap.sync 4 0x62 (BitVec.setWidth 64 o))
      else if k ≠ 0 ∧ (s.invkAway p || invkTdv p) then .error (Trap.sync 4 0x63 k)
      else .ok (o, k)

/-- The record of an invocation: its template with the chit and CHV (R419). -/
def invkRecord (tmpl : Nat) (k : BitVec 64) (ch : Bool) : BitVec 512 :=
  let r := recSet (BitVec.ofNat 512 tmpl) 32 8 k.toNat
  recSet r 58 1 (recCtl r % 8 + 16 * (recCtl r / 16) + (if ch then 8 else 0))

/-- An invocation sent where it goes, and counted in INV (R419). -/
def State.sendInvk (s : State) (p : BitVec 26) (w : WarpId) (c k : BitVec 64) (r : BitVec 512) : State :=
  let op := s.fresh
  let s := ({ s with fresh := op + 1 }).onWarp w (fun v => v.issueOp 4 op)
  if c ≠ 0 then
    if hasTable (chitSock c) then
      s.postChit { s.chitMsg 0x20 w.die c with payload := r, other := k, warp := some w, opId := op }
    else (s.breakChit w.die k (brokenRec 3 0 c)).opDone w 4 op
  else if s.invkAway p then
    s.postChit { s.chitMsg 0x21 w.die k with dsock := 20, dmod := invkMod p, payload := r, other := k, warp := some w, opId := op }
  else
    let q := recQsel r
    let disp := if q < 64 then (if invkTdv p then (p.extractLsb' 9 3).toNat else w.die) else 20
    s.pushRecord disp ⟨r, q, false, 0, none, some (w, op)⟩

/-- INVK in a lane. -/
def invkEffect (p : BitVec 26) (d : BitVec 7) (o : BitVec 32) (c : BitVec 64) (x : LaneCtx) (s : State) : State :=
  let w := x.tid.warp
  let tmpl := s.scrRead w.coreId x.warp.bslot o.toNat 64
  let give (k : BitVec 64) (s : State) : State :=
    (writeResult (fld d) [(k.extractLsb' 0 32, tagN64), (k.extractLsb' 32 32, tagN64)] [x] s).onThread x.tid
      (fun th => { th with newRegion := true })
  if invkCh p then
    match s.mintChit w.die (s.invkTarget p c) with
    | none => give 0 s
    | some m => give m.1 (m.2.sendInvk p w c m.1 (invkRecord tmpl m.1 true))
  else give 0 (s.sendInvk p w c 0 (invkRecord tmpl 0 false))

/-- INVK (R418, R419). -/
def execInvk (pfx : BitVec 26) (g : BitVec 4) (h : BitVec 1) (d a b : BitVec 7) (s : State) : Host.Outcome State Fault Refusal :=
  let i := Instr.invk pfx g h d a b
  let act := if (encodingFault i).isSome then [] else activeLanes i s
  let good := act.filterMap (fun c => match s.invkArgs pfx d a b c with | .ok v => some (c, v.2) | .error _ => none)
  if good.any (fun g => decide (255 < g.1.warp.inv + good.length)) then .next (holdIssue s)
  else
    let rs := good.map (fun g => (g.1.tid, if (s.invkTarget pfx g.2).isSome then 6 else 5))
    .next (s.gated rs (fun s =>
      runLanes i (fun c => (s.invkArgs pfx d a b c).map (fun v => invkEffect pfx d v.1 v.2 c)) s))

/-! ## CHIT (R420, R421) -/

/-- The chit of a CHIT function in a lane: null and foreign chits trap. -/
def State.chitArg (s : State) (a : BitVec 7) (c : LaneCtx) : Except Trap (BitVec 64) :=
  match c.pairOf (fld a) 0 4 with
  | .error t => .error t
  | .ok k =>
    if hasTable (chitSock k) && decide (chitGen k = 0) then .error (Trap.sync 4 0x60 k)
    else if chitMod k ≠ s.fab.nmod then .error (Trap.sync 4 0x61 k)
    else .ok k

/-- Whether a chit is complete. -/
def ChitEntry.complete (e : ChitEntry) : Bool := decide (e.state = .done) || decide (e.state = .broken)

/-- A class 08 trap: taken at the run that follows, NR 1 (R255, R421). -/
def chitTrap (c : LaneCtx) (cause : Nat) (k : BitVec 64) : Trap := ⟨8, cause, k, 2, some c.group.afterAddr⟩

/-- The scope of the acquire of a completed chit: DOM where it has a location in another module, else DEV. -/
def State.chitScope (s : State) (e : ChitEntry) : Nat :=
  match e.loc with
  | some l => if chitMod l = s.fab.nmod then 5 else 6
  | none => 5

/-- CHIT AWAIT in a lane (R420, R421). -/
def State.awaitLane (s : State) (a : BitVec 7) (c : LaneCtx) : BlockOut :=
  match s.chitArg a c with
  | .error t => .trap t
  | .ok k =>
    match s.liveChit k with
    | none => .trap (chitTrap c 3 k)
    | some e =>
      if e.state = .done then
        .pass (fun s => (s.acquire c.tid (s.chitScope e)).onThread c.tid (fun th => { th with newRegion := true }))
      else if e.state = .broken then .trap (chitTrap c (recCause e.result) k)
      else .block (.chit k)

/-- CHIT AWAIT (R420). -/
def execChitAwait (g : BitVec 4) (a : BitVec 7) (s : State) : Host.Outcome State Fault Refusal :=
  .next (runBlocking (.chitAwait g a) (s.awaitLane a) s)

/-- The state code of TEST. -/
def ChitEntry.code (e : ChitEntry) : Nat :=
  match e.state with
  | .free => 0
  | .wait => 1
  | .placed => 2
  | .done => 3
  | .broken => 4 + 256 * recCause e.result

/-- CHIT TEST in a lane. -/
def State.testLane (s0 : State) (d a : BitVec 7) (c : LaneCtx) : LaneOut :=
  match s0.chitArg a c with
  | .error t => .error t
  | .ok k =>
    match c.dest (fld d) false with
    | .error t => .error t
    | .ok _ => .ok (fun s =>
        let e := s0.liveChit k
        let code := match e with | some e => e.code | none => 0
        let s := match e with | some e => if e.state = .done then s.acquire c.tid (s0.chitScope e) else s | none => s
        markNew [c] (writeResult (fld d) [(BitVec.ofNat 32 code, tagN32)] [c] s))

/-- CHIT TEST (R420). -/
def execChitTest (g : BitVec 4) (h : BitVec 1) (d a : BitVec 7) (s : State) : Host.Outcome State Fault Refusal :=
  .next (runLanes (.chitTest g h d a) (s.testLane d a) s)

/-- CHIT FREE of one lane: sent to the home, and counted in INV; a stale chit has no effect (R420, R415). -/
def State.freeLane (s : State) (k : BitVec 64) (x : ThreadId) : State :=
  let s := s.onThread x (fun th => { th with newRegion := true })
  match s.liveChit k with
  | none => s
  | some _ =>
    let op := s.fresh
    let s := ({ s with fresh := op + 1 }).onWarp x.warp (fun v => v.issueOp 4 op)
    s.postChit { s.chitMsg 0x24 x.warp.die k with warp := some x.warp, opId := op }

/-- CHIT FREE: it orders the issuing threads' earlier accesses as a release at DEV scope (R215, R420). -/
def execChitFree (g : BitVec 4) (a : BitVec 7) (s : State) : Host.Outcome State Fault Refusal :=
  let i := Instr.chitFree g a
  let act := if (encodingFault i).isSome then [] else activeLanes i s
  let good := act.filter (fun c => match s.chitArg a c with | .ok k => (s.liveChit k).isSome | .error _ => false)
  if good.any (fun c => decide (255 < c.warp.inv + good.length)) then .next (holdIssue s)
  else .next (s.gated (good.map (fun c => (c.tid, 5))) (fun s =>
    runLanes i (fun c => (s.chitArg a c).map (fun k s => s.freeLane k c.tid)) s))

/-- CHIT SLOT in a lane: word l mod 16 of the result slot or of the broken record. -/
def State.slotLane (s0 : State) (d a : BitVec 7) (c : LaneCtx) : LaneOut :=
  match s0.chitArg a c with
  | .error t => .error t
  | .ok k =>
    match c.dest (fld d) false with
    | .error t => .error t
    | .ok _ =>
      match s0.liveChit k with
      | none => .error (chitTrap c 3 k)
      | some e => .ok (fun s =>
          let s := if e.state = .done then s.acquire c.tid (s0.chitScope e) else s
          markNew [c] (writeResult (fld d) [(BitVec.ofNat 32 (recNum e.result (4 * (c.lane % 16)) 4), tagB32)] [c] s))

/-- CHIT SLOT: the issue is held until every chit named is complete (R420). -/
def execChitSlot (g : BitVec 4) (h : BitVec 1) (d a : BitVec 7) (s : State) : Host.Outcome State Fault Refusal :=
  let i := Instr.chitSlot g h d a
  let act := if (encodingFault i).isSome then [] else activeLanes i s
  let waits := act.any (fun c =>
    match s.chitArg a c with
    | .error _ => false
    | .ok k => match s.liveChit k with | some e => !e.complete | none => false)
  if waits then .next (holdIssue s) else .next (runLanes i (s.slotLane d a) s)

/-! ## WAIT (R415) -/

/-- The acquire scope of a class's retired operations (R215): DOM for remote accesses, DEV for the engines. -/
def waitScope (cls : Nat) : Nat := if cls = 3 then 6 else 5

/-- The trap of an engine fault in a lane that issued the operation: its region again where it is still the same one, else the
WAIT's run with NR (R255, R414). -/
def faultTrap (f : EngFault) (lane : Nat) (recn : BitVec 32) (at' : BitVec 64) : Option Trap :=
  match lookup? lane (f.lanes.map (fun l => (l.1, l.2))) with
  | none => none
  | some r => some (if recn = r.2 then { f.trap with flags := f.trap.flags ||| 4, xpc := some r.1 }
      else { f.trap with flags := f.trap.flags ||| 6, xpc := some at' })

/-- The first fault of a class, its operation retired, that is owed to a lane. -/
def owedFault (cls : Option Nat) (c : LaneCtx) : Option EngFault :=
  c.warp.faults.find? (fun f => !(c.warp.ops.any (fun o => decide (o.id = f.id))) && (match cls with | some k => decide (f.cls = k) | none => true) && f.lanes.any (fun l => decide (l.1 = c.lane)))

/-- A fault delivered to a lane is owed to it no more. -/
def State.payFault (s : State) (w : WarpId) (lane id : Nat) : State :=
  s.onWarp w (fun v => { v with
    faults := (v.faults.map (fun (f : EngFault) => if f.id = id then { f with lanes := f.lanes.filter (fun l => decide (l.1 ≠ lane)) } else f)).filter
      (fun f => !f.lanes.isEmpty) })

/-- A fault that a lane takes at a WAIT or EXIT. -/
def State.deliverFault (s : State) (c : LaneCtx) (f : EngFault) : State :=
  match faultTrap f c.lane (s.thread c.tid).recn c.group.addr with
  | none => s
  | some t => takeTrap t c.tid (s.payFault c.tid.warp c.lane f.id)

/-- The counter of a class. -/
def Warp.counter (w : Warp) (cls : Nat) : Nat :=
  if cls = 0 then w.cpy else if cls = 1 then w.gth else if cls = 2 then w.mtx else if cls = 3 then w.rmt else w.inv

/-- WAIT in a lane (R415, R414). -/
def waitCounterLane (cls n : Nat) (c : LaneCtx) : BlockOut :=
  if n < c.warp.counter cls then .block (.counter cls n)
  else
    match owedFault (some cls) c with
    | some f => .pass (fun s => s.deliverFault c f)
    | none => .pass (fun s => s.acquire c.tid (waitScope cls))

/-- WAIT (R415). -/
def execWait (g : BitVec 4) (k : BitVec 3) (n : BitVec 7) (s : State) : Host.Outcome State Fault Refusal :=
  .next (runBlocking (.wait g k n) (waitCounterLane k.toNat n.toNat) s)

end Sys2Proof.Machine
end

