-- ==== Sys2Proof/Machine/Tray.lean ====
section
/-! DEFINITION. Trays: binding, reserving, filling, popping and freeing their slots (R237 to R239, R416). -/

namespace Sys2Proof.Machine

/-! ## Trays of a bundle -/

/-- The tray that the bundle in a slot of a core has bound to a name: its physical number and state. -/
def State.trayOf (s : State) (c : CoreId) (bslot name : Nat) : Option (Nat × Tray) :=
  (s.core c).trays.find? (fun p => decide (p.2.bslot = bslot) && decide (p.2.name = name))

/-- The state with a physical tray replaced. -/
def State.setTray (s : State) (c : CoreId) (n : Nat) (t : Tray) : State := s.onCore c (fun k => { k with trays := put n t k.trays })

/-- FILLC: the FILLED slots in a row from C (R238). -/
def Tray.fillc (t : Tray) : Nat := ((t.slots.drop t.c ++ t.slots.take t.c).takeWhile (fun x => decide (x = .filled))).length

/-- Slot P reserved. -/
def Tray.reserve (t : Tray) : Tray :=
  { t with slots := setNth .filling t.slots t.p, p := (t.p + 1) % t.n, freec := t.freec - 1 }

/-- Slot C popped. -/
def Tray.pop (t : Tray) : Tray := { t with slots := setNth .reading t.slots t.c, c := (t.c + 1) % t.n }

/-- F advanced over SPENT slots, each made FREE; n bounds their number. -/
def Tray.sweep : Nat → Tray → Tray
  | 0, t => t
  | n + 1, t =>
    if nth .free t.slots t.f = .spent then
      Tray.sweep n { t with slots := setNth .free t.slots t.f, f := (t.f + 1) % t.n, freec := t.freec + 1 }
    else t

/-- A READING slot done. -/
def Tray.spend (t : Tray) (i : Nat) : Tray := Tray.sweep t.n { t with slots := setNth .spent t.slots i }

/-- A FILLING slot committed. -/
def Tray.commit (t : Tray) (i : Nat) : Tray := { t with slots := setNth .filled t.slots i }

/-- The token of a slot (R416). -/
def Tray.token (t : Tray) (i : Nat) : BitVec 32 := BitVec.ofNat 32 (packBits [(18, t.offset + i * t.size), (4, t.name), (2, 0), (8, i)])

/-! ## Descriptors of the engines: bytes and the trays they name -/

/-- n bytes of a descriptor from an offset. -/
def EngineJob.num (j : EngineJob) (off n : Nat) : Nat := natOfBytes ((j.desc.drop off).take n)

/-- The tray names that an engine operation holds. -/
def EngineJob.trays (j : EngineJob) : List Nat :=
  if j.gather then
    (if (j.num 37 1).testBit 1 then [j.num 8 1 % 16] else []) ++ (if (j.num 37 1).testBit 2 then [j.num 16 1 % 16] else [])
  else if (j.num 18 1).testBit 0 then [j.num 8 1 % 16] else []

/-- Whether an engine operation of a bundle names a tray. -/
def State.trayBusy (s : State) (c : CoreId) (bslot name : Nat) : Bool :=
  s.jobs.any (fun j => decide (j.warp.coreId = c) && decide ((s.warp j.warp).bslot = bslot) && j.trays.contains name)

/-! ## TRAY (R416) -/

/-- The class 04 trap of R238, or of a bad operand. -/
def trayTrap (sub : Nat) (v : BitVec 32) : Trap := Trap.sync 4 sub (BitVec.setWidth 64 v)

/-- What every active lane's operand and destination must meet. -/
def trayCheck (d : Option (BitVec 7)) (a : BitVec 7) (c : LaneCtx) : Except Trap Unit :=
  match d with
  | some d => bothOk (c.word (fld a) 0) (c.dest (fld d) false)
  | none => (c.word (fld a) 0).map (fun _ => ())

/-- The name operand: bits [31:4] zero. -/
def trayName (v : BitVec 32) : Except Trap Nat := if 16 ≤ v.toNat then .error (trayTrap 0x60 v) else .ok v.toNat

/-- A configure operation's code, and the tray it binds (R237). -/
def State.trayConfig (s : State) (c : LaneCtx) (v : BitVec 64) : Nat × State :=
  let x := v.toNat
  let name := bitsAt x 0 4
  let k := bitsAt x 8 10
  let n := bitsAt x 18 8 + 1
  let off := bitsAt x 32 32
  let core := c.tid.warp.coreId
  let phys := (List.range 16).find? (fun i => (lookup? i (s.core core).trays).isNone)
  if bitsAt x 4 4 ≠ 0 ∨ bitsAt x 26 6 ≠ 0 ∨ k = 0 ∨ 512 < k ∨ off % 128 ≠ 0 ∨ c.bundle.scrBytes < off + 128 * k * n then (1, s)
  else if (s.trayOf core c.warp.bslot name).isSome then (3, s)
  else
    match phys with
    | none => (2, s)
    | some i =>
      (0, s.setTray core i { bslot := c.warp.bslot, name := name, offset := off, size := 128 * k, n := n, p := 0, c := 0, f := 0
                             freec := n, slots := List.replicate n .free })

/-- A function that gives one 32-bit result to every active lane. -/
def giveWord (d : BitVec 7) (v : BitVec 32) (act : List LaneCtx) (s : State) : State :=
  markNew act (writeResult (fld d) [(v, tagN32)] act s)

/-- TRAY CFG (R237, R416). -/
def execTrayCfg (g : BitVec 4) (h : BitVec 1) (d a : BitVec 7) (s : State) : Host.Outcome State Fault Refusal :=
  .next (runOnce (.trayCfg g h d a) (fun c => bothOk (c.pairOf (fld a) 0 4) (c.dest (fld d) false))
    (fun l0 act =>
      match l0.pairOf (fld a) 0 4 with
      | .error t => .error t
      | .ok v => .ok (fun s => let r := s.trayConfig l0 v; giveWord d (BitVec.ofNat 32 r.1) act r.2)) s)

/-- A function on a configured tray, by name: class 04, subcode 0x38, where it is not configured. -/
def runTray (i : Instr) (d : Option (BitVec 7)) (a : BitVec 7)
    (f : LaneCtx → List LaneCtx → Nat → Tray → State → State) (s : State) : State :=
  runOnce i (trayCheck d a) (fun l0 act =>
    match l0.word (fld a) 0 with
    | .error t => .error t
    | .ok v =>
      match trayName v with
      | .error t => .error t
      | .ok name =>
        match s.trayOf l0.tid.warp.coreId l0.warp.bslot name with
        | none => .error (trayTrap 0x38 v)
        | some p => .ok (f l0 act p.1 p.2)) s

/-- TRAY REL: the name unbound, or TRAY_BUSY (R237). -/
def execTrayRel (g : BitVec 4) (h : BitVec 1) (d a : BitVec 7) (s : State) : Host.Outcome State Fault Refusal :=
  .next (runTray (.trayRel g h d a) (some d) a (fun l0 act n t s =>
    let core := l0.tid.warp.coreId
    if s.trayBusy core t.bslot t.name then giveWord d 4 act s
    else giveWord d 0 act (s.onCore core (fun k => { k with trays := drop n k.trays }))) s)

/-- TRAY RSV: a slot token, or all ones; a reserve synchronises with the done before it (R238, R239). -/
def execTrayRsv (g : BitVec 4) (h : BitVec 1) (d a : BitVec 7) (s : State) : Host.Outcome State Fault Refusal :=
  .next (runTray (.trayRsv g h d a) (some d) a (fun l0 act n t s =>
    if t.freec = 0 then giveWord d 0xFFFFFFFF act s
    else giveWord d (t.token t.p) act ((s.setTray l0.tid.warp.coreId n t.reserve).acquire l0.tid 3)) s)

/-- TRAY CNT: FILLC and FREEC (R238). -/
def execTrayCnt (g : BitVec 4) (h : BitVec 1) (d a : BitVec 7) (s : State) : Host.Outcome State Fault Refusal :=
  .next (runTray (.trayCnt g h d a) (some d) a (fun _ act _ t s =>
    writeResult (fld d) [(BitVec.ofNat 32 (t.fillc + 65536 * t.freec), tagN32)] act s) s)

/-- A slot token of a tray: its slot, where the token agrees with itself and the slot is in the state asked for (R416). -/
def State.traySlot (s : State) (c : LaneCtx) (v : BitVec 32) (want : SlotState) : Except Trap (Nat × Tray × Nat) :=
  let x := v.toNat
  let i := bitsAt x 24 8
  if bitsAt x 22 2 ≠ 0 then .error (trayTrap 0x60 v)
  else
    match s.trayOf c.tid.warp.coreId c.warp.bslot (bitsAt x 18 4) with
    | none => .error (trayTrap 0x38 v)
    | some p =>
      if p.2.n ≤ i ∨ p.2.token i ≠ v ∨ nth .free p.2.slots i ≠ want then .error (trayTrap 0x38 v) else .ok (p.1, p.2, i)

/-- COMMIT or DONE of a slot named by its token. -/
def runSlot (i : Instr) (a : BitVec 7) (want : SlotState) (f : Tray → Nat → Tray) (s : State) : State :=
  runOnce i (trayCheck none a) (fun l0 act =>
    match l0.word (fld a) 0 with
    | .error t => .error t
    | .ok v =>
      match s.traySlot l0 v want with
      | .error t => .error t
      | .ok (n, t, k) => .ok (fun s => markNew act (s.setTray l0.tid.warp.coreId n (f t k)))) s

/-- TRAY COMMIT: a release at CLU scope (R238, R239). -/
def execTrayCommit (g : BitVec 4) (a : BitVec 7) (s : State) : Host.Outcome State Fault Refusal :=
  let i := Instr.trayCommit g a
  let act := if (encodingFault i).isSome then [] else activeLanes i s
  .next (s.gated (act.map (fun c => (c.tid, 3))) (fun s => runSlot i a .filling Tray.commit s))

/-- TRAY DONE: it follows what its lanes did before, so that the next reserve or fill of the slot does too (R238, R239,
log 147). -/
def execTrayDone (g : BitVec 4) (a : BitVec 7) (s : State) : Host.Outcome State Fault Refusal :=
  let i := Instr.trayDone g a
  let act := if (encodingFault i).isSome then [] else activeLanes i s
  .next (s.gated (act.map (fun c => (c.tid, 3))) (fun s => runSlot i a .reading Tray.spend s))

/-- The lanes of a group that are active for a blocking instruction, with the fault of their operands if any. -/
def popFault (d a : BitVec 7) (act : List LaneCtx) : Option Trap := firstFault (trayCheck (some d) a) act

/-- What POP does in every active lane: a trap, a wait, or a slot of the tray that l0 names. -/
def State.popOutcome (s : State) (d a : BitVec 7) (act : List LaneCtx) : Except Trap (Option (Nat × Tray)) :=
  match popFault d a act, act with
  | some t, _ => .error t
  | none, [] => .ok none
  | none, l0 :: _ =>
    match l0.word (fld a) 0 with
    | .error t => .error t
    | .ok v =>
      match trayName v with
      | .error t => .error t
      | .ok name =>
        match s.trayOf l0.tid.warp.coreId l0.warp.bslot name with
        | none => .error (trayTrap 0x38 v)
        | some p => if p.2.fillc = 0 then .ok none else .ok (some p)

/-- TRAY POP: blocks until FILLC is above 0; one slot for the warp, its token to every active lane (R238, R239, R416). -/
def execTrayPop (g : BitVec 4) (h : BitVec 1) (d a : BitVec 7) (s : State) : Host.Outcome State Fault Refusal :=
  let i := Instr.trayPop g h d a
  let act := activeLanes i s
  .next (runBlocking i (fun c =>
    match s.popOutcome d a act with
    | .error t => .trap t
    | .ok none =>
      match act with
      | l0 :: _ => match l0.word (fld a) 0 with | .ok v => .block (.tray v.toNat) | .error t => .trap t
      | [] => .pass id
    | .ok (some p) =>
      .pass (fun s =>
        let first := match act with | l0 :: _ => decide (c.lane = l0.lane) | [] => false
        let s := if first then s.setTray c.tid.warp.coreId p.1 p.2.pop else s
        giveWord d (p.2.token p.2.c) [c] (s.acquire c.tid 3))) s)

end Sys2Proof.Machine
end

