-- ==== Sys2Proof/Machine/Engines.lean ====
section
/-! DEFINITION. The tensor copy engine of each cluster and the gather engine of each core (R231 to R236, R413, R414): the
descriptor's checks, the parts an operation moves, and how it suspends, faults and retires. -/

namespace Sys2Proof.Machine

/-! ## Descriptors (R231, R235) -/

/-- The engine's operation replaced. -/
def State.setJob (s : State) (j : EngineJob) : State :=
  { s with jobs := s.jobs.map (fun (x : EngineJob) => if x.id = j.id then j else x) }

/-- CTL of a descriptor. -/
def EngineJob.ctl (j : EngineJob) : Nat := if j.gather then j.num 37 1 else j.num 18 1
/-- Whether landed bytes are subtracted from PEND. -/
def EngineJob.pb (j : EngineJob) : Bool := j.ctl.testBit (if j.gather then 3 else 1)
/-- RCL, the reuse class of global accesses. -/
def EngineJob.rcl (j : EngineJob) : BitVec 2 := BitVec.ofNat 2 (bitsAt j.ctl (if j.gather then 4 else 2) 2)
/-- BLVL. -/
def EngineJob.blvl (j : EngineJob) : Nat := if j.gather then j.num 38 1 else j.num 19 1
/-- BSLOT. -/
def EngineJob.bslot (j : EngineJob) : Nat := if j.gather then j.num 40 2 else j.num 20 2
/-- Whether a copy fills a tray. -/
def EngineJob.dk (j : EngineJob) : Bool := !j.gather && j.ctl.testBit 0
/-- Whether a gather's indices come from a tray. -/
def EngineJob.ik (j : EngineJob) : Bool := j.gather && j.ctl.testBit 1
/-- Whether a gather's rows are in a tray. -/
def EngineJob.ok (j : EngineJob) : Bool := j.gather && j.ctl.testBit 2
/-- Whether a gather engine's operation is a scatter. -/
def EngineJob.scatter (j : EngineJob) : Bool := j.gather && j.ctl.testBit 0
/-- Whether the descriptor makes the instruction non-idempotent (R413). -/
def EngineJob.nonIdempotent (j : EngineJob) : Bool := j.pb || j.dk || j.ik || j.ok

/-- The element size of a copy. -/
def EngineJob.esz (j : EngineJob) : Nat := 2 ^ j.num 17 1
/-- NDIM. -/
def EngineJob.ndim (j : EngineJob) : Nat := j.num 16 1
/-- EXT of dimension k. -/
def EngineJob.ext (j : EngineJob) (k : Nat) : Nat := j.num (24 + 4 * k) 4
/-- The elements of a copy. -/
def EngineJob.elements (j : EngineJob) : Nat := (List.range j.ndim).foldl (fun n k => n * j.ext k) 1
/-- A signed 32-bit field. -/
def EngineJob.int (j : EngineJob) (off : Nat) : Int := (BitVec.ofNat 32 (j.num off 4)).toInt

/-- The bytes of one index (R235). -/
def EngineJob.isz (j : EngineJob) : Nat := if j.num 36 1 < 2 then 4 else 8
/-- COUNT. -/
def EngineJob.count (j : EngineJob) : Nat := j.num 24 4
/-- ROW. -/
def EngineJob.row (j : EngineJob) : Nat := j.num 28 4

/-- The parts of an operation: the elements of a copy, the 4-byte parts of a gather's rows. -/
def EngineJob.parts (j : EngineJob) : Nat := if j.gather then j.count * (j.row / 4) else j.elements
/-- The bytes of a part. -/
def EngineJob.partBytes (j : EngineJob) : Nat := if j.gather then 4 else j.esz

/-! ## Checks at issue (R233, R236) -/

/-- Whether n bytes of the descriptor from an offset are zero. -/
def EngineJob.zero (j : EngineJob) (off n : Nat) : Bool := decide (j.num off n = 0)

/-- Whether a copy's fields are as R231 has them. -/
def EngineJob.copyFields (j : EngineJob) : Bool :=
  decide (1 ≤ j.ndim) && decide (j.ndim ≤ 9) && decide (j.num 17 1 ≤ 4) && decide (j.num 18 1 < 16) && decide (j.blvl ≤ 4) &&
  j.zero 22 2 && j.zero 124 4 &&
  (List.range 9).all (fun k => if k < j.ndim then !j.zero (24 + 4 * k) 4 else j.zero (24 + 4 * k) 4) &&
  (List.range 8).all (fun k => decide (k + 1 < j.ndim) || (j.zero (60 + 4 * k) 4 && j.zero (92 + 4 * k) 4)) &&
  (!j.dk || (decide (j.num 8 1 < 16) && j.zero 9 7)) &&
  decide (j.esz * j.elements < 2 ^ 36)

/-- Whether a gather's fields are as R235 has them. -/
def EngineJob.gatherFields (j : EngineJob) : Bool :=
  decide (1 ≤ j.count) && decide (j.count ≤ 65536) && decide (j.row % 4 = 0) && decide (4 ≤ j.row) && decide (j.row ≤ 4096) &&
  decide (1 ≤ j.num 32 4) && decide (j.num 32 4 ≤ 2 ^ 31) && decide (j.num 36 1 ≤ 3) && decide (j.num 37 1 < 64) &&
  decide (j.blvl ≤ 4) && j.zero 39 1 && j.zero 42 6 && j.zero 56 8 &&
  (!j.ik || (decide (j.num 8 1 < 16) && j.zero 9 7)) && (!j.ok || (decide (j.num 16 1 < 16) && j.zero 17 7))

/-- The tray of an operation's bundle under a name. -/
def State.jobTray (s : State) (j : EngineJob) (name : Nat) : Option (Nat × Tray) :=
  s.trayOf j.warp.coreId (s.warp j.warp).bslot name

/-- Whether a named tray is configured with a slot size that divides n bytes. -/
def State.traySuits (s : State) (j : EngineJob) (name n : Nat) : Bool :=
  match s.jobTray j name with
  | some t => decide (n % t.2.size = 0)
  | none => false

/-- Whether the trays of a descriptor are as R233 and R236 ask. -/
def State.traysSuit (s : State) (j : EngineJob) : Bool :=
  (!j.dk || s.traySuits j (j.num 8 1) (j.esz * j.elements)) &&
  (!j.ik || s.traySuits j (j.num 8 1) (j.count * j.isz)) &&
  (!j.ok || s.traySuits j (j.num 16 1) (j.count * j.row))

/-- The lowest subcode of the checks that a descriptor fails, its address apart; `addTray` where the instruction adds to the
destination of a copy into a tray. -/
def State.engineCheck (s : State) (j : EngineJob) (addTray : Bool) : Option Nat :=
  firstCode [
    (addTray || !(if j.gather then j.gatherFields else j.copyFields), 0x32),
    (!s.traysSuit j, 0x33),
    (j.pb != decide (j.blvl ≠ 0), 0x34)]

/-! ## CPY and GTH (R413) -/

/-- A descriptor with a value added to the 8-byte field at an offset. -/
def addToField (v : BitVec 64) (off : Nat) (d : List Byte) : List Byte :=
  d.take off ++ bytesOfNat 8 (natOfBytes ((d.drop off).take 8) + v.toNat) ++ d.drop (off + 8)

/-- Both of two operands, or the trap that comes first. -/
def operandPair (x : Except Trap (BitVec 32)) (y : Except Trap (BitVec 64)) : Except Trap (BitVec 32 × BitVec 64) :=
  match x, y with
  | .ok v, .ok w => .ok (v, w)
  | .error e, .ok _ => .error e
  | .ok _, .error e => .error e
  | .error e, .error f => .error (if checkRank f < checkRank e then f else e)

/-- The operands of CPY or GTH that every active lane must have. -/
def engineOperands (p : BitVec 26) (a b : BitVec 7) (c : LaneCtx) : Except Trap (BitVec 32 × BitVec 64) :=
  operandPair (c.word (fld a) 0) (if p.extractLsb' 0 2 = 0 then .ok 0 else c.pairOf (fld b) 2 4)

/-- The operation that l0 asks for, from its descriptor's bytes, or the trap of a check (R413). -/
def State.engineJob (s : State) (gather : Bool) (p : BitVec 26) (o : BitVec 32) (v : BitVec 64) (act : List LaneCtx) (l0 : LaneCtx) :
    Except Trap EngineJob :=
  let n := if gather then 64 else 128
  let bad (sub : Nat) : Trap := Trap.sync 4 sub (BitVec.setWidth 64 o)
  if o.toNat % n ≠ 0 ∨ l0.bundle.scrBytes < o.toNat + n then .error (bad 0x31)
  else
    let w := l0.tid.warp
    let d := s.scrBytesAt w.coreId l0.warp.bslot o.toNat n
    let d := if p.getLsbD 0 then addToField v 0 d else d
    let dk := !gather && (nth 0 d 18).getLsbD 0
    let d := if p.getLsbD 1 && !dk then addToField v 8 d else d
    let j : EngineJob :=
      { id := s.fresh, gather := gather, warp := w, desc := d
        lanes := act.map (fun c => (c.lane, (s.thread c.tid).repc, (s.thread c.tid).recn)), sent := if gather then [0] else []
        suspended := none, fills := [], committed := 0, pops := [], rowPops := [], got := [], asked := [], done := [], before := [] }
    if j.nonIdempotent && !onlyControlAfter l0.group.words l0.group.next then .error (l0.code00 0x12)
    else
      match s.engineCheck j (p.getLsbD 1 && dk) with
      | some sub => .error (bad sub)
      | none => .ok j

/-- The operation of an issue, or its trap. -/
def State.engineIssue (s : State) (gather : Bool) (p : BitVec 26) (a b : BitVec 7) (act : List LaneCtx) (l0 : LaneCtx) :
    Except Trap EngineJob :=
  match engineOperands p a b l0 with
  | .error t => .error t
  | .ok v => s.engineJob gather p v.1 v.2 act l0

/-- Whether an engine's queue, or its warp's counter, is full (R234, R236, R412). -/
def State.engineFull (s : State) (gather : Bool) (w : WarpId) : Bool :=
  if gather then decide (16 ≤ (s.jobs.countP (fun j => j.gather && decide (j.warp.coreId = w.coreId)))) || decide (255 ≤ (s.warp w).gth)
  else decide (64 ≤ (s.jobs.countP (fun j => !j.gather && decide (j.warp.die = w.die) && decide (j.warp.coreId.cluster = w.coreId.cluster)))) ||
    decide (255 ≤ (s.warp w).cpy)

/-- An operation started: queued, counted, and its region's end marked where it is not idempotent. -/
def State.startJob (s : State) (j : EngineJob) (act : List LaneCtx) : State :=
  let s := ({ s with fresh := s.fresh + 1, jobs := s.jobs ++ [j] }).onWarp j.warp (fun w => w.issueOp (if j.gather then 1 else 0) j.id)
  if j.nonIdempotent then markNew act s else s

/-- CPY or GTH carried out once for the warp: a release at CLU scope, then the checks and the start (R413). -/
def runEngine (i : Instr) (gather : Bool) (p : BitVec 26) (a b : BitVec 7) (s : State) : State :=
  let act := if (encodingFault i).isSome then [] else activeLanes i s
  let chk (c : LaneCtx) : Except Trap Unit := (engineOperands p a b c).map (fun _ => ())
  let go (s : State) : State :=
    runOnce i chk (fun l0 act => (s.engineIssue gather p a b act l0).map (fun j s => s.startJob j act)) s
  match act, firstFault chk act with
  | l0 :: _, none =>
    match s.engineIssue gather p a b act l0 with
    | .ok _ => if s.engineFull gather l0.tid.warp then holdIssue s else s.gated (act.map (fun c => (c.tid, 3))) go
    | .error _ => go s
  | _, _ => go s

/-- CPY (R413). -/
def execCpy (pfx : BitVec 26) (g : BitVec 4) (h : BitVec 1) (d a b : BitVec 7) (s : State) : Host.Outcome State Fault Refusal :=
  .next (runEngine (.cpy pfx g h d a b) false pfx a b s)

/-- GTH (R413). -/
def execGth (pfx : BitVec 26) (g : BitVec 4) (h : BitVec 1) (d a b : BitVec 7) (s : State) : Host.Outcome State Fault Refusal :=
  .next (runEngine (.gth pfx g h d a b) true pfx a b s)

/-! ## Why a part cannot be moved now -/

/-- A fault; a parkable one; a sector to come to rest, to be written or read; bytes of another module to be asked for; or a wait
for a tray slot, a refresh or storage still being added; n bytes of a replicable page to be brought to the die; a page to be
walked for (R192). -/
inductive EngStop where
  | fault (t : Trap)
  | parks (sub kind : Nat) (va : BitVec 64)
  | wait (sec : Nat) (write : Bool)
  | ask (pa n : Nat)
  | hold
  | replica (pa n : Nat)
  | walk (kind : Nat) (va : BitVec 64)
  deriving DecidableEq, Repr

/-- A translation fault of a unit that works for a warp. -/
def State.unitDenied (s : State) (w : WarpId) (sub kind : Nat) (parks : Bool) (va : BitVec 64) : EngStop :=
  if parks && s.parking w.die (s.bundle w).asid then .parks sub kind va else .fault (Trap.sync 3 sub va)

/-- The machine event of an address of this module, if it meets one: a memory die out, a sector lost, or a request for far memory that the
host has ended with an error (R64, R106, R114). -/
def State.memEvent (s : State) (die pa : Nat) : Option EngStop :=
  if farBase ≤ pa % 2 ^ 44 then
    (if s.farFailed die (sectorOf (pa % 2 ^ 44)) then some (.fault (eventTrap 0x46 pa false)) else none)
  else if s.localOut then some (.fault (eventTrap 0x47 pa false))
  else if (s.homeEntry (sectorOf (pa % 2 ^ 44))).lostb then some (.fault (eventTrap 0x42 pa false))
  else none

/-- n bytes of this module's memory as a die's cache may read them. -/
def State.engPeek (s : State) (die pa n : Nat) : Except EngStop (List Byte) :=
  match s.memEvent die pa with
  | some e => .error e
  | none =>
    match s.peekBytes die (pa % 2 ^ 44) n with
    | some bs => .ok bs
    | none => .error (.wait (sectorOf (pa % 2 ^ 44)) false)

/-- n bytes of a replicable page, within one sector, from the die's own copy of it (R66, R67). -/
def State.replicaPeek (s : State) (die pa n : Nat) : Except EngStop (List Byte) :=
  match s.memEvent die pa with
  | some e => .error e
  | none =>
    let l := s.line die (sectorOf (pa % 2 ^ 44))
    if l.allows false && !s.stalled die (sectorOf (pa % 2 ^ 44)) then .ok ((List.range n).map (fun i => BitVec.ofNat 8 (byteAt l.data.toNat (pa % 64 + i))))
    else .error (.replica (pa % 2 ^ 44) n)

/-- n bytes that a place holds, for an operation that has been given what it asked of other modules. -/
def State.readPlace (s : State) (die : Nat) (got : List (Nat × List Byte)) (p : At) (n : Nat) : Except EngStop (List Byte) :=
  match p with
  | .scr c b off => .ok (s.scrBytesAt c b off n)
  | .weights off =>
    if s.refreshing (weightBank off) then .error .hold else .ok (readCells (weightKey die off) s.weights n)
  | .mem pa leaf =>
    if pa / 2 ^ 44 = s.nmod then
      if pteRepl leaf && decide (pa % 2 ^ 44 < localEnd) then s.replicaPeek die pa n else s.engPeek die pa n
    else
      match lookup? pa got with
      | some bs => .ok bs
      | none => .error (.ask pa n)

/-- n bytes at an address, within one sector, read by a unit that works for a warp and has been given `got` by other modules. -/
def State.unitRead (s : State) (w : WarpId) (got : List (Nat × List Byte)) (va : BitVec 64) (n : Nat) : Except EngStop (List Byte) :=
  match s.locate w va n 0 0 with
  | .trap t => .error (.fault t)
  | .denied sub p => .error (s.unitDenied w sub 0 p va)
  | .walk => .error (.walk 0 va)
  | .hold => .error .hold
  | .here p => s.readPlace w.die got p n

/-- Bytes stored at an address, within one sector, by a unit that works for a warp; those of another module are asked for
(R233). -/
def State.unitWrite (s : State) (w : WarpId) (rcl : Nat → BitVec 2) (va : BitVec 64) (bs : List Byte) : Except EngStop State :=
  let n := bs.length
  match s.locate w va n 1 0 with
  | .trap t => .error (.fault t)
  | .denied sub p => .error (s.unitDenied w sub 1 p va)
  | .walk => .error (.walk 1 va)
  | .hold => .error .hold
  | .here (.scr c b off) => .ok (s.scrWrite c b off n (natOfBytes bs))
  | .here (.weights _) => .error (.fault (Trap.sync 3 2 va))
  | .here (.mem pa leaf) =>
    if pa / 2 ^ 44 = s.nmod then
      match s.memEvent w.die pa with
      | some e => .error e
      | none =>
        let sec := sectorOf (pa % 2 ^ 44)
        match s.pokeBytes w.die (pa % 2 ^ 44) bs with
        | some s => .ok (s.touchLine w.die sec (rcl leaf))
        | none => .error (.wait sec true)
    else .error (.ask pa n)

/-- An access of an engine to another module. -/
def engAccess (j : EngineJob) (kind : AccKind) (va : BitVec 64) (pa n data : Nat) : Access :=
  { laneAccess ⟨j.warp, 0⟩ j.id kind va pa n j.rcl with who := .engine j.id, wdata := BitVec.ofNat 512 data }

/-- A packet of an engine put in its die's unit. -/
def State.engHold (s : State) (j : EngineJob) (n : NPacket) (a : Access) : State :=
  s.holdPacket j.warp.die ⟨n, [a], some j.warp, j.id, (s.bundle j.warp).grid, none, false⟩

/-- n bytes read for an engine. -/
def State.engRead (s : State) (j : EngineJob) (va : BitVec 64) (n : Nat) : Except EngStop (List Byte) := s.unitRead j.warp j.got va n

/-- Whether an address lies in global memory. -/
def isGlobal (va : BitVec 64) : Bool := va.extractLsb' 56 8 == 0

/-- Bytes stored for an engine; those of another module go into its die's unit. Weigh monitors watch what it writes (R243). -/
def State.engWrite (s : State) (j : EngineJob) (va : BitVec 64) (bs : List Byte) : Except EngStop State :=
  let x := natOfBytes bs
  let seen (s : State) : State := if isGlobal va then s.watch j.warp va.toNat bs.length x else s
  match s.unitWrite j.warp (fun _ => j.rcl) va bs with
  | .error (.ask pa n) =>
    .ok ((seen s).engHold j (remotePacket 2 pa n 0 0 0 (blockFlits [] pa n x)) (engAccess j .write va pa n x))
  | .error e => .error e
  | .ok s => .ok (seen s)

/-- The pieces of n bytes at an address that stay within sectors, as offsets and lengths: two aligned halves of 16 (R232). -/
def pieces (va n : Nat) : List (Nat × Nat) :=
  let cut (o n : Nat) : List (Nat × Nat) :=
    let r := 64 - (va + o) % 64
    if n ≤ r then [(o, n)] else [(o, r), (o + r, n - r)]
  if n = 16 then cut 0 8 ++ cut 8 8 else cut 0 n

/-- A read of a replicable page that goes on for n more bytes (R67). -/
def EngStop.withMore (x : EngStop) (n : Nat) : EngStop :=
  match x with
  | .replica pa k => .replica pa (k + n)
  | x => x

/-- The bytes of all pieces. -/
def State.engReadAll (s : State) (j : EngineJob) (va : BitVec 64) : List (Nat × Nat) → Except EngStop (List Byte)
  | [] => .ok []
  | p :: t =>
    match s.engRead j (va + BitVec.ofNat 64 p.1) p.2, s.engReadAll j va t with
    | .ok bs, .ok r => .ok (bs ++ r)
    | .error e, _ => .error (e.withMore (t.foldl (fun n q => n + q.2) 0))
    | _, .error e => .error e

/-- The bytes of part e stored piece by piece; what was stored before a stop stays, and is not stored again. -/
def engWriteAll (e : Nat) (va : BitVec 64) (bs : List Byte) : List (Nat × Nat) → EngineJob → State → State × EngineJob × Option EngStop
  | [], j, s => (s, j, none)
  | p :: t, j, s =>
    if j.done.contains (e, p.1) then engWriteAll e va bs t j s
    else
      match s.engWrite j (va + BitVec.ofNat 64 p.1) ((bs.drop p.1).take p.2) with
      | .ok s => engWriteAll e va bs t { j with done := j.done ++ [(e, p.1)] } s
      | .error x => (s, j, some x)

/-! ## Where a part comes from and goes to -/

/-- An address, an offset in the bundle's scratchpad, or a byte of the slots that an operation fills or takes rows from. -/
inductive Spot where
  | va (v : BitVec 64)
  | scr (off : Nat)
  | fill (off : Nat)
  | rows (off : Nat)
  deriving DecidableEq, Repr

/-- A part: its bytes, its source where it has one (zero bytes where not), its destination where it has one. -/
structure Part where
  n : Nat
  src : Option Spot
  dst : Option Spot
  deriving DecidableEq, Repr

/-- The window-0 address of a scratchpad offset; beyond the window's 52 bits there is nothing. -/
def scrVa (off : Nat) : Except EngStop (BitVec 64) :=
  if off < 2 ^ 52 then .ok (BitVec.ofNat 64 (2 ^ 56 + off)) else .error (.fault (Trap.sync 4 0x21 (BitVec.ofNat 64 (2 ^ 56 + off))))

/-- Slots claimed for filling, or popped, until an operation has more than k; none where the tray has no more to give. -/
def claimSlots (core : CoreId) (phys : Nat) (pop : Bool) (k : Nat) : Nat → List Nat → State → Option (List Nat × State)
  | 0, ls, s => if k < ls.length then some (ls, s) else none
  | n + 1, ls, s =>
    if k < ls.length then some (ls, s)
    else
      match lookup? phys (s.core core).trays with
      | none => none
      | some t =>
        if pop then (if t.fillc = 0 then none else claimSlots core phys pop k n (ls ++ [t.c]) (s.setTray core phys t.pop))
        else if t.freec = 0 then none
        else claimSlots core phys pop k n (ls ++ [t.p]) (s.setTray core phys t.reserve)

/-- The address of byte `off` of the slots of a tray that an operation fills or pops in order, once it has the slot; `ls` are
those it has. -/
def State.inSlots (s : State) (j : EngineJob) (name : Nat) (pop : Bool) (off : Nat) (ls : List Nat) :
    Except EngStop (BitVec 64 × List Nat × State) :=
  match s.jobTray j name with
  | none => .error .hold
  | some t =>
    let k := off / t.2.size
    match claimSlots j.warp.coreId t.1 pop k (k + 1) ls s with
    | none => .error .hold
    | some r => .ok (BitVec.ofNat 64 (2 ^ 56 + t.2.offset + nth 0 r.1 k * t.2.size + off % t.2.size), r.1, r.2)

/-- The address of a spot, and the operation with the slots it has claimed for it. -/
def State.spotVa (s : State) (j : EngineJob) (p : Spot) : Except EngStop (BitVec 64 × EngineJob × State) :=
  match p with
  | .va v => .ok (v, j, s)
  | .scr off => (scrVa off).map (fun v => (v, j, s))
  | .fill off =>
    (s.inSlots j (if j.gather then j.num 16 1 else j.num 8 1) false off j.fills).map (fun r => (r.1, { j with fills := r.2.1 }, r.2.2))
  | .rows off => (s.inSlots j (j.num 16 1) true off j.rowPops).map (fun r => (r.1, { j with rowPops := r.2.1 }, r.2.2))

/-- The coordinates of element e over dimensions k and up, n of them. -/
def EngineJob.coords (j : EngineJob) : Nat → Nat → Nat → List Nat
  | 0, _, _ => []
  | n + 1, k, e => e % Nat.max (j.ext k) 1 :: j.coords n (k + 1) (e / Nat.max (j.ext k) 1)

/-- The address of element e from a base and the strides that begin at an offset of the descriptor (R232). -/
def EngineJob.elementVa (j : EngineJob) (base strides e : Nat) : BitVec 64 :=
  let is := j.coords j.ndim 0 e
  let steps : Int := (List.range (j.ndim - 1)).foldl (fun x k => x + ((nth 0 is (k + 1) : Nat) : Int) * j.int (strides + 4 * k)) ((nth 0 is 0 : Nat) : Int)
  BitVec.ofNat 64 base + BitVec.ofInt 64 ((j.esz : Int) * steps)

/-- Element e of a copy. -/
def EngineJob.copyPart (j : EngineJob) (e : Nat) : Part :=
  { n := j.esz, src := some (.va (j.elementVa (j.num 0 8) 60 e))
    dst := some (if j.dk then .fill (e * j.esz) else .va (j.elementVa (j.num 8 8) 92 e)) }

/-- An index out of range: negative under a signed format, or not below BOUND (R236). -/
def EngineJob.outOfRange (j : EngineJob) (x : Int) : Bool :=
  decide (x < 0) || (decide (j.num 48 8 ≠ 0) && decide ((j.num 48 8 : Int) ≤ x))

/-- The value of an index's bytes. -/
def EngineJob.indexOf (j : EngineJob) (bs : List Byte) : Int :=
  let v := natOfBytes bs
  if j.num 36 1 = 0 then (BitVec.ofNat 32 v).toInt else if j.num 36 1 = 2 then (BitVec.ofNat 64 v).toInt else v

/-- Index i, and the operation with the index slots it has popped for it. -/
def State.readIndex (s : State) (j : EngineJob) (i : Nat) : Except EngStop (Int × EngineJob × State) :=
  let at' : Except EngStop (BitVec 64 × EngineJob × State) :=
    if j.ik then (s.inSlots j (j.num 8 1) true (i * j.isz) j.pops).map (fun r => (r.1, { j with pops := r.2.1 }, r.2.2))
    else (scrVa (j.num 8 8 + i * j.isz)).map (fun v => (v, j, s))
  match at' with
  | .error e => .error e
  | .ok (va, j, s) => (s.engReadAll j va (pieces va.toNat j.isz)).map (fun bs => (j.indexOf bs, j, s))

/-- Part p of a gather's rows: part p mod (ROW / 4) of row p / (ROW / 4), whose index is x (R236). -/
def EngineJob.gatherPart (j : EngineJob) (p : Nat) (x : Int) : Part :=
  let off := 4 * p
  let table : BitVec 64 := BitVec.ofNat 64 (j.num 0 8 + off % j.row) + BitVec.ofInt 64 (x * (j.num 32 4 : Int))
  if j.scatter then
    { n := 4, src := some (if j.ok then .rows off else .scr (j.num 16 8 + off)), dst := if j.outOfRange x then none else some (.va table) }
  else
    { n := 4, src := if j.outOfRange x then none else some (.va table), dst := some (if j.ok then .fill off else .scr (j.num 16 8 + off)) }

/-- Part e of an operation. -/
def State.partOf (s : State) (j : EngineJob) (e : Nat) : Except EngStop (Part × EngineJob × State) :=
  if j.gather then (s.readIndex j (4 * e / j.row)).map (fun r => (j.gatherPart e r.1, r.2))
  else .ok (j.copyPart e, j, s)

/-! ## Moving a part -/

/-- The pieces of a destination that no element performed already and later in coherence order covers (R232). -/
def EngineJob.uncovered (j : EngineJob) (e : Nat) (va : BitVec 64) (n : Nat) : List (Nat × Nat) :=
  let later := if j.gather || j.dk then [] else j.sent.filter (fun f => decide (e < f))
  let covers (a : BitVec 64) (f : Nat) : Bool := decide ((a - j.elementVa (j.num 8 8) 92 f).toNat < n)
  let hit (i : Nat) : Bool := later.any (covers (va + BitVec.ofNat 64 i))
  if (List.range n).any hit then (List.range n).filterMap (fun i => if hit i then none else some (i, 1)) else pieces va.toNat n

/-- The barrier slot of an operation's PEND; a fault where it is not its caller's (R228). -/
def State.pendSlot (s : State) (j : EngineJob) : Except EngStop Nat :=
  match s.barFind j.warp j.blvl j.bslot with
  | .ok n => .ok n
  | .error _ => .error (.fault (barTrap 4 j.blvl j.bslot))

/-- Landed bytes subtracted from PEND (R226, R228, R234). -/
def State.landed (s : State) (j : EngineJob) (n : Nat) : State × Option EngStop :=
  if j.pb then
    match s.pendSlot j with
    | .error e => (s, some e)
    | .ok k =>
      let r := s.subPend j.warp j.blvl k n
      (r.1, if r.2 then some (.fault (barTrap 2 j.blvl k)) else none)
  else (s, none)

/-- Whether an address's bytes go to another module, so that they land with its answer. -/
def State.goesAway (s : State) (j : EngineJob) (va : BitVec 64) : Bool :=
  match s.locate j.warp va 1 1 0 with
  | .here (.mem pa _) => decide (pa / 2 ^ 44 ≠ s.nmod)
  | _ => false

/-- A slot of a tray of the operation's bundle that it has read is spent. -/
def State.spendSlot (s : State) (j : EngineJob) (name i : Nat) : State :=
  match s.jobTray j name with
  | some t => s.setTray j.warp.coreId t.1 (t.2.spend i)
  | none => s

/-- The slots that a gather has read to their end with part e. -/
def State.spendRead (s : State) (j : EngineJob) (e : Nat) : State :=
  let size (name : Nat) : Nat := match s.jobTray j name with | some t => t.2.size | none => 1
  let s :=
    if j.scatter && j.ok && decide ((4 * e + 4) % size (j.num 16 1) = 0) then
      s.spendSlot j (j.num 16 1) (nth 0 j.rowPops (4 * e / size (j.num 16 1)))
    else s
  let read := (4 * e / j.row + 1) * j.isz
  if j.ik && decide ((4 * e + 4) % j.row = 0) && decide (read % size (j.num 8 1) = 0) then
    s.spendSlot j (j.num 8 1) (nth 0 j.pops (read / size (j.num 8 1) - 1))
  else s

/-- An operation with part e moved. -/
def EngineJob.moved (j : EngineJob) (e : Nat) : EngineJob :=
  { j with sent := if j.gather then [e + 1] else j.sent ++ [e], done := j.done.filter (fun d => decide (d.1 ≠ e)) }

/-! ## Bytes that a copy both reads and writes (R232) -/

/-- How far a copy's source reaches along dimension k, in elements. -/
def EngineJob.span (j : EngineJob) (k : Nat) : Int := ((j.ext k : Int) - 1) * (if k = 0 then 1 else j.int (60 + 4 * (k - 1)))

/-- Whether an address lies between the lowest and the highest source byte of a copy. -/
def EngineJob.maySource (j : EngineJob) (a : BitVec 64) : Bool :=
  let spans := (List.range j.ndim).map j.span
  let low := spans.foldl (fun x d => x + min d 0) 0
  let all := spans.foldl (fun n d => n + d.natAbs) 1
  decide ((a - (BitVec.ofNat 64 (j.num 0 8) + BitVec.ofInt 64 ((j.esz : Int) * low))).toNat < j.esz * all)

/-- A copy that keeps the values that bytes from an address on had before it, unless it keeps them already. -/
def EngineJob.noteBefore (j : EngineJob) (a : BitVec 64) (bs : List Byte) : EngineJob :=
  let news := bs.zipIdx.map (fun b => (a + BitVec.ofNat 64 b.2, b.1))
  { j with before := j.before ++ news.filter (fun n => (lookup? n.1 j.before).isNone) }

/-- The operation with the values before the copy of the destination bytes of some pieces, where it may yet read them. Of another module's
bytes none is kept (log 128). -/
def State.keepBefore (s : State) (j : EngineJob) (va : BitVec 64) : List (Nat × Nat) → Except EngStop EngineJob
  | [] => .ok j
  | p :: t =>
    let a := va + BitVec.ofNat 64 p.1
    if j.gather || !(List.range p.2).any (fun i => j.maySource (a + BitVec.ofNat 64 i)) || s.goesAway j a then s.keepBefore j va t
    else
      match s.engRead j a p.2 with
      | .error x => .error x
      | .ok bs => s.keepBefore (j.noteBefore a bs) va t

/-- Source bytes from an address on, at their i-th: one that the copy has overwritten reads as it was before or as it is now, an open
choice for each byte. -/
def eitherBytes (before : List (BitVec 64 × Byte)) (va : BitVec 64) : Nat → List Byte → State → List Byte × State
  | _, [], s => ([], s)
  | i, b :: t, s =>
    match lookup? (va + BitVec.ofNat 64 i) before with
    | none => let r := eitherBytes before va (i + 1) t s; (b :: r.1, r.2)
    | some old =>
      let c := s.choose
      let r := eitherBytes before va (i + 1) t c.2
      ((if c.1 then old else b) :: r.1, r.2)

/-- The bytes of a part's source. -/
def State.partBytes (s : State) (j : EngineJob) (p : Part) : Except EngStop (List Byte × EngineJob × State) :=
  match p.src with
  | none => .ok (List.replicate p.n 0, j, s)
  | some q =>
    match s.spotVa j q with
    | .error e => .error e
    | .ok (va, j, s) =>
      match s.engReadAll j va (pieces va.toNat p.n) with
      | .error e => .error e
      | .ok bs => let r := eitherBytes j.before va 0 bs s; .ok (r.1, j, r.2)

/-- A part's bytes stored, and counted towards PEND where they have landed. -/
def State.storePart (s : State) (j : EngineJob) (e : Nat) (p : Part) (bs : List Byte) : State × EngineJob × Option EngStop :=
  match p.dst with
  | none => let r := s.landed j p.n; (r.1, j, r.2)
  | some q =>
    match s.spotVa j q with
    | .error e => (s, j, some e)
    | .ok (va, j, s) =>
      let todo := j.uncovered e va p.n
      match s.keepBefore j va todo with
      | .error x => (s, j, some x)
      | .ok j =>
        match engWriteAll e va bs todo j s with
        | (s, j, some x) => (s, j, some x)
        | (s, j, none) =>
          let away := todo.filter (fun x => s.goesAway j (va + BitVec.ofNat 64 x.1))
          let here := p.n - away.foldl (fun n x => n + x.2) 0
          let r := if here = 0 then (s, none) else s.landed j here
          (r.1, j, r.2)

/-- The bytes from the end of part e to the end of its contiguous run of the source: dimension 0 of a copy, a gather's row. -/
def EngineJob.runLeft (j : EngineJob) (e : Nat) : Nat :=
  if j.gather then j.row - 4 * e % j.row - 4 else (j.ext 0 - e % Nat.max (j.ext 0) 1 - 1) * j.esz

/-- Part e of an operation moved: the state, and why it could not be. -/
def State.movePart (s : State) (j : EngineJob) (e : Nat) : State × Option EngStop :=
  match s.partOf j e with
  | .error x => (s, some x)
  | .ok (p, j, s1) =>
    match s1.partBytes j p with
    | .error x => (s, some (x.withMore (j.runLeft e)))
    | .ok (bs, j, s2) =>
      match s2.storePart j e p bs with
      | (s3, j, none) => (((s3.setJob (j.moved e)).spendRead j e), none)
      | (s3, j, some x) => (s3.setJob j, some x)

/-! ## What follows a stop -/

/-- The sectors of one 256-byte unit that n bytes from an address need (R67). -/
def unitSectors (pa n : Nat) : List Nat :=
  (List.range 4).filterMap (fun i =>
    let x := pa / 256 * 4 + i
    if sectorOf pa ≤ x && decide (x * 64 < pa + n) then some x else none)

/-- A stop of an operation acted on (R196, R233): it ends with its fault, suspends in a fault slot, or waits. -/
def State.stopJob (s : State) (id : Nat) (x : EngStop) : State :=
  match s.job? id with
  | none => s
  | some j =>
    let die := j.warp.die
    match x with
    | .fault t => s.endJob j t
    | .parks sub kind va =>
      let r := s.takeSlot die { faultSlot (s.bundle j.warp).asid va sub kind with copies := [(id, va)] }
      match r.1 with
      | some n => r.2.suspendJob n id
      | none => (r.2.onDie die (fun v => { v with
          slotWaits := v.slotWaits ++ [({ faultSlot (s.bundle j.warp).asid va sub kind with copies := [(id, va)] }, none)] })).suspendJob 256 id
    | .wait sec write => s.wantSector die sec write j.rcl
    | .replica pa n => s.fetchReplicas die (unitSectors pa n)
    | .walk kind va => s.addWalk (s.bundle j.warp).asid ⟨j.warp.coreId, .engine id, va, kind⟩
    | .ask pa n =>
      if j.asked.contains pa then s
      else (s.setJob { j with asked := j.asked ++ [pa] }).engHold j (remotePacket 1 pa n 0 0 0 []) (engAccess j .read 0 pa n 0)
    | .hold => s

/-- The next part of an operation that has not been moved, if there is one. -/
def EngineJob.nextPart (j : EngineJob) : Option Nat :=
  let k := if j.gather then some (nth 0 j.sent 0) else (List.range (j.sent.length + 1)).find? (fun e => !j.sent.contains e)
  match k with
  | some e => if e < j.parts then some e else none
  | none => none

/-- Whether part e of an operation may be moved next. -/
def EngineJob.mayMove (j : EngineJob) (e : Nat) : Bool :=
  j.suspended.isNone && decide (e < j.parts) && (if j.gather then j.nextPart == some e else !j.sent.contains e)

/-- Whether an engine works on an operation now: a copy engine on the first eight of its queue (R234). -/
def State.working (s : State) (j : EngineJob) : Bool :=
  let mine := s.jobs.filter (fun x => !x.gather && decide (x.warp.die = j.warp.die) && decide (x.warp.coreId.cluster = j.warp.coreId.cluster))
  j.gather || (mine.take 8).any (fun x => decide (x.id = j.id))

/-- One part of an operation moved, or what stops it acted on. -/
def State.oneElement (s : State) (id e : Nat) : State :=
  match s.job? id with
  | none => s
  | some j =>
    if s.working j && j.mayMove e then
      match s.movePart j e with
      | (s, none) => s
      | (s, some x) => s.stopJob id x
    else s

/-- The bytes that other modules have answered for, subtracted from PEND: entries of `got` above every address. -/
def State.landAnswers (s : State) (id : Nat) : State :=
  match s.job? id with
  | none => s
  | some j =>
    let n := (j.got.filter (fun g => decide (2 ^ 52 ≤ g.1))).foldl (fun n g => n + g.2.length) 0
    if n = 0 then s
    else
      let j := { j with got := j.got.filter (fun g => decide (g.1 < 2 ^ 52)) }
      match (s.setJob j).landed j n with
      | (s, some x) => s.stopJob id x
      | (s, none) => s

/-- Whether an operation has anything outstanding at other modules. -/
def State.engAway (s : State) (j : EngineJob) : Bool :=
  let r := s.rau j.warp.die
  r.held.any (fun h => h.accs.any (fun a => decide (a.who = .engine j.id))) ||
  r.txns.any (fun t => t.accs.any (fun a => decide (a.who = .engine j.id)))

/-- Whether a claimed slot k has been committed. -/
def EngineJob.slotCommitted (j : EngineJob) (k : Nat) : Bool := j.committed.testBit k

/-- An operation that has moved all, committed every slot and has nothing outstanding retires (R216, R234). -/
def State.retireJob (s : State) (id : Nat) : State :=
  match s.job? id with
  | none => s
  | some j =>
    if j.nextPart.isNone && (List.range j.fills.length).all j.slotCommitted && !s.engAway j && j.got.all (fun g => decide (g.1 < 2 ^ 52)) then
      ({ s with jobs := s.jobs.filter (fun x => decide (x.id ≠ id)) }).opDone j.warp (if j.gather then 1 else 0) id
    else s

/-- Parts moved in ascending order until none is left or one stops, n at most. -/
def movesOf (id : Nat) : Nat → State → State
  | 0, s => s
  | n + 1, s =>
    match s.job? id with
    | none => s
    | some j =>
      match j.nextPart with
      | none => s
      | some e =>
        if s.working j && j.mayMove e then
          match s.movePart j e with
          | (s, none) => movesOf id n s
          | (s, some x) => s.stopJob id x
        else s

/-- An operation carried to its end, or as far as it gets. -/
def State.finishJob (s : State) (j : EngineJob) : State :=
  ((movesOf j.id (j.parts - j.sent.length + 1) s).landAnswers j.id).retireJob j.id

/-! ## The engines' events -/

/-- COPY_DONE: the copy picked moves what is left of it, and retires when its last byte is performed (R234). -/
def execCopyDone (s : State) : Host.Outcome State Fault Refusal :=
  match nth? s.jobs s.pick with
  | none => .next s
  | some j => if j.gather then .next s else .next (s.finishJob j)

/-- GATHER_DONE: the gather or scatter picked moves what is left of it, in the order of its indices, and retires (R236). -/
def execGatherDone (s : State) : Host.Outcome State Fault Refusal :=
  match nth? s.jobs s.pick with
  | none => .next s
  | some j => if j.gather then .next (s.finishJob j) else .next s

/-- Whether a stop is a fault. -/
def EngStop.faults (x : EngStop) : Bool :=
  match x with
  | .fault _ => true
  | .parks _ _ _ => true
  | _ => false

/-- COPY_FAULT: operation k meets the fault of its part e: it ends there, or suspends (R233). -/
def execCopyFault (k e : Nat) (s : State) : Host.Outcome State Fault Refusal :=
  match nth? s.jobs k with
  | none => .next s
  | some j =>
    if s.working j && j.mayMove e then
      match s.movePart j e with
      | (_, none) => .next s
      | (s', some x) => if x.faults then .next (s'.stopJob j.id x) else .next s
    else .next s

/-- Whether every byte of claimed slot k of an operation has been performed. -/
def EngineJob.slotFull (j : EngineJob) (size k : Nat) : Bool :=
  if j.gather then decide ((k + 1) * size ≤ 4 * nth 0 j.sent 0)
  else (List.range (size / j.esz)).all (fun i => j.sent.contains (k * (size / j.esz) + i))

/-- ENGINE_SLOT_COMMIT: the slot that stands at place pick / 65536 among those that operation pick mod 65536 claimed (R238). -/
def execEngineSlotCommit (s : State) : Host.Outcome State Fault Refusal :=
  let k := s.pick / 65536
  match nth? s.jobs (s.pick % 65536) with
  | none => .next s
  | some j =>
    match s.jobTray j (if j.gather then j.num 16 1 else j.num 8 1), nth? j.fills k with
    | some t, some i =>
      if j.slotCommitted k || !j.slotFull t.2.size k then .next s
      else .next (((s.setTray j.warp.coreId t.1 (t.2.commit i)).setJob { j with committed := j.committed + 2 ^ k }).retireJob j.id)
    | _, _ => .next s

end Sys2Proof.Machine
end

