-- ==== Sys2Proof/Machine/Matrix.lean ====
section
/-! DEFINITION. The matrix unit of each partition: operand records and their checks (R390 to R396), the sums (R288, R289), commits
and faults (R386 to R389, R397, R404), and tile transfers (R405 to R408). -/

namespace Sys2Proof.Machine

/-! ## Formats (R390, R393) -/

/-- The tag whose elements a format code names. -/
def fmtTag (f : Nat) : BitVec 4 :=
  nth 0 [tagBF16, tagF16, tagS16, tagS8, tagN8, tagT8, tagT6, tagF32, tagF64, tagS32] f

/-- The unit that BASE and STRIDE are aligned to: the element, or the word of T6. -/
def fmtUnit (f : Nat) : Nat := if f = 3 ∨ f = 4 ∨ f = 5 then 1 else if f < 3 then 2 else if f = 8 then 8 else 4

/-- The bytes of a line of p positions (R391). -/
def lineBytes (f p : Nat) : Nat := if f = 6 then (p + 4) / 5 * 4 else p * fmtUnit f

/-- The tile tag and the inner dimension of a pairing (R393). -/
def pairing (a b : Nat) : Option (BitVec 4 × Nat) :=
  let s8 (f : Nat) : Bool := f == 3 || f == 4
  let either (p : Nat → Bool) : Bool := (s8 a && p b) || (p a && s8 b)
  if (a = 0 ∧ b = 0) ∨ (a = 1 ∧ b = 1) then some (tagF32, 64)
  else if a = 2 ∧ b = 2 then some (tagS32, 64)
  else if s8 a && s8 b then some (tagS32, 128)
  else if a = 5 ∧ b = 5 then some (tagF32, 128)
  else if either (fun f => f == 5 || f == 6) then some (tagF32, 128)
  else if a = 6 ∧ b = 6 then some (tagF32, 256)
  else if either (fun f => f == 0 || f == 1) then some (tagF32, 64)
  else if a = 7 ∧ b = 7 then some (tagF32, 16)
  else if a = 8 ∧ b = 8 then some (tagF64, 4)
  else none

/-- The products summed before a rounding: 32 for formats of 16 bits and narrower, one for F32 and F64 (R289). -/
def groupSize (f : Nat) : Nat := if f = 7 ∨ f = 8 then 1 else 32

/-! ## Operand records (R390) -/

/-- n bytes of a record from an offset. -/
def opNum (r : List Byte) (off n : Nat) : Nat := natOfBytes ((r.drop off).take n)
/-- BASE. -/
def opBase (r : List Byte) : Nat := opNum r 0 8
/-- SBASE. -/
def opSbase (r : List Byte) : Nat := opNum r 8 8
/-- STRIDE. -/
def opStride (r : List Byte) : Nat := opNum r 16 4
/-- SSTR. -/
def opSstr (r : List Byte) : Nat := opNum r 20 2
/-- EXTO. -/
def opExto (r : List Byte) : Nat := opNum r 22 1
/-- FMT. -/
def opFmt (r : List Byte) : Nat := opNum r 23 1
/-- EXTK. -/
def opExtk (r : List Byte) : Nat := opNum r 24 2
/-- MAJ. -/
def opMaj (r : List Byte) : Bool := (opNum r 26 1).testBit 0
/-- MC. -/
def opMc (r : List Byte) : Bool := (opNum r 26 1).testBit 1
/-- The lines that hold elements: their number and the positions read of each (R391). -/
def opLines (r : List Byte) : Nat := if opMaj r then opExtk r else opExto r
/-- See `opLines`. -/
def opPositions (r : List Byte) : Nat := if opMaj r then opExto r else opExtk r
/-- The scale blocks that hold an element (R392). -/
def opBlocks (r : List Byte) : Nat := (opExtk r + 31) / 32

/-- Whether a base and a stride fit a format's alignment. -/
def aligned (base stride f : Nat) : Bool := decide (base % fmtUnit f = 0) && decide (stride % fmtUnit f = 0)

/-- Whether a record's fields are as R390 has them, with at most `outer` lines and `k` inner elements. -/
def recordOk (r : List Byte) (outer k : Nat) : Bool :=
  decide (opNum r 26 1 < 32) && decide (opNum r 27 5 = 0) && decide (opFmt r ≤ 9) && decide (opStride r < 2 ^ 31) &&
  decide (1 ≤ opExto r) && decide (opExto r ≤ outer) && decide (1 ≤ opExtk r) && decide (opExtk r ≤ k) &&
  aligned (opBase r) (opStride r) (opFmt r)

/-- Whether an address is in window 3 to 15 (R180). -/
def badWindow (va : Nat) : Bool := va.testBit 56 && decide (3 ≤ bitsAt va 52 4)

/-- The stretches of a line or row of n bytes that stay within 64-byte sectors: offset and length; `k` bounds their number. -/
def stretches (va : Nat) : Nat → Nat → Nat → List (Nat × Nat)
  | 0, _, _ => []
  | k + 1, off, n =>
    if n = 0 then []
    else
      let m := Nat.min n (64 - (va + off) % 64)
      (off, m) :: stretches va k (off + m) (n - m)

/-- The stretches of n bytes from an address. -/
def stretchesOf (va n : Nat) : List (Nat × Nat) := stretches va (n / 64 + 2) 0 n

/-- Whether n bytes that begin `rel` bytes from a base lie within the valid offsets of the base's window; global memory has no
such bound (R396 step 6). -/
def State.windowHolds (s : State) (w : WarpId) (base rel n : Nat) : Bool :=
  let win := bitsAt base 52 4
  let off := bitsAt base 0 52 + rel
  if !base.testBit 56 then true
  else if win = 0 then decide (off + n ≤ (s.bundle w).scrBytes)
  else if win = 1 then
    (stretchesOf off n).all (fun p =>
      match s.inCluster w 0 (off + p.1) p.2 with
      | .here _ => true
      | _ => false)
  else decide (win = 2) && decide (off + n ≤ 0x20000000)

/-- Whether every line and scale of an operand lies within its window. -/
def State.operandHolds (s : State) (w : WarpId) (r : List Byte) : Bool :=
  (List.range (opLines r)).all (fun l => s.windowHolds w (opBase r) (l * opStride r) (lineBytes (opFmt r) (opPositions r))) &&
  (decide (opSbase r = 0) || (List.range (opExto r)).all (fun o => s.windowHolds w (opSbase r) (o * opSstr r) (opBlocks r)))

/-! ## Tiles and their segments (R386) -/

/-- A tile of a warp; unmapped is none. -/
def Warp.tile? (w : Warp) (c : Nat) : Option Tile := lookup? c w.tiles

/-- The state with a tile of a warp replaced. -/
def State.setTile (s : State) (w : WarpId) (c : Nat) (t : Tile) : State := s.onWarp w (fun v => { v with tiles := put c t v.tiles })

/-- A tile unmapped. -/
def State.dropTile (s : State) (w : WarpId) (c : Nat) : State := s.onWarp w (fun v => { v with tiles := drop c v.tiles })

/-- The segments that tiles of a partition occupy. -/
def State.tileSegs (s : State) (w : WarpId) : List Nat :=
  (s.warps.filter (fun p => decide (p.1.coreId = w.coreId) && decide (p.1.part = w.part))).flatMap (fun p =>
    p.2.tiles.flatMap (fun t => t.2.segs))

/-- The free segments of a warp's allotment in its quadrant, in ascending order. -/
def State.freeMxs (s : State) (w : WarpId) : List Nat :=
  let used := s.tileSegs w
  ((s.core w.coreId).segs.zipIdx.filter (fun p =>
    decide (p.2 / 10 = w.part) && decide (p.1.role = .mxs) && !p.1.wrg && p.1.own == some (s.warp w).bslot && !used.contains p.2)).map
    Prod.snd

/-- The segments of a tile of a tag. -/
def tileSegCount (t : BitVec 4) : Nat := if t = tagF64 then 2 else 1

/-- Element (i, j) of a tile. -/
def Tile.elem (t : Tile) (i j : Nat) : BitVec 64 := lookupD (64 * i + j) 0 t.elems

/-- The tag that a tile has, or will have once what is queued for it commits; F32 where it is unmapped. -/
def Warp.tileTag (w : Warp) (c : Nat) : BitVec 4 := match w.tile? c with | some t => t.tag | none => tagF32

/-- Whether a tile's segments are being moved, so that operations that name it are held (R171 step 3). -/
def State.tileMoving (s : State) (w : WarpId) (c : Nat) : Bool :=
  match (s.warp w).tile? c with
  | some t => t.segs.any (fun n => match nth? (s.core w.coreId).segs n with | some g => g.wrg | none => false)
  | none => false

/-- A trap of R396 whose detail is a number. -/
def mtxTrap (sub n : Nat) : Trap := Trap.sync 4 sub (BitVec.ofNat 64 n)

/-- What a write into a tile of a tag needs: nothing where it is mapped under that tag, or free segments (R396 steps 7, 8). -/
def State.tileCheck (s : State) (w : WarpId) (c : Nat) (t : BitVec 4) : Except Trap Unit :=
  match (s.warp w).tile? c with
  | some v => if v.tag = t then .ok () else .error (mtxTrap 0x56 c)
  | none => if (s.freeMxs w).length < tileSegCount t then .error (mtxTrap 0x57 c) else .ok ()

/-- A tile's segments reserved, where it is unmapped; whether they were. -/
def State.reserveTile (s : State) (w : WarpId) (c : Nat) (t : BitVec 4) : Bool × State :=
  match (s.warp w).tile? c with
  | some _ => (false, s)
  | none => (true, s.setTile w c { tag := t, elems := [], segs := (s.freeMxs w).take (tileSegCount t), stamp := none, live := false })

/-! ## Checks at issue (R396) -/

/-- The record at an offset of the bundle's scratchpad, 32 bytes (R396 step 1). -/
def State.mtxRecord (s : State) (w : WarpId) (o : BitVec 32) : Except Trap (List Byte) :=
  if o.toNat % 32 ≠ 0 ∨ (s.bundle w).scrBytes < o.toNat + 32 then .error (mtxTrap 0x50 o.toNat)
  else .ok (s.scrBytesAt w.coreId (s.warp w).bslot o.toNat 32)

/-- The first check of a list that fails. -/
def firstCheck : List (Bool × Trap) → Except Trap Unit
  | [] => .ok ()
  | (b, t) :: r => if b then .error t else firstCheck r

/-- Whether scales may be given for a pairing (R392). -/
def scalesAllowed (t : BitVec 4) (ra rb : List Byte) : Bool :=
  t == tagF32 && decide (opFmt ra ≠ 7) && decide (opFmt rb ≠ 7)

/-- The checks of R396 steps 2 to 6 on the records at offsets oa and ob; the tile tag. -/
def State.mmaRecords (s : State) (w : WarpId) (oa ob : Nat) (ra rb : List Byte) : Except Trap (BitVec 4) :=
  let p := pairing (opFmt ra) (opFmt rb)
  let k := match p with | some q => q.2 | none => 65535
  let t := match p with | some q => q.1 | none => 0
  let scaled (r : List Byte) : Bool := decide (opSbase r ≠ 0) && !scalesAllowed t ra rb
  let windows (r : List Byte) : Bool := badWindow (opBase r) || (decide (opSbase r ≠ 0) && badWindow (opSbase r))
  (firstCheck [
    (!recordOk ra 32 k, mtxTrap 0x51 oa), (!recordOk rb 64 k, mtxTrap 0x51 ob), (p.isNone, mtxTrap 0x52 oa),
    (scaled ra, mtxTrap 0x54 oa), (scaled rb, mtxTrap 0x54 ob),
    (windows ra, Trap.sync 3 6 (BitVec.ofNat 64 oa)), (windows rb, Trap.sync 3 6 (BitVec.ofNat 64 ob)),
    (!s.operandHolds w ra, mtxTrap 0x53 oa), (!s.operandHolds w rb, mtxTrap 0x53 ob)]).map (fun _ => t)

/-- What an MMA names, once its checks are passed. -/
structure MmaArgs where
  oa : BitVec 32
  ob : BitVec 32
  ra : List Byte
  rb : List Byte
  tag : BitVec 4
  deriving DecidableEq, Repr

/-- The checks of R396 for an MMA of a warp into tile c. -/
def State.mmaCheck (s : State) (w : WarpId) (c : Nat) (oa ob : BitVec 32) : Except Trap MmaArgs :=
  match s.mtxRecord w oa with
  | .error t => .error t
  | .ok ra =>
    match s.mtxRecord w ob with
    | .error t => .error t
    | .ok rb =>
      match s.mmaRecords w oa.toNat ob.toNat ra rb with
      | .error t => .error t
      | .ok tag => (s.tileCheck w c tag).map (fun _ => ⟨oa, ob, ra, rb, tag⟩)

/-! ## What a matrix unit reads -/

/-- n bytes at an address read for an operation: lines that its cluster's fetch unit has delivered, else the places themselves;
bytes of another module are class 04, subcode 0x55, with the line's address (R397). -/
def State.mtxRead (s : State) (w : WarpId) (got : List (Nat × List Byte)) (line va : BitVec 64) (n : Nat) : Except EngStop (List Byte) :=
  match lookup? (va.toNat / 128) got with
  | some bs => .ok ((bs.drop (va.toNat % 128)).take n)
  | none =>
    match s.unitRead w [] va n with
    | .error (.ask _ _) => .error (.fault (Trap.sync 4 0x55 line))
    | r => r

/-- The stretches of a line read in turn. -/
def State.mtxStretches (s : State) (w : WarpId) (got : List (Nat × List Byte)) (line : BitVec 64) : List (Nat × Nat) →
    Except EngStop (List Byte)
  | [] => .ok []
  | p :: t =>
    match s.mtxRead w got line (line + BitVec.ofNat 64 p.1) p.2 with
    | .error e => .error (e.withMore (t.foldl (fun n q => n + q.2) 0))
    | .ok bs => (s.mtxStretches w got line t).map (fun r => bs ++ r)

/-- Lines of n bytes, each at its distance from a base. -/
def State.mtxLines (s : State) (w : WarpId) (got : List (Nat × List Byte)) (base n : Nat) : List Nat → Except EngStop (List (List Byte))
  | [] => .ok []
  | d :: t =>
    let line := BitVec.ofNat 64 (base + d)
    match s.mtxStretches w got line (stretchesOf line.toNat n) with
    | .error e => .error e
    | .ok bs => (s.mtxLines w got base n t).map (fun r => bs :: r)

/-- The element at position p of a line (R391). -/
def lineElem (f : Nat) (bs : List Byte) (p : Nat) : Nat :=
  if f = 6 then bitsAt (opNum bs (p / 5 * 4) 4) (6 * (p % 5)) 6 else opNum bs (p * fmtUnit f) (fmtUnit f)

/-- An operand as values: `outer` rows of `k` elements, none for a tail element, and the scales of each row (R391, R392). -/
structure Operand where
  rows : List (List (Option Ext))
  scales : List (List Ext)
  deriving DecidableEq, Repr

/-- The values that an operand's lines hold. -/
def operandOf (r : List Byte) (outer k : Nat) (lines scales : List (List Byte)) : Operand :=
  let f := opFmt r
  let at' (o x : Nat) : Option Ext :=
    if o < opExto r ∧ x < opExtk r then
      some (elemValue (fmtTag f) (if opMaj r then lineElem f (nth [] lines x) o else lineElem f (nth [] lines o) x))
    else none
  { rows := (List.range outer).map (fun o => (List.range k).map (at' o))
    scales := scales.map (fun bs => bs.map (fun b => e8Value b.toNat)) }

/-- An operand fetched. -/
def State.fetchOperand (s : State) (w : WarpId) (got : List (Nat × List Byte)) (r : List Byte) (outer k : Nat) : Except EngStop Operand :=
  match s.mtxLines w got (opBase r) (lineBytes (opFmt r) (opPositions r)) ((List.range (opLines r)).map (fun l => l * opStride r)) with
  | .error e => .error e
  | .ok lines =>
    let scaled := if opSbase r = 0 then [] else (List.range (opExto r)).map (fun o => o * opSstr r)
    (s.mtxLines w got (opSbase r) (opBlocks r) scaled).map (operandOf r outer k lines)

/-! ## Sums (R288, R289, R395) -/

/-- The products of two rows over one group; tail elements give none. -/
def products : List (Option Ext) → List (Option Ext) → List (Ext × Flags)
  | some a :: as, some b :: bs => extMul a b :: products as bs
  | _ :: as, _ :: bs => products as bs
  | _, _ => []

/-- The integer that an exact finite sum is. -/
def extInt (x : Ext) : Int :=
  match x with
  | .num neg m e => signedAt neg m e 0
  | _ => 0

/-- A group sum added to an element of a tile. -/
def addToTile (t : BitVec 4) (m : RMode) (c : Nat) (x : Ext) : Nat × Flags :=
  if t = tagS32 then
    let r := clampInt 32 true (elemInt tagS32 c + extInt x)
    (wrapInt 32 r.1, flagIf r.2 flagSA)
  else
    let y := extSum m.isRd [elemValue t c, x]
    let r := (ieeeOf t).round m false y.1
    (r.1, r.2 ||| y.2)

/-- One group of a row and a column accumulated; a group with no products is skipped. -/
def addGroup (t : BitVec 4) (m : RMode) (as bs : List (Option Ext)) (sa sb : Option Ext) (c : Nat × Flags) : Nat × Flags :=
  match products as bs with
  | [] => c
  | ps =>
    let x := extSum m.isRd (ps.map Prod.fst)
    let x1 := match sa with | some v => extMul x.1 v | none => (x.1, 0)
    let x2 := match sb with | some v => extMul x1.1 v | none => (x1.1, 0)
    let r := addToTile t m c.1 x2.1
    (r.1, c.2 ||| orFlags (ps.map Prod.snd) ||| x.2 ||| x1.2 ||| x2.2 ||| r.2)

/-- A row and a column accumulated group by group, g being the number of the group; `n` bounds the groups. -/
def addGroups (t : BitVec 4) (m : RMode) (size : Nat) (sa sb : List Ext) : Nat → Nat → List (Option Ext) → List (Option Ext) →
    Nat × Flags → Nat × Flags
  | 0, _, _, _, c => c
  | n + 1, g, as, bs, c =>
    if as.isEmpty then c
    else
      let block := g * size / 32
      addGroups t m size sa sb n (g + 1) (as.drop size) (bs.drop size)
        (addGroup t m (as.take size) (bs.take size) (nth? sa block) (nth? sb block) c)

/-- The tile that an MMA gives, as the elements that are not zero, and the flags raised. -/
def mmaSum (t : BitVec 4) (m : RMode) (size k : Nat) (old : Nat → Nat → Nat) (a b : Operand) : List (Nat × BitVec 64) × Flags :=
  let cells := (a.rows.zipIdx).flatMap (fun ra => (b.rows.zipIdx).map (fun cb =>
    (64 * ra.2 + cb.2,
     addGroups t m size (nth [] a.scales ra.2) (nth [] b.scales cb.2) k 0 ra.1 cb.1 (old ra.2 cb.2, 0))))
  (cells.filterMap (fun c => if c.2.1 = 0 then none else some (c.1, BitVec.ofNat 64 c.2.1)), orFlags (cells.map (fun c => c.2.2)))

/-- The result of an MMA that has issued: its operands read now (R395, R398). -/
def State.mmaResult (s : State) (j : MatrixJob) : Except EngStop (List (Nat × BitVec 64) × Flags) :=
  let k := match pairing (opFmt j.recA) (opFmt j.recB) with | some p => p.2 | none => 0
  match s.fetchOperand j.warp j.got j.recA 32 k with
  | .error e => .error e
  | .ok a =>
    match s.fetchOperand j.warp j.got j.recB 64 k with
    | .error e => .error e
    | .ok b =>
      let old (i x : Nat) : Nat :=
        match (s.warp j.warp).tile? j.tile with
        | some t => if j.za || !t.live then 0 else (t.elem i x).toNat
        | none => 0
      .ok (mmaSum j.tag (rmodeOf j.rm) (groupSize (opFmt j.recA)) k old a b)

/-! ## Ends of operations -/

/-- The threads of a warp that have not exited. -/
def State.liveThreads (s : State) (w : WarpId) : List ThreadId := w.threads.filter (fun x => decide ((s.thread x).st ≠ .exited))

/-- An operation taken off its unit and retired. -/
def State.endMtx (s : State) (j : MatrixJob) : State :=
  ({ s with matrix := s.matrix.filter (fun x => decide (x.id ≠ j.id)) }).opDone j.warp 2 j.id

/-- The reservation of an operation that faults dropped, unless a later one into the same tile waits for it (R386). -/
def State.dropReservation (s : State) (j : MatrixJob) : State :=
  match (s.warp j.warp).tile? j.tile with
  | some t =>
    if t.live || s.matrix.any (fun x => decide (x.id ≠ j.id) && decide (x.warp = j.warp) && decide (x.tile = j.tile) && decide (x.fn ≠ 3)) then s
    else s.dropTile j.warp j.tile
  | none => s

/-- A fault found after issue: every live lane of the warp takes it at its next run boundary (R389). -/
def State.mtxFault (s : State) (t : Trap) (j : MatrixJob) : State :=
  let s := (s.dropReservation j).endMtx j
  (s.liveThreads j.warp).foldl (fun s x => s.lateTrap x t) s

/-- Whether every live thread of a warp stands at a run boundary. -/
def State.warpAtBoundary (s : State) (w : WarpId) : Bool := (s.liveThreads w).all s.atBoundary

/-- A parked fault: every member lane joins the slot, and its region is executed again (R196, R397). -/
def State.mtxPark (s : State) (sub kind : Nat) (va : BitVec 64) (j : MatrixJob) : State :=
  let s := (s.dropReservation j).endMtx j
  (s.liveThreads j.warp).foldl (fun s x => s.park x (s.bundle j.warp).asid va sub kind) s

/-- What stops operations that commit together acted on: all fault, all park, or all wait. -/
def State.mtxStop (s : State) (x : EngStop) (js : List MatrixJob) : State :=
  match x with
  | .fault t => js.foldl (fun s j => s.mtxFault t j) s
  | .parks sub kind va => if js.all (fun j => s.warpAtBoundary j.warp) then js.foldl (fun s j => s.mtxPark sub kind va j) s else s
  | .wait sec write =>
    match js with
    | j :: _ => s.wantSector j.warp.die sec write
    | [] => s
  | .replica pa n =>
    match js with
    | j :: _ => s.fetchReplicas j.warp.die (unitSectors pa n)
    | [] => s
  | .walk kind va =>
    match js with
    | j :: _ => s.addWalk (s.bundle j.warp).asid ⟨j.warp.coreId, .matrix j.id, va, kind⟩
    | [] => s
  | .ask _ _ => s
  | .hold => s

/-! ## Tile stamp records (R269) -/

/-- The cycles that an MMA computes: 128, or twice that where no segment is left for staging (R393, R399). -/
def State.computeCycles (s : State) (w : WarpId) : Nat :=
  let used := s.tileSegs w
  let staging := (s.core w.coreId).segs.zipIdx.any (fun p => decide (p.2 / 10 = w.part) && decide (p.1.role = .mxs) && !used.contains p.2)
  if staging then 128 else 256

/-- An open record as an MMA issues: T1 at the first. -/
def StampRec.mmaIssued (r : StampRec) (now : Nat) : StampRec :=
  if r.t1.isSome then r else { r with t1 := some now, t3 := now }

/-- A record as an MMA commits: T3, and the cycles beyond its compute cycles that it waited for operands. -/
def StampRec.mmaCommitted (r : StampRec) (now issued compute : Nat) : StampRec :=
  if r.t1.isNone then r else { r with owt := r.owt + (now - Nat.max issued r.t3 - compute), t3 := now }

/-- A closed record as an MMA commits: those that issued before the close count. -/
def StampRec.lateCommit (r : StampRec) (now issued compute id : Nat) : StampRec :=
  if r.ops.contains id then r.mmaCommitted now issued compute else r

/-! ## Commit of MMAs (R395, R404) -/

/-- An MMA committed: its tile written as a whole, its stamp set, its flags in FPS. -/
def State.commitMma (s : State) (j : MatrixJob) (r : List (Nat × BitVec 64) × Flags) : State :=
  let cycles := s.computeCycles j.warp
  let segs := match (s.warp j.warp).tile? j.tile with | some t => t.segs | none => []
  let s := s.setTile j.warp j.tile { tag := j.tag, elems := r.1, segs := segs, stamp := some j.stamp, live := true }
  let s := s.onWarp j.warp (fun w => { w with
    tsr := w.tsr.map (fun t => t.mmaCommitted s.time j.issued cycles)
    stamps := w.stamps.map (fun t => t.lateCommit s.time j.issued cycles j.id)
    fps := if j.passed then w.fps else w.fps ||| BitVec.setWidth 32 r.2 })
  s.endMtx j

/-- The results of operations that commit together. -/
def State.mmaResults (s : State) : List MatrixJob → Except EngStop (List (MatrixJob × List (Nat × BitVec 64) × Flags))
  | [] => .ok []
  | j :: t =>
    match s.mmaResult j with
    | .error e => .error e
    | .ok r => (s.mmaResults t).map (fun rs => (j, r) :: rs)

/-- The flags that class 06 reports: over all members, what each one's own TEN, as its MMA issued, enables (R287, R404, R432). -/
def trappedFlags (rs : List (MatrixJob × List (Nat × BitVec 64) × Flags)) : Flags :=
  orFlags (rs.map (fun r => r.1.ten &&& r.2.2))

/-- Operations that commit together committed, or stopped together. -/
def State.commitAll (s : State) (js : List MatrixJob) : State :=
  match s.mmaResults js with
  | .error e => s.mtxStop e js
  | .ok rs =>
    let bad := trappedFlags rs
    if bad = 0 then rs.foldl (fun s r => s.commitMma r.1 r.2) s
    else js.foldl (fun s j => s.mtxFault (Trap.sync 6 bad.toNat 0) j) s

/-! ## ZERO, RD and REL, performed in order (R388, R407, R408) -/

/-- Whether an operation is the first of its warp. -/
def State.mtxFirst (s : State) (j : MatrixJob) : Bool :=
  match s.matrix.find? (fun x => decide (x.warp = j.warp)) with
  | some x => decide (x.id = j.id)
  | none => false

/-- What RD returns to one lane. -/
def rdReturn (w : WarpId) (t : Option Tile) (r : Nat × Nat × Nat × Nat) : Return :=
  let v : BitVec 64 := match t with | some t => t.elem r.1 r.2.2.2 | none => 0
  let tag := match t with | some t => t.tag | none => tagF32
  let regs := if tag = tagF64 then [(r.2.2.1, (⟨v.extractLsb' 0 32, tag⟩ : Reg)), (r.2.2.1 + 1, ⟨v.extractLsb' 32 32, tag⟩)]
    else [(r.2.2.1, ⟨v.extractLsb' 0 32, tag⟩)]
  { thread := ⟨w, r.1⟩, mark := r.2.1, regs := regs, trap := none }

/-- ZERO, RD or REL performed. -/
def State.quickMtx (s : State) (j : MatrixJob) : State :=
  let t := (s.warp j.warp).tile? j.tile
  let s :=
    if j.fn = 0 then
      match t with
      | some t => s.setTile j.warp j.tile { t with tag := j.tag, elems := [], stamp := none, live := true }
      | none => s
    else if j.fn = 4 then s.dropTile j.warp j.tile
    else { s with returns := s.returns ++ j.reads.map (rdReturn j.warp (t.filter (fun t => t.live))) }
  s.endMtx j

/-- The operations at the head of a warp's queue that need no transfer performed, n at most. -/
def drainMtx (w : WarpId) : Nat → State → State
  | 0, s => s
  | n + 1, s =>
    match s.matrix.find? (fun x => decide (x.warp = w)) with
    | some j => if j.fn = 0 ∨ j.fn = 3 ∨ j.fn = 4 then drainMtx w n (s.quickMtx j) else s
    | none => s

/-- The same for several warps. -/
def State.drainAll (s : State) (ws : List WarpId) : State := ws.foldl (fun s w => drainMtx w s.matrix.length s) s

/-- The members of an operation's firing that still take part: each has its MMA at the head of its queue with all it waits for, or
has not issued it yet. -/
def State.firingJobs (s : State) (f : Nat × List WarpId) : Option (List MatrixJob) :=
  let js := s.matrix.filter (fun x => match x.firing with | some g => decide (g.1 = f.1) | none => false)
  let due := f.2.any (fun w => match (s.warp w).firing with | some g => decide (g.1 = f.1) | none => false)
  if due || !js.all (fun j => s.mtxFirst j && j.waits.isEmpty) then none else some js

/-- MMA_COMMIT: the MMA picked, and those that fired with it, commit or fault (R395, R404). -/
def execMmaCommit (s : State) : Host.Outcome State Fault Refusal :=
  match nth? s.matrix s.pick with
  | none => .next s
  | some j =>
    if j.fn ≠ 5 ∨ !s.mtxFirst j ∨ !j.waits.isEmpty then .next s
    else
      match j.firing with
      | none => .next ((s.commitAll [j]).drainAll [j.warp])
      | some f =>
        match s.firingJobs f with
        | none => .next s
        | some js => .next ((s.commitAll js).drainAll (js.map (fun x => x.warp)))

/-! ## Tile transfers (R406, R407) -/

/-- BASE of a tile record. -/
def trBase (r : List Byte) : Nat := opNum r 0 8
/-- STRIDE of a tile record. -/
def trStride (r : List Byte) : Nat := opNum r 8 4
/-- FMT of a tile record. -/
def trFmt (r : List Byte) : Nat := opNum r 12 1
/-- ROWS of a tile record. -/
def trRows (r : List Byte) : Nat := opNum r 13 1
/-- COLS of a tile record. -/
def trCols (r : List Byte) : Nat := opNum r 14 1
/-- CTL of a tile record. -/
def trCtl (r : List Byte) : Nat := opNum r 15 1
/-- The bytes of a row. -/
def trRowBytes (r : List Byte) : Nat := trCols r * fmtUnit (trFmt r)

/-- Whether a tile record's fields are as R406 has them. -/
def tileRecordOk (r : List Byte) : Bool :=
  decide (trCtl r < 8) && decide (opNum r 16 16 = 0) && decide (trFmt r ≤ 9) && decide (1 ≤ trRows r) && decide (trRows r ≤ 32) &&
  decide (1 ≤ trCols r) && decide (trCols r ≤ 64) && aligned (trBase r) (trStride r) (trFmt r)

/-- The formats that LD accepts for a tile tag. -/
def ldAccepts (t : BitVec 4) (f : Nat) : Bool :=
  if t = tagF32 then f == 7 || f == 0 || f == 1 else if t = tagS32 then f == 9 else f == 8
/-- The formats that ST accepts for a tile tag. -/
def stAccepts (t : BitVec 4) (f : Nat) : Bool :=
  if t = tagF32 then f == 7 || f == 0 || f == 1 || f == 5 else if t = tagS32 then f == 9 else f == 8 || f == 7
/-- The tag that LD gives an unmapped tile. -/
def ldTag (f : Nat) : BitVec 4 := if f = 9 then tagS32 else if f = 8 then tagF64 else tagF32

/-- The checks of a tile transfer (R406). -/
def State.transferCheck (s : State) (w : WarpId) (c : Nat) (store : Bool) (o : BitVec 32) : Except Trap (List Byte × BitVec 4) :=
  match s.mtxRecord w o with
  | .error t => .error t
  | .ok r =>
    let n := o.toNat
    let tile := (s.warp w).tile? c
    let tag := match tile with | some t => t.tag | none => if store then tagF32 else ldTag (trFmt r)
    let fits := (List.range (trRows r)).all (fun i => s.windowHolds w (trBase r) (i * trStride r) (trRowBytes r))
    match firstCheck [
      (!tileRecordOk r, mtxTrap 0x51 n), (badWindow (trBase r), Trap.sync 3 6 (BitVec.ofNat 64 n)),
      (store && (trBase r).testBit 56 && decide (bitsAt (trBase r) 52 4 = 2), Trap.sync 3 2 (BitVec.ofNat 64 (trBase r))),
      (!fits, mtxTrap 0x53 n),
      (!(if store then stAccepts tag (trFmt r) else ldAccepts tag (trFmt r)), mtxTrap 0x56 c)] with
    | .error t => .error t
    | .ok _ => if store then .ok (r, tag) else (s.tileCheck w c tag).map (fun _ => (r, tag))

/-- An element widened exactly to a tile's tag. -/
def widen (t : BitVec 4) (f x : Nat) : Nat :=
  if t = tagF32 ∧ f ≠ 7 then (ieee32.round .rne false (elemValue (fmtTag f) x)).1 else x

/-- The tile that LD gives, as the elements that are not zero. -/
def ldTile (old : Tile) (r : List Byte) (rows : List (List Byte)) : List (Nat × BitVec 64) :=
  (List.range 2048).filterMap (fun n =>
    let i := n / 64
    let x := n % 64
    let v : BitVec 64 :=
      if i < trRows r ∧ x < trCols r then BitVec.ofNat 64 (widen old.tag (trFmt r) (lineElem (trFmt r) (nth [] rows i) x))
      else if old.live then old.elem i x else 0
    if v = 0 then none else some (n, v))

/-- LD performed, or what stops it. -/
def State.ldDone (s : State) (j : MatrixJob) : Except EngStop State :=
  let r := j.recA
  match s.mtxLines j.warp [] (trBase r) (trRowBytes r) ((List.range (trRows r)).map (fun i => i * trStride r)) with
  | .error e => .error e
  | .ok rows =>
    match (s.warp j.warp).tile? j.tile with
    | none => .ok (s.endMtx j)
    | some t => .ok ((s.setTile j.warp j.tile { t with elems := ldTile t r rows, stamp := none, live := true }).endMtx j)

/-- An element of a tile converted for a store (R407). -/
def stElem (t : BitVec 4) (f x : Nat) : Nat × Flags :=
  if f = 5 then taperRound 8 .rne (elemValue t x)
  else if f = 9 then (x, 0)
  else (ieeeOf (fmtTag f)).round .rne false (elemValue t x)

/-- The elements that ST writes: their row's address and their own, bytes, flags. -/
def stElems (t : Option Tile) (r : List Byte) : List (BitVec 64 × BitVec 64 × List Byte × Flags) :=
  let n := fmtUnit (trFmt r)
  (List.range (trRows r)).flatMap (fun i => (List.range (trCols r)).map (fun x =>
    let v := match t with | some t => stElem t.tag (trFmt r) (t.elem i x).toNat | none => (0, 0)
    (BitVec.ofNat 64 (trBase r + i * trStride r), BitVec.ofNat 64 (trBase r + i * trStride r + x * n), bytesOfNat n v.1, v.2)))

/-- Elements stored one after another; what was stored before a stop stays. One of another module is class 04, subcode 0x55, with its
row's address (R406). -/
def stWrites (w : WarpId) (rcl : Nat → BitVec 2) : List (BitVec 64 × BitVec 64 × List Byte × Flags) → State → State × Option EngStop
  | [], s => (s, none)
  | e :: t, s =>
    match s.unitWrite w rcl e.2.1 e.2.2.1 with
    | .ok s => stWrites w rcl t s
    | .error (.ask _ _) => (s, some (.fault (Trap.sync 4 0x55 e.1)))
    | .error x => (s, some x)

/-- ST performed: class 06 for an enabled flag before anything is written, else the writes (R407). -/
def State.stDone (s : State) (j : MatrixJob) : State :=
  let t := ((s.warp j.warp).tile? j.tile).filter (fun t => t.live)
  let es := stElems t j.recA
  let flags := orFlags (es.map (fun e => e.2.2.2))
  match arithTrap j.ten flags with
  | some t => s.mtxFault t j
  | none =>
    let rcl (leaf : Nat) : BitVec 2 := if (trCtl j.recA).testBit 2 then BitVec.ofNat 2 (trCtl j.recA) else pteRcl leaf
    match stWrites j.warp rcl es s with
    | (s, some x) => s.mtxStop x [j]
    | (s, none) => (if j.passed then s else raiseFlags j.warp flags s).endMtx j

/-- MTX_TRANSFER_DONE: the LD or ST picked completes (R407). -/
def execMtxTransferDone (s : State) : Host.Outcome State Fault Refusal :=
  match nth? s.matrix s.pick with
  | none => .next s
  | some j =>
    if !s.mtxFirst j then .next s
    else if j.fn = 1 then
      match s.ldDone j with
      | .ok s => .next (s.drainAll [j.warp])
      | .error x => .next ((s.mtxStop x [j]).drainAll [j.warp])
    else if j.fn = 2 then .next ((s.stDone j).drainAll [j.warp])
    else .next s

/-! ## Multicast fetches (R400) -/

/-- What tells lines that may be merged apart: address space and line, or line of window 2. -/
def State.lineKey (s : State) (w : WarpId) (line : Nat) : Nat :=
  if (line * 128).testBit 56 then line else line + 2 ^ 58 * (s.bundle w).asid.toNat

/-- The 128-byte lines that n bytes at an address touch. -/
def linesOf (va n : Nat) : List Nat := (List.range ((va % 128 + n + 127) / 128)).map (fun i => va % 2 ^ 64 / 128 + i)

/-- Whether an operand is fetched through the cluster's fetch unit. -/
def multicast (r : List Byte) (base : Nat) : Bool := opMc r && (!base.testBit 56 || decide (bitsAt base 52 4 = 2))

/-- The lines that an operand asks of the fetch unit. -/
def mcLines (r : List Byte) : List Nat :=
  (if multicast r (opBase r) then
    (List.range (opLines r)).flatMap (fun l => linesOf (opBase r + l * opStride r) (lineBytes (opFmt r) (opPositions r)))
   else []) ++
  (if opSbase r ≠ 0 && multicast r (opBase r) && multicast r (opSbase r) then
    (List.range (opExto r)).flatMap (fun o => linesOf (opSbase r + o * opSstr r) (opBlocks r))
   else [])

/-- A request for a line: merged with one that the fetch unit holds, or held. -/
def State.askLine (s : State) (j : MatrixJob) (line : Nat) : State :=
  let k := s.cluster j.warp.die j.warp.coreId.cluster
  let key := s.lineKey j.warp line
  let fs := if k.fetches.any (fun f => decide (f.1 = key)) then
      k.fetches.map (fun f => if f.1 = key then (f.1, f.2.1, f.2.2 ++ [j.id]) else f)
    else k.fetches ++ [(key, s.time, [j.id])]
  s.setCluster j.warp.die j.warp.coreId.cluster { k with fetches := fs }

/-- A line's bytes given to the operations that asked for it; without them each reads it for itself. -/
def State.giveLine (s : State) (ids : List Nat) (line : Nat) (bs : Option (List Byte)) : State :=
  { s with matrix := s.matrix.map (fun (j : MatrixJob) =>
      if ids.contains j.id then
        { j with
          waits := j.waits.filter (fun l => decide (l ≠ line))
          got := match bs with | some b => j.got ++ [(line, b)] | none => j.got }
      else j) }

/-- MULTICAST_WINDOW: the window of the cluster's held line k ends, and one read serves every merged request (R400). -/
def execMulticastWindow (die cluster k : Nat) (s : State) : Host.Outcome State Fault Refusal :=
  let v := s.cluster die cluster
  match nth? v.fetches k with
  | none => .next s
  | some f =>
    if s.time < f.2.1 + 64 then .next s
    else
      let line := f.1 % 2 ^ 57
      let gone := s.setCluster die cluster { v with fetches := removeNth v.fetches k }
      match s.matrix.find? (fun j => f.2.2.contains j.id) with
      | none => .next gone
      | some j =>
        match s.mtxStretches j.warp [] (BitVec.ofNat 64 (line * 128)) [(0, 64), (64, 64)] with
        | .ok bs => .next (gone.giveLine f.2.2 line (some bs))
        | .error (.wait sec w) => .next (s.wantSector die sec w)
        | .error .hold => .next s
        | .error (.replica pa n) => .next (s.fetchReplicas die (unitSectors pa n))
        | .error (.walk kind va) => .next (s.addWalk (s.bundle j.warp).asid ⟨j.warp.coreId, .matrix j.id, va, kind⟩)
        | .error _ => .next (gone.giveLine f.2.2 line none)

/-! ## Issue (R387, R388) -/

/-- What comes of an issue: a trap in every member lane, no effect, a wait, or an effect. -/
inductive MtxOut where
  | trap (t : Trap)
  | nothing
  | hold
  | go (f : State → State)

/-- The class 10 trap of a gang fault: the arrivals of the warp's latch and its PMASK (R403). -/
def State.gangTrap (s : State) (w : WarpId) (sub : Nat) : Trap :=
  let v := s.warp w
  let arrived := (lookupD (v.bslot, v.wp / 4) [] (s.core w.coreId).latches).foldl (fun n a => n + 2 ^ a.part) 0
  Trap.sync 10 sub (BitVec.ofNat 64 (arrived + 16 * (v.gang.toNat % 16)))

/-- Guards of the member lanes, or the first trap of reading one. -/
def guardsOf (i : Instr) (cs : List LaneCtx) : Except Trap (List Bool) := allOk (cs.map (fun c => c.guard ((guardOf i).getD 12)))

/-- What every collective function meets before its own checks (R320, R387): none where it goes on. -/
def State.collective (s : State) (i : Instr) (cs : List LaneCtx) : Option MtxOut :=
  match cs with
  | [] => some .nothing
  | l0 :: _ =>
    let w := l0.tid.warp
    if decide (((guardOf i).getD 12).toNat > 12) then some (.trap (l0.code00 4))
    else
      match guardsOf i cs with
      | .error t => some (.trap t)
      | .ok gs =>
        match (if gs.any (fun b => b) then encodingFault i else none) with
        | some n => some (.trap (l0.code00 n))
        | none =>
          if !(s.liveThreads w).all (fun x => cs.any (fun c => decide (c.tid = x))) then some (.trap (s.gangTrap w 4))
          else if gs.any (fun b => b) && gs.any (fun b => !b) then some (.trap (s.gangTrap w 5))
          else if gs.all (fun b => !b) then some .nothing
          else none

/-- The outcome of an issue applied to a group. -/
def applyMtx (i : Instr) (o : MtxOut) (s : State) : State :=
  match o with
  | .trap t => applyLanes ((laneCtxs s).map (fun c => (c, .error t))) (holdLatch i s)
  | .nothing => holdLatch i s
  | .hold => holdIssue s
  | .go f => f (holdLatch i s)

/-- Whether a warp's partition has no room for an operation, or its counter cannot take it (R388, R412). -/
def State.mtxFull (s : State) (w : WarpId) : Bool :=
  decide (8 ≤ s.matrix.countP (fun j => decide (j.warp.coreId = w.coreId) && decide (j.warp.part = w.part))) || decide (255 ≤ (s.warp w).mtx)

/-- Whether an operation that names a tile waits before it is checked: the tile's release is queued, or it is being moved (R388, R171). -/
def State.tileHeld (s : State) (w : WarpId) (c : Nat) : Bool :=
  s.tileMoving w c || s.matrix.any (fun j => decide (j.warp = w) && decide (j.tile = c) && decide (j.fn = 4))

/-- An operation with nothing in it. -/
def State.newMtx (s : State) (w : WarpId) (fn tile : Nat) : MatrixJob :=
  { id := s.fresh, warp := w, fn := fn, tile := tile, recA := [], recB := [], rm := 0, za := false, tag := tagF32, stamp := (0, 0)
    fresh := false, firing := none, reads := [], got := [], waits := [], issued := s.time, ten := (s.warp w).fpc.extractLsb' 0 6, passed := false }

/-- An operation queued and counted; those that need no transfer are performed at once where nothing is before them. -/
def State.startMtx (s : State) (j : MatrixJob) : State :=
  let s := ({ s with fresh := s.fresh + 1, matrix := s.matrix ++ [j] }).onWarp j.warp (fun w => w.issueOp 2 j.id)
  s.drainAll [j.warp]

/-- The stamp of a tile once what is queued for it has committed (R256, R386). -/
def State.stampOf (s : State) (w : WarpId) (c : Nat) : Option (BitVec 32 × Nat) :=
  let now := match (s.warp w).tile? c with | some t => t.stamp | none => none
  (s.matrix.filter (fun j => decide (j.warp = w) && decide (j.tile = c))).foldl (fun x j =>
    if j.fn = 5 then some j.stamp else if j.fn = 0 ∨ j.fn = 1 ∨ j.fn = 4 then none else x) now

/-- RECN of a warp's lowest live lane and the MMAs that the warp has issued since that lane entered its region: what its next MMA carries
(R256). -/
def State.nextStamp (s : State) (w : WarpId) : BitVec 32 × Nat :=
  match s.lowestLive w with
  | some l => ((s.thread ⟨w, l⟩).recn, (s.warp w).mmaCount - (s.thread ⟨w, l⟩).mmaBase)
  | none => (0, 0)

/-- The MMA count of a warp raised, and its stamp record told of the issue. -/
def State.countMma (s : State) (w : WarpId) : State :=
  s.onWarp w (fun v => { v with mmaCount := v.mmaCount + 1, tsr := v.tsr.map (fun r => r.mmaIssued s.time) })

/-- An MMA issued: already committed and retired at once, or its tile reserved and its lines asked for (R256, R386, R395). -/
def State.issueMma (s : State) (w : WarpId) (c : Nat) (p : BitVec 26) (x : MmaArgs) (firing : Option (Nat × List WarpId)) : State :=
  let stamp := s.nextStamp w
  let s := s.countMma w
  if s.stampOf w c = some stamp then
    let id := s.fresh
    (({ s with fresh := id + 1 }).onWarp w (fun v => v.issueOp 2 id)).opDone w 2 id
  else
    let r := s.reserveTile w c x.tag
    let waits := (mcLines x.ra ++ mcLines x.rb).eraseDups
    let j := { s.newMtx w 5 c with
      recA := x.ra, recB := x.rb, rm := pfxRm p, za := p.getLsbD 3, tag := x.tag, stamp := stamp, fresh := r.1, firing := firing, waits := waits }
    waits.foldl (fun s l => s.askLine j l) (r.2.startMtx j)

/-- The record offsets of an MMA: tag-checked in every member lane, taken from the lowest (R387). -/
def mmaOffsets (a b : BitVec 7) (c : LaneCtx) : Except Trap (BitVec 32 × BitVec 32) :=
  match c.word (fld a) 0, c.word (fld b) 2 with
  | .ok x, .ok y => .ok (x, y)
  | .error e, .ok _ => .error e
  | .ok _, .error e => .error e
  | .error e, .error f => .error (if checkRank f < checkRank e then f else e)

/-- The checks of an MMA over the contexts of a warp's lanes: the arguments, or a trap. -/
def State.mmaArgs (s : State) (d a b : BitVec 7) (cs : List LaneCtx) : Except Trap MmaArgs :=
  match firstFault (fun c => (mmaOffsets a b c).map (fun _ => ())) cs, cs with
  | some t, _ => .error t
  | none, [] => .error (Trap.sync 0 1 0)
  | none, l0 :: _ =>
    match mmaOffsets a b l0 with
    | .error t => .error t
    | .ok o => s.mmaCheck l0.tid.warp (fld d) o.1 o.2

/-- Every earlier access of the group's lanes released at CLU scope towards the matrix unit (R215). -/
def State.towardsMatrix (s : State) (f : State → State) : State := s.gated ((laneCtxs s).map (fun c => (c.tid, 3))) f

/-- An MMA of a complete group carried out, alone or as part of a firing. -/
def mmaIssue (i : Instr) (p : BitVec 26) (d a b : BitVec 7) (firing : Option (Nat × List WarpId)) (s : State) : MtxOut :=
  let cs := laneCtxs s
  match s.collective i cs, cs with
  | some o, _ => o
  | none, [] => .nothing
  | none, l0 :: _ =>
    let w := l0.tid.warp
    if s.tileHeld w (fld d) then .hold
    else
      match s.mmaArgs d a b cs with
      | .error t => .trap t
      | .ok x => if s.mtxFull w then .hold else .go (fun s => s.issueMma w (fld d) p x firing)

/-- An outcome applied, a release towards the unit first where it has an effect. -/
def runMtx (i : Instr) (f : State → MtxOut) (s : State) : State :=
  match f s with
  | .go _ => s.towardsMatrix (fun s => applyMtx i (f s) s)
  | o => applyMtx i o s

/-! ## Gangs (R401 to R404) -/

/-- The words of the current instruction of a group, for a thread that blocks at it. -/
def Group.mmaWords (g : Group) : BitVec 64 := nth 0 g.words (g.here + 1) ++ nth 0 g.words g.here

/-- Every member of a group blocks at its gang MMA. -/
def blockGang (s : State) : State :=
  (laneCtxs s).foldl (fun s c =>
    blockThread (.gang c.group.mmaWords (c.group.entry || c.th.newRegion)) c.tid s) s

/-- The members of a fired warp enter their region and go on with the MMA. -/
def enterFired (s : State) : State :=
  match s.cur with
  | none => s
  | some k => (laneCtxs s).foldl (fun s c => (enterRegion k c.tid s).onThread c.tid (fun th => { th with wait := none })) s

/-- The MMA of a warp whose latch has fired. -/
def runFired (i : Instr) (p : BitVec 26) (d a b : BitVec 7) (w : WarpId) (f : Nat × List WarpId) (s : State) : State :=
  let own := if f.2.contains w then some f else none
  match mmaIssue i p d a b own s with
  | .hold => holdIssue s
  | _ =>
    s.towardsMatrix (fun s =>
      let s := (enterFired s).onWarp w (fun v => { v with firing := none })
      applyMtx i (mmaIssue i p d a b own s) s)

/-- MMA (R394 to R396); with a partner it blocks until its latch has fired (R402). -/
def execMma (pfx : BitVec 26) (g : BitVec 4) (h : BitVec 1) (d a b : BitVec 7) (s : State) : Host.Outcome State Fault Refusal :=
  let i := Instr.mma pfx g h d a b
  match laneCtxs s with
  | [] => .next s
  | l0 :: _ =>
    if l0.warp.partnered then
      match l0.warp.firing with
      | none => .next (blockGang s)
      | some f => .next (runFired i pfx d a b l0.tid.warp f s)
    else .next (runMtx i (mmaIssue i pfx d a b none) s)

/-- The group that a warp's threads would form at the MMA they stand blocked at: nothing issued, temporaries zero. -/
def gangGroup (w : WarpId) (lanes : List Nat) (pc : BitVec 64) (mma : BitVec 64) : Group :=
  { members := (List.range 32).map (fun l => if lanes.contains l then some w.slot else none), addr := pc
    words := [mma.extractLsb' 0 32, mma.extractLsb' 32 32], trailerA := 0, trailerB := 0, fetched := true, here := 0, next := 2
    cycle := 0, temps := [], hazards := [], latch := [], targets := [], varDests := [], entered := false, seed := w.slot, formedAt := 0, dueAt := 0, held := false }

/-- What a warp's threads stand blocked at, where all that live stand at one gang MMA: the words, whether the run enters a region,
and the threads. -/
def State.gangStand (s : State) (w : WarpId) : Option (BitVec 64 × Bool × BitVec 64 × List ThreadId) :=
  let xs := s.liveThreads w
  match xs with
  | [] => none
  | x :: _ =>
    match (s.thread x).wait with
    | some (.gang mma e) =>
      if xs.all (fun y => decide ((s.thread y).st = .blocked) && decide ((s.thread y).pc = (s.thread x).pc) &&
          (match (s.thread y).wait with | some (.gang m _) => m == mma | _ => false)) then some (mma, e, (s.thread x).pc, xs)
      else none
    | _ => none

/-- The stamp that a warp's MMA will carry as it enters the run it stands at. -/
def State.stampAhead (s : State) (w : WarpId) (entry : Bool) : BitVec 32 × Nat :=
  match s.lowestLive w with
  | none => (0, 0)
  | some l =>
    let th := s.thread ⟨w, l⟩
    if th.reenter then (th.recn, 0) else if entry then (th.recn + 1, 0) else (th.recn, (s.warp w).mmaCount - th.mmaBase)

/-- The warp of a bundle with a number, on the same core. -/
def State.warpNumbered (s : State) (w : WarpId) (wp : Nat) : Option WarpId :=
  (s.warpsOf w.coreId (s.warp w).bslot).find? (fun v => decide ((s.warp v).wp = wp))

/-- The warps that a PMASK names. -/
def State.pmaskWarps (s : State) (w : WarpId) : List (Nat × Option WarpId) :=
  let v := s.warp w
  ((List.range 4).filter (fun q => v.gang.getLsbD q)).map (fun q => (q, s.warpNumbered w (v.wp / 4 * 4 + q)))

/-- Whether a warp that PMASK names can never arrive: absent, an access warp, or exited. -/
def State.gangMissing (s : State) (w : WarpId) : Bool :=
  (s.pmaskWarps w).any (fun p =>
    match p.2 with
    | none => true
    | some v => decide ((s.warp v).wp < (s.bundle v).accw) || (s.liveThreads v).isEmpty)

/-- A trap in every member lane of a warp. -/
def State.trapWarp (s : State) (t : Trap) (w : WarpId) : State := (s.liveThreads w).foldl (fun s x => takeTrap t x s) s

/-- The latch of a warp. -/
def State.latchOf (s : State) (w : WarpId) : List GangArrival :=
  lookupD ((s.warp w).bslot, (s.warp w).wp / 4) [] (s.core w.coreId).latches

/-- The latch of a warp replaced; an empty one is not listed. -/
def State.setLatch (s : State) (w : WarpId) (as : List GangArrival) : State :=
  let key := ((s.warp w).bslot, (s.warp w).wp / 4)
  s.onCore w.coreId (fun c => { c with latches := if as.isEmpty then drop key c.latches else put key as c.latches })

/-- A gang fault in every member lane of every arrived member, and the latch clears (R403). -/
def State.gangFault (s : State) (w : WarpId) (sub : Nat) : State :=
  let as := s.latchOf w
  let t := s.gangTrap w sub
  as.foldl (fun s a => s.trapWarp t ⟨w.die, w.core, a.part, a.slot⟩) (s.setLatch w [])

/-- The latch fired: its members checked, then READY to issue their MMAs (R402, R403). -/
def State.fireLatch (s : State) (w : WarpId) (as : List GangArrival) : State :=
  let comp := as.filter (fun a => a.computing)
  let same (f : GangArrival → BitVec 32) (l : List GangArrival) : Bool :=
    match l with
    | [] => true
    | x :: t => t.all (fun y => f y == f x)
  let share (n : Nat) : Bool := match as with | a :: _ => a.gang.getLsbD n | [] => false
  if !same (fun a => a.gang) as then s.gangFault w 2
  else if (share 4 && !same (fun a => a.offA) comp) || (share 5 && !same (fun a => a.offB) comp) then s.gangFault w 3
  else
    let id := s.fresh
    let of (a : GangArrival) : WarpId := ⟨w.die, w.core, a.part, a.slot⟩
    let s := ({ s with fresh := id + 1 }).setLatch w []
    as.foldl (fun s a =>
      let s := s.onWarp (of a) (fun v => { v with firing := some (id, comp.map of) })
      (s.liveThreads (of a)).foldl (fun s x => s.onThread x (fun th => { th with st := .ready, readyAt := s.time })) s) s

/-- What an arriving warp's MMA comes to (R402): a trap taken at once, or its arrival. -/
def State.gangArrival (s : State) (w : WarpId) (d a b : BitVec 7) (i : Instr) (entry : Bool) (cs : List LaneCtx) : Except Trap GangArrival :=
  let blank : GangArrival := { part := w.part, slot := w.slot, gang := (s.warp w).gang, offA := 0, offB := 0, computing := false }
  match s.collective i cs with
  | some (.trap t) => .error t
  | some _ => .ok blank
  | none =>
    match s.mmaArgs d a b cs with
    | .error t => .error t
    | .ok x => .ok { blank with offA := x.oa, offB := x.ob, computing := s.stampOf w (fld d) != some (s.stampAhead w entry) }

/-- An arrival recorded, and the latch fired where it is the last. -/
def State.recordArrival (s : State) (w : WarpId) (a : GangArrival) : State :=
  let as := s.latchOf w ++ [a]
  let s := s.setLatch w as
  if (s.pmaskWarps w).all (fun p => as.any (fun x => decide (x.part = p.1))) then s.fireLatch w as else s

/-- GANG_ARRIVE: a warp whose threads all stand blocked at a gang MMA arrives at its latch (R402). -/
def execGangArrive (die core part slot : Nat) (s : State) : Host.Outcome State Fault Refusal :=
  let w : WarpId := ⟨die, core, part, slot⟩
  if (s.latchOf w).any (fun a => decide (a.part = part) && decide (a.slot = slot)) then .next s
  else
    match s.gangStand w with
    | none => .next s
    | some st =>
      let k : GroupKey := ⟨die, core, part, 0, 0⟩
      let g := gangGroup w (st.2.2.2.map (fun x => x.lane)) st.2.2.1 st.1
      let cs := (membersOf k g).map (laneCtx s k g)
      match decodeWords g.words with
      | .ok (.mma p gd h d a b, _) =>
        if s.tileHeld w (fld d) then .next s
        else match s.gangArrival w d a b (.mma p gd h d a b) st.2.1 cs with
        | .error t => .next (s.trapWarp t w)
        | .ok v =>
          let s := s.recordArrival w v
          .next (if s.gangMissing w && (s.latchOf w).any (fun x => decide (x.part = part)) then s.gangFault w 1 else s)
      | _ => .next s

/-- A warp that exits before its latch fires: the members that have arrived fault (R403). -/
def State.gangExit (s : State) (w : WarpId) : State :=
  let as := s.latchOf w
  if as.any (fun a => a.gang.getLsbD ((s.warp w).wp % 4)) then s.gangFault w 1 else s

/-! ## MTX (R405 to R408) -/

/-- A collective function of one register operand, or none. -/
def mtxIssue (i : Instr) (a : Option (BitVec 7)) (c : Nat) (f : State → WarpId → BitVec 32 → Except Trap (State → State)) (s : State) : MtxOut :=
  let cs := laneCtxs s
  let arg (x : LaneCtx) : Except Trap (BitVec 32) := match a with | some a => x.word (fld a) 0 | none => .ok 0
  match s.collective i cs, cs with
  | some o, _ => o
  | none, [] => .nothing
  | none, l0 :: _ =>
    match firstFault (fun c => (arg c).map (fun _ => ())) cs, arg l0 with
    | some t, _ => .trap t
    | _, .error t => .trap t
    | none, .ok v =>
      if s.tileHeld l0.tid.warp c then .hold
      else
        match f s l0.tid.warp v with
        | .error t => .trap t
        | .ok e => if s.mtxFull l0.tid.warp then .hold else .go e

/-- MTX ZERO (R407). -/
def execMtxZero (g : BitVec 4) (d a : BitVec 7) (s : State) : Host.Outcome State Fault Refusal :=
  let tag : BitVec 4 := BitVec.ofNat 4 (fld a)
  .next (runMtx (.mtxZero g d a) (mtxIssue (.mtxZero g d a) none (fld d) (fun s w _ =>
    (s.tileCheck w (fld d) tag).map (fun _ s =>
      let r := s.reserveTile w (fld d) tag
      r.2.startMtx { r.2.newMtx w 0 (fld d) with tag := tag, fresh := r.1 }))) s)

/-- MTX LD (R406, R407). -/
def execMtxLd (g : BitVec 4) (h : BitVec 1) (d a : BitVec 7) (s : State) : Host.Outcome State Fault Refusal :=
  .next (runMtx (.mtxLd g h d a) (mtxIssue (.mtxLd g h d a) (some a) (fld d) (fun s w o =>
    (s.transferCheck w (fld d) false o).map (fun q s =>
      let r := s.reserveTile w (fld d) q.2
      r.2.startMtx { r.2.newMtx w 1 (fld d) with recA := q.1, tag := q.2, fresh := r.1 }))) s)

/-- MTX ST (R406, R407). -/
def execMtxSt (g : BitVec 4) (h : BitVec 1) (d a : BitVec 7) (s : State) : Host.Outcome State Fault Refusal :=
  .next (runMtx (.mtxSt g h d a) (mtxIssue (.mtxSt g h d a) (some a) (fld d) (fun s w o =>
    (s.transferCheck w (fld d) true o).map (fun q s =>
      s.startMtx { s.newMtx w 2 (fld d) with recA := q.1, tag := q.2 }))) s)

/-- MTX REL (R407). -/
def execMtxRel (g : BitVec 4) (d : BitVec 7) (s : State) : Host.Outcome State Fault Refusal :=
  .next (runMtx (.mtxRel g d) (mtxIssue (.mtxRel g d) none (fld d) (fun _ w _ =>
    .ok (fun s => s.startMtx (s.newMtx w 4 (fld d))))) s)

/-! ## MTX RD (R408) -/

/-- The selector of RD in a lane, with the tile that the lowest active lane names. -/
def rdColumn (t : Nat) (v : BitVec 32) : Except Trap Nat :=
  if 5 < t ∨ v.toNat / 256 ≠ t ∨ bitsAt v.toNat 6 2 ≠ 0 then .error (Trap.sync 4 0x58 (BitVec.setWidth 64 v)) else .ok (v.toNat % 64)

/-- The tile that RD reads: bits [10:8] of the lowest active lane's selector. -/
def rdTile (a : BitVec 7) (act : List LaneCtx) : Nat :=
  match act with
  | l0 :: _ => match l0.word (fld a) 0 with | .ok v => bitsAt v.toNat 8 3 | .error _ => 0
  | [] => 0

/-- RD in a lane: the column it reads, or its trap, in the order of R320. -/
def rdLane (t : Nat) (d a : BitVec 7) (c : LaneCtx) : Except Trap Nat :=
  match allOk [(c.word (fld a) 0).map BitVec.toNat, c.dest (fld d) (decide (c.warp.tileTag t = tagF64))] with
  | .error e => .error e
  | .ok vs => rdColumn t (BitVec.ofNat 32 (nth 0 vs 0))

/-- The reads of the active lanes that pass their checks: lane, mark, first register, column. -/
def rdReads (t : Nat) (d a : BitVec 7) (mark : Nat) (act : List LaneCtx) : List (Nat × Nat × Nat × Nat) :=
  act.filterMap (fun c =>
    match rdLane t d a c, c.physical (fld d) 1 with
    | .ok j, p :: _ => some (c.lane, mark, p, j)
    | _, _ => none)

/-- MTX RD: per lane, once every earlier operation of the warp on the tile has committed (R408). -/
def execMtxRd (g : BitVec 4) (h : BitVec 1) (d a : BitVec 7) (s : State) : Host.Outcome State Fault Refusal :=
  let i := Instr.mtxRd g h d a
  let act := if (encodingFault i).isSome then [] else activeLanes i s
  let t := rdTile a act
  match act with
  | [] => .next (runLanes i (fun _ => .ok id) s)
  | l0 :: _ =>
    let w := l0.tid.warp
    let reads := rdReads t d a s.fresh act
    if act.all (fun c => match rdLane t d a c with | .ok _ => false | .error _ => true) then
      .next (runLanes i (fun c => (rdLane t d a c).map (fun _ => id)) s)
    else if s.mtxFull w || s.tileHeld w t then .next (holdIssue s)
    else
      .next (s.gated (act.map (fun c => (c.tid, 3))) (fun s =>
        let n := if l0.warp.tileTag t = tagF64 then 2 else 1
        let m := s.fresh
        let s := runLanes i (fun c => (rdLane t d a c).map (fun _ => c.markPending (fld d) n m)) s
        s.startMtx { s.newMtx w 3 t with reads := reads }))

end Sys2Proof.Machine
end

