-- ==== Sys2Proof/Machine/Pool.lean ====
section
/-! DEFINITION. The core pool: plans of the segment map (R161 to R166), the wring that makes them real (R169 to R173), POOL (R167,
R168, R422), and a bundle's arrival on a core and its leaving (R128, R136, R162, R166). -/

namespace Sys2Proof.Machine

/-! ## Choosing segments (R165) -/

/-- The lowest or highest segment of a quadrant that a test accepts and no wring surrenders. -/
def pickSeg (segs : List Segment) (q : Nat) (high : Bool) (p : Segment → Bool) : Option Nat :=
  let ns := (segs.zipIdx.filter (fun x => decide (x.2 / 10 = q) && p x.1 && !x.1.wrg)).map Prod.snd
  if high then ns.getLast? else ns.head?

/-- Whether a segment is unallotted MXS. -/
def Segment.spare (g : Segment) : Bool := decide (g.role = .mxs) && g.own.isNone

/-- A CCH segment above the quadrant's minimum, the highest. -/
def cchDonor (q : Nat) (segs : List Segment) : Option Nat :=
  if countRole .cch q segs ≤ 1 then none else pickSeg segs q true (fun g => decide (g.role = .cch))

/-- The number of unallotted MXS segments of a quadrant. -/
def spareCount (q : Nat) (segs : List Segment) : Nat := ((segs.drop (10 * q)).take 10).countP Segment.spare

/-- The REG segments of a quadrant that are not needed for ranges up to `top` KiB. -/
def regSpare (q top : Nat) (segs : List Segment) : Nat :=
  countRole .reg q segs - Nat.max 2 ((top + 7) / 8)

/-- A REG segment that is not needed, of highest join index. -/
def regDonor (q top : Nat) (segs : List Segment) : Option Nat :=
  if regSpare q top segs = 0 then none
  else pickSeg segs q true (fun g => decide (g.role = .reg) && decide (g.idx + 1 = countRole .reg q segs))

/-- The lowest way that no CCH segment is. -/
def unusedWay (segs : List Segment) : Nat :=
  ((List.range 40).find? (fun w => !segs.any (fun g => decide (g.role = .cch) && decide (g.idx = w)))).getD 0

/-- The lowest free offset at which a range of a size fits among ranges (R164). -/
def firstFit (size : Nat) (rs : List (Nat × Nat)) : Nat :=
  let fits (o : Nat) : Bool := rs.all (fun r => decide (o + size ≤ r.1) || decide (r.1 + r.2 ≤ o))
  ((rs.map (fun r => r.1 + r.2)).filter fits).foldl Nat.min (if fits 0 then 0 else 320)

/-- n ranges of a size placed one after another: their offsets, and all ranges. -/
def placeRanges (size : Nat) : Nat → List (Nat × Nat) → List Nat × List (Nat × Nat)
  | 0, rs => ([], rs)
  | n + 1, rs =>
    let o := firstFit size rs
    let r := placeRanges size n (rs ++ [(o, size)])
    (o :: r.1, r.2)

/-- The end of the highest range. -/
def topOf (rs : List (Nat × Nat)) : Nat := rs.foldl (fun m r => Nat.max m (r.1 + r.2)) 0

/-- REG of a quadrant grown until it holds `top` KiB (R165 step 1). -/
def growReg (q top : Nat) : Nat → List Segment → Option (List Segment)
  | 0, segs => if top ≤ 8 * countRole .reg q segs then some segs else none
  | n + 1, segs =>
    let reg := countRole .reg q segs
    if top ≤ 8 * reg then some segs
    else
      match (cchDonor q segs).orElse (fun _ => pickSeg segs q true Segment.spare) with
      | some k => growReg q top n (setNth ⟨.reg, false, none, reg⟩ segs k)
      | none => none

/-- MXS segments i and up of a quadrant allotted to a bundle, n of them (R165 step 2); REG gives where `top` is given. -/
def allotMxs (q b : Nat) (top : Option Nat) : Nat → Nat → List Segment → Option (List Segment)
  | 0, _, segs => some segs
  | n + 1, i, segs =>
    let reg := match top with | some t => regDonor q t segs | none => none
    match ((pickSeg segs q false Segment.spare).orElse (fun _ => cchDonor q segs)).orElse (fun _ => reg) with
    | some k =>
      let segs := setNth ⟨.mxs, false, some b, i⟩ segs k
      if countRole .mxs q segs ≤ 6 then allotMxs q b top n (i + 1) segs else none
    | none => none

/-- The quadrant with most segments of a kind, the lowest on a tie; none where no quadrant has one. -/
def mostOf (count : Nat → Nat) : Option Nat :=
  let q := [1, 2, 3].foldl (fun b q => if count b < count q then q else b) 0
  if count q = 0 then none else some q

/-- One donor for SCR (R165 step 3). -/
def scrDonor (tops : Option (List Nat)) (segs : List Segment) : Option Nat :=
  match mostOf (fun q => countRole .cch q segs - 1) with
  | some q => cchDonor q segs
  | none =>
    match mostOf (fun q => spareCount q segs) with
    | some q => pickSeg segs q true Segment.spare
    | none =>
      match tops with
      | none => none
      | some ts => (mostOf (fun q => regSpare q (nth 0 ts q) segs)).bind (fun q => regDonor q (nth 0 ts q) segs)

/-- SCR segments of the whole core. -/
def scrTotal (segs : List Segment) : Nat := segs.countP (fun g => decide (g.role = .scr))

/-- SCR segments i and up given to a bundle, n of them. -/
def allotScr (b : Nat) (tops : Option (List Nat)) : Nat → Nat → List Segment → Option (List Segment)
  | 0, _, segs => some segs
  | n + 1, i, segs =>
    match scrDonor tops segs with
    | some k => if 28 ≤ scrTotal segs then none else allotScr b tops n (i + 1) (setNth ⟨.scr, false, some b, i⟩ segs k)
    | none => none

/-! ## The pool check (R136, R165) -/

/-- What a bundle asks of a core. -/
structure Shape where
  wpb : Nat
  regs : Nat
  scrs : Nat
  mxs : List Nat
  deriving DecidableEq, Repr

/-- The warps of a bundle in a partition. -/
def Shape.warpsIn (h : Shape) (q : Nat) : Nat := (h.wpb + 3 - q) / 4

/-- The shape of a record's bundles. -/
def recShape (r : BitVec 512) : Shape :=
  { wpb := recWpb r, regs := recRegs r, scrs := recScrs r, mxs := List.replicate 4 (recMxsq r) }

/-- One quadrant planned: its ranges placed, REG grown; the map and all ranges' top, with the offsets. -/
def planReg (h : Shape) (ranges : Nat → List (Nat × Nat)) (q : Nat) (segs : List Segment) : Option (List Segment × Nat × List Nat) :=
  let r := placeRanges h.regs (h.warpsIn q) (ranges q)
  (growReg q (topOf r.2) 10 segs).map (fun m => (m, topOf r.2, r.1))

/-- The pool check: the map that would hold a bundle in slot b, and the offset of each warp's range; none where the core cannot
hold it. -/
def planBundle (segs : List Segment) (ranges : Nat → List (Nat × Nat)) (b : Nat) (h : Shape) : Option (List Segment × List Nat) :=
  let regs := [0, 1, 2, 3].foldl (fun (x : Option (List Segment × List Nat × List (List Nat))) q =>
    x.bind (fun p => (planReg h ranges q p.1).map (fun r => (r.1, p.2.1 ++ [r.2.1], p.2.2 ++ [r.2.2])))) (some (segs, [], []))
  match regs with
  | none => none
  | some (segs, tops, bases) =>
    let mxs := [0, 1, 2, 3].foldl (fun (x : Option (List Segment)) q =>
      x.bind (fun m => allotMxs q b (some (nth 0 tops q)) (nth 0 h.mxs q) 0 m)) (some segs)
    match mxs.bind (fun m => allotScr b (some tops) h.scrs 0 m) with
    | none => none
    | some m => some (m, (List.range h.wpb).map (fun wp => nth 0 (nth [] bases (wp % 4)) (wp / 4)))

/-- Whether an empty core can hold a bundle (R129 code 0x08). -/
def fitsEmpty (h : Shape) : Bool := (planBundle Core.reset.segs (fun _ => []) 0 h).isSome

/-- The register ranges of a core's quadrant. -/
def State.rangesOf (s : State) (c : CoreId) (except : Nat) (q : Nat) : List (Nat × Nat) :=
  (s.warps.filter (fun p => decide (p.1.coreId = c) && decide (p.1.part = q) && decide (p.2.bslot ≠ except))).map
    (fun p => (p.2.base, (s.bundleAt c p.2.bslot).regs))

/-- The free warp slots of a partition, in ascending order. -/
def State.freeWarpSlots (s : State) (c : CoreId) (q : Nat) : List Nat :=
  (List.range 16).filter (fun n => (lookup? (⟨c.die, c.core, q, n⟩ : WarpId) s.warps).isNone)

/-- The lowest free bundle slot of a core. -/
def State.freeBundleSlot (s : State) (c : CoreId) : Option Nat :=
  (List.range 64).find? (fun b => (lookup? b (s.core c).bundles).isNone)

/-- The shape that a seated bundle asks for. -/
def State.shapeOf (s : State) (v : Bundle) : Shape :=
  match s.shadow.find? (fun x => decide (x.bundle.grid = v.grid) && decide (x.bundle.element = v.element) && decide (x.bundle.member = v.member)) with
  | some x => { wpb := x.bundle.wpb, regs := x.bundle.regs, scrs := x.bundle.scrSegs, mxs := x.bundle.mxs }
  | none => recShape (s.recordOf v)

/-- The map of a core as its occupancy counts for the pool check: with the shares of the bundles placed on it whose wrings have not
finished (R136, log 59). -/
def State.occupancy (s : State) (c : CoreId) : List Segment :=
  let k := s.core c
  let now := match k.wring with
    | some w => if w.place.isSome then w.planned else k.segs
    | none => k.segs
  (k.bundles.filter (fun p => !p.2.ready && decide (k.wring.bind (fun (w : Wring) => w.place) ≠ some p.1))).foldl (fun segs p =>
    match planBundle segs (s.rangesOf c p.1) p.1 (s.shapeOf p.2) with
    | some m => m.1
    | none => segs) now

/-- The plan for a bundle on a core as it stands, with the slot it would take (R136). -/
def State.planOn (s : State) (c : CoreId) (h : Shape) : Option (Nat × List Segment × List Nat) :=
  match s.freeBundleSlot c with
  | none => none
  | some b =>
    if [0, 1, 2, 3].all (fun q => decide (h.warpsIn q ≤ (s.freeWarpSlots c q).length)) then
      (planBundle (s.occupancy c) (s.rangesOf c 64) b h).map (fun p => (b, p.1, p.2))
    else none

/-! ## Wrings (R169, R171) -/

/-- Whether a segment is surrendered: it leaves its role or its owner. -/
def surrendered (g p : Segment) : Bool := decide (g.role ≠ p.role) || (g.own.isSome && decide (g.own ≠ p.own))

/-- The map with WRG set on what is surrendered. -/
def markWrg (segs planned : List Segment) : List Segment :=
  List.zipWith (fun (g p : Segment) => if surrendered g p then { g with wrg := true } else g) segs planned

/-- A wring begun on a core whose controller is free. -/
def State.startWring (s : State) (c : CoreId) (w : Wring) : State :=
  s.onCore c (fun k => { k with segs := markWrg k.segs w.planned, wring := some w })

/-- The shares of a bundle given back (R166): SCR becomes CCH, allotted MXS unallotted. -/
def releaseShares (b : Nat) (segs : List Segment) : List Segment :=
  (List.range 40).foldl (fun m n =>
    match nth? m n with
    | some g =>
      if g.own = some b then
        setNth (if g.role = .scr then ⟨.cch, false, none, unusedWay m⟩ else ⟨.mxs, false, none, 0⟩) m n
      else m
    | none => m) segs

/-- The wring that brings an empty core back to the reset partition (R162). -/
def State.resetPool (s : State) (c : CoreId) : State :=
  let k := s.core c
  if k.bundles.isEmpty && k.wring.isNone && k.segs != Core.reset.segs then s.startWring c ⟨Core.reset.segs, none, none⟩ else s

/-- Whether a queued matrix operation names a tile in a segment being surrendered, so that the wring waits (R171 step 3). -/
def State.wringWaits (s : State) (c : CoreId) : Bool :=
  s.matrix.any (fun j => decide (j.warp.coreId = c) && s.tileMoving j.warp j.tile)

/-- Lines in surrendered ways written back and dropped; lines of segments that stay CCH follow their segment's way (R171 step 2). -/
def State.visitLines (s : State) (c : CoreId) (planned : List Segment) : State :=
  let pairs := List.zip (s.core c).segs planned
  let way (n : Nat) : Option Nat :=
    (pairs.find? (fun p => decide (p.1.role = .cch) && decide (p.1.idx = n) && decide (p.2.role = .cch))).map (fun p => p.2.idx)
  let gone := (s.core c).l1.filter (fun l => (way l.way).isNone)
  let s := gone.foldl (fun s l => s.queueAccesses (l.writeBacks c s.fresh)) s
  s.onCore c (fun k => { k with l1 := k.l1.filterMap (fun (l : L1Line) => (way l.way).map (fun n => { l with way := n })) })

/-- The segments of a tile that moves: those it keeps, and the lowest free allotted ones of the new map for the others. -/
def State.movedSegs (s : State) (w : WarpId) (planned : List Segment) (t : Tile) : List Nat :=
  let stays (n : Nat) : Bool := match nth? planned n with | some g => decide (g.role = .mxs) && g.own == some (s.warp w).bslot | none => false
  let keep := t.segs.filter stays
  let used := s.tileSegs w
  let free := (List.range 40).filter (fun n => decide (n / 10 = w.part) && stays n && !used.contains n)
  keep ++ free.take (t.segs.length - keep.length)

/-- The tiles of a core that lie in surrendered segments moved (R171 step 3). -/
def State.moveTiles (s : State) (c : CoreId) (planned : List Segment) : State :=
  (s.warps.filter (fun p => decide (p.1.coreId = c))).foldl (fun s p =>
    p.2.tiles.foldl (fun s t => s.setTile p.1 t.1 { t.2 with segs := s.movedSegs p.1 planned t.2 }) s) s

/-- The shares of a bundle as a map gives them. -/
def Bundle.sharesOf (v : Bundle) (b : Nat) (segs : List Segment) : Bundle :=
  { v with
    scrSegs := segs.countP (fun g => decide (g.role = .scr) && g.own == some b)
    mxs := [0, 1, 2, 3].map (fun q => ((segs.drop (10 * q)).take 10).countP (fun g => decide (g.role = .mxs) && g.own == some b)) }

/-- The planned map of a core made real: lines visited, tiles moved, entries rewritten, WRG clear (R171). -/
def State.rewriteMap (s : State) (c : CoreId) (planned : List Segment) : State :=
  let s := (s.visitLines c planned).moveTiles c planned
  s.onCore c (fun k => { k with
    segs := planned, wring := none
    bundles := k.bundles.map (fun p => (p.1, if p.2.ready then p.2.sharesOf p.1 planned else p.2)) })

/-! ## A bundle's warps (R128) -/

/-- The warp id of warp number wp among free slots per partition. -/
def State.warpPlaces (s : State) (c : CoreId) (wpb : Nat) : List WarpId :=
  (List.range wpb).map (fun wp => ⟨c.die, c.core, wp % 4, nth 0 (s.freeWarpSlots c (wp % 4)) (wp / 4)⟩)

/-- A bundle put in a slot of a core with its warps' ranges; it waits for its wring. -/
def State.seatBundle (s : State) (c : CoreId) (b : Nat) (v : Bundle) (places : List WarpId) (bases : List Nat) : State :=
  let s := s.setBundle c b { v with ready := false, begun := false, placedAt := s.time }
  (places.zip bases).zipIdx.foldl (fun s p =>
    s.setWarp p.1.1 { Warp.reset with bslot := b, wp := p.2, base := p.1.2 }) s

/-- The bundles of one spread, or the lone bundle, in a cluster: core and slot. -/
def State.spreadSlots (s : State) (die cluster : Nat) (spread : Nat) : List (CoreId × Nat) :=
  (s.cores.filter (fun c => decide (c.1.die = die) && decide (c.1.cluster = cluster))).flatMap (fun c =>
    (c.2.bundles.filter (fun p => decide (p.2.spread = spread))).map (fun p => (c.1, p.1)))

/-- Whether a bundle in a slot is restored from the shadow store. -/
def State.restoring (s : State) (c : CoreId) (b : Nat) : Bool :=
  s.shadow.any (fun v => decide (v.die = c.die) && v.restoring == some (c.core, b))

/-- The threads of a warp begun at CODE (R128). -/
def State.beginWarp (s : State) (w : WarpId) (code : BitVec 64) : State :=
  w.threads.foldl (fun s x => s.setThread x { Thread.reset with pc := code, repc := code, readyAt := s.time, safeAt := s.time }) s

/-- A bundle's warps begun. What its grid's launch published is seen: the core's cache keeps no clean byte (R217). -/
def State.beginBundle (s : State) (c : CoreId) (b : Nat) : State :=
  let v := s.bundleAt c b
  let s := (s.setBundle c b { v with begun := true }).l1Invalidate c
  if s.restoring c b then s else (s.warpsOf c b).foldl (fun s w => s.beginWarp w (recCode (s.recordOf v))) s

/-- The members that a bundle's spread has to begin with: those saved, where it is being restored (R147), else every one. -/
def State.membersDue (s : State) (c : CoreId) (v : Bundle) : Nat :=
  let n := s.shadow.countP (fun x => decide (x.die = c.die) && decide (x.bundle.spread = v.spread))
  if n = 0 then s.membersIn v else n

/-- The bundles of a spread begun, once every one of them is ready (R136). -/
def State.beginSpread (s : State) (c : CoreId) (b : Nat) : State :=
  let v := s.bundleAt c b
  let all := s.spreadSlots c.die c.cluster v.spread
  if all.length = s.membersDue c v && all.all (fun m => (s.bundleAt m.1 m.2).ready) then
    all.foldl (fun s m => s.beginBundle m.1 m.2) s
  else s

/-! ## Leaving a core (R162, R166, R177) -/

/-- An access of a thread that has gone: a read is dropped, a write is performed for no one. -/
def orphan (gone : ThreadId → Bool) (a : Access) : Option Access :=
  match a.who with
  | .lane t => if gone t then (if a.reads then none else some { a with who := .service, dest := [], acq := 0 }) else some a
  | .writeBack c ts => some { a with who := .writeBack c (ts.filter (fun t => !gone t)) }
  | _ => some a

/-- What the machine holds for the threads of a bundle dropped, as it leaves its core. -/
def State.dropThreads (s : State) (c : CoreId) (b : Nat) : State :=
  let ws := s.warpsOf c b
  let gone (t : ThreadId) : Bool := ws.contains t.warp
  let s := { s with
    threads := s.threads.filter (fun p => !gone p.1)
    warps := s.warps.filter (fun p => !ws.contains p.1)
    groups := s.groups.filter (fun p => !(membersOf p.1 p.2).any (fun m => gone m.2))
    returns := s.returns.filter (fun r => !gone r.thread)
    sfu := s.sfu.filter (fun o => !gone o.thread)
    jobs := s.jobs.filter (fun j => !ws.contains j.warp)
    matrix := s.matrix.filter (fun j => !ws.contains j.warp) }
  let s := s.onCoh (fun k => { k with accesses := k.accesses.filterMap (orphan gone), cxlReqs := k.cxlReqs.filterMap (orphan gone) })
  let waitsYet (w : FaultSlot × Option ThreadId) : Bool :=
    match w.2 with
    | some t => !gone t
    | none => w.1.copies.any (fun j => s.jobs.any (fun x => decide (x.id = j.1)))
  let s := s.onDie c.die (fun d => { d with
    slotWaits := d.slotWaits.filter waitsYet
    refreshWaits := d.refreshWaits.filter (fun r => !gone r.2.2.thread) })
  s.onCore c (fun k => { k with
    l1 := k.l1.map (fun (l : L1Line) => { l with writers := l.writers.filter (fun t => !gone t) })
    trays := k.trays.filter (fun t => decide (t.2.bslot ≠ b)), bars := k.bars.filter (fun p => decide (p.2.holder ≠ b))
    gens := keepGens (fun p => decide (p.2.holder = b)) k.bars k.gens
    latches := k.latches.filter (fun l => decide (l.1.1 ≠ b)), bundles := drop b k.bundles })

/-- The cluster slots and cluster-bound monitors of a spread with no member left in its cluster freed (R224, R242). -/
def State.dropSpread (s : State) (c : CoreId) (spread : Nat) : State :=
  if (s.spreadSlots c.die c.cluster spread).isEmpty then
    let k := s.cluster c.die c.cluster
    s.setCluster c.die c.cluster { k with
      bars := k.bars.filter (fun p => decide (p.2.holder ≠ spread))
      gens := keepGens (fun p => decide (p.2.holder = spread)) k.bars k.gens
      monitors := k.monitors.filter (fun m => !(decide (m.2.spread = spread) && decide (m.2.level = 2))) }
  else s

/-- Every monitor of a spread with no member left in its cluster freed: it has ended (R460). -/
def State.dropMonitors (s : State) (c : CoreId) (spread : Nat) : State :=
  if (s.spreadSlots c.die c.cluster spread).isEmpty then
    let k := s.cluster c.die c.cluster
    s.setCluster c.die c.cluster { k with monitors := k.monitors.filter (fun m => decide (m.2.spread ≠ spread)) }
  else s

/-- A bundle leaves its core, by exit or by a save: its shares go back, its grid's microprograms go with the grid's last bundle,
and an empty core returns to the reset partition. -/
def State.leaveCore (s : State) (c : CoreId) (b : Nat) : State :=
  let v := s.bundleAt c b
  let s := (s.dropThreads c b).dropSpread c v.spread
  let s := s.onCore c (fun k => { k with
    segs := releaseShares b k.segs
    wring := k.wring.map (fun (w : Wring) => { w with planned := releaseShares b w.planned, place := if w.place = some b then none else w.place })
    micro := if k.bundles.any (fun p => decide (p.2.grid = v.grid)) then k.micro else k.micro.filter (fun m => decide (m.2.grid ≠ v.grid)) })
  s.resetPool c

/-! ## Placements that wait, are made, or are withdrawn (R136, R169) -/

/-- The item that a bundle was placed from goes back into its dispatcher's order. -/
def State.itemBack (s : State) (die : Nat) (v : Bundle) : State :=
  let saved := s.shadow.any (fun x => decide (x.bundle.grid = v.grid) && decide (x.bundle.element = v.element))
  s.onDisp die (fun d => { d with items := d.items ++ [⟨v.grid, v.element, saved, v.since, v.base, v.prio⟩] })

/-- A placement withdrawn: every member leaves, and the spread is ready again (R136). -/
def State.withdraw (s : State) (c : CoreId) (b : Nat) : State :=
  let v := s.bundleAt c b
  let all := s.spreadSlots c.die c.cluster v.spread
  let s := all.foldl (fun s m => s.leaveCore m.1 m.2) s
  let s := { s with shadow := s.shadow.map (fun (x : Saved) =>
      if x.bundle.grid = v.grid ∧ x.bundle.element = v.element then { x with restoring := none } else x) }
  s.itemBack c.die v

/-- A seated bundle whose controller is free: the pool check is made on the map as it stands, and its wring begins, or its
placement is withdrawn. -/
def State.beginPlacement (s : State) (c : CoreId) (b : Nat) : State :=
  match planBundle (s.core c).segs (s.rangesOf c b) b (s.shapeOf (s.bundleAt c b)) with
  | none => s.withdraw c b
  | some p =>
    let ws := s.warpsOf c b
    let s := ws.foldl (fun s w => s.onWarp w (fun v => { v with base := nth 0 p.2 v.wp })) s
    s.startWring c ⟨p.1, none, some b⟩

/-- The next placement that waits for a core's controller. -/
def State.nextPlacement (s : State) (c : CoreId) : State :=
  if (s.core c).wring.isSome then s
  else
    match (s.core c).bundles.find? (fun p => !p.2.ready) with
    | some p => s.beginPlacement c p.1
    | none => s.resetPool c

/-- What follows a wring: the POOL's code, or the placed bundle, and then the next placement that waits. -/
def State.afterWring (s : State) (c : CoreId) (w : Wring) : State :=
  let s := match w.pool with
    | some p => ({ s with returns := s.returns ++ p.2 }).onLiveWarp p.1 (fun v => { v with poolPending := false })
    | none => s
  let s := match w.place with
    | some b => (s.setBundle c b { (s.bundleAt c b).sharesOf b w.planned with ready := true }).beginSpread c b
    | none => s
  s.nextPlacement c

/-- WRING_DONE: the wring of a core finishes, unless a matrix operation on a tile it moves is in flight (R171). -/
def execWringDone (die core : Nat) (s : State) : Host.Outcome State Fault Refusal :=
  let c : CoreId := ⟨die, core⟩
  match (s.core c).wring with
  | none => .next s
  | some w => if s.wringWaits c then .next s else .next ((s.rewriteMap c w.planned).afterWring c w)

/-! ## POOL (R167, R168, R422) -/

/-- The answer of POOL: a code at once, or a map to be made real. -/
inductive PoolOut where
  | code (n : Nat)
  | change (planned : List Segment) (scr : Option Nat)

/-- The sum over quadrants. -/
def sumQuads (f : Nat → Nat) : Nat := f 0 + f 1 + f 2 + f 3

/-- Whether a configured tray of a bundle holds a byte at or beyond an offset. -/
def State.trayBeyond (s : State) (c : CoreId) (b off : Nat) : Bool :=
  (s.core c).trays.any (fun t => decide (t.2.bslot = b) && decide (off < t.2.offset + t.2.size * t.2.n))

/-- The map with a bundle's SCR segments of index k and up given to CCH. -/
def shrinkScr (b k : Nat) (segs : List Segment) : List Segment :=
  (List.range 40).foldl (fun m n =>
    match nth? m n with
    | some g => if g.role = .scr ∧ g.own = some b ∧ k ≤ g.idx then setNth ⟨.cch, false, none, unusedWay m⟩ m n else m
    | none => m) segs

/-- The scratch form of POOL, size n bytes (R168); its sums are those of the map in force (log 152). -/
def State.poolScr (s : State) (c : CoreId) (b n : Nat) : PoolOut :=
  let k := n / 8192
  let core := s.core c
  let have' := core.segs.countP (fun g => decide (g.role = .scr) && g.own == some b)
  if n % 8192 ≠ 0 ∨ 2 ^ 31 < n then .code 5
  else if 28 < k ∨ 28 < scrTotal core.segs - have' + k then .code 1
  else if core.wring.isSome then .code 3
  else if have' < k ∧ sumQuads (fun q => countRole .cch q core.segs - 1) + sumQuads (fun q => spareCount q core.segs) < k - have' then .code 2
  else if k < have' ∧ s.trayBeyond c b (k * 8192) then .code 4
  else if k = have' then .code 0
  else if k < have' then .change (shrinkScr b k core.segs) (some k)
  else
    match allotScr b none (k - have') have' core.segs with
    | some m => .change m none
    | none => .code 2

/-- The segments of a bundle's tiles in a quadrant. -/
def State.liveSegs (s : State) (c : CoreId) (b q : Nat) : Nat :=
  ((s.warps.filter (fun p => decide (p.1.coreId = c) && decide (p.1.part = q) && decide (p.2.bslot = b))).flatMap
    (fun p => p.2.tiles.flatMap (fun t => t.2.segs))).length

/-- The map with a bundle's allotted segments of index m and up of a quadrant unallotted. -/
def shrinkMxs (b q m : Nat) (segs : List Segment) : List Segment :=
  segs.zipIdx.map (fun p =>
    if p.2 / 10 = q ∧ p.1.role = .mxs ∧ p.1.own = some b ∧ m ≤ p.1.idx then ⟨.mxs, false, none, 0⟩ else p.1)

/-- The MXS form of POOL: quadrant q, count m (R168). -/
def State.poolMxs (s : State) (c : CoreId) (b v : Nat) : PoolOut :=
  let m := v % 256
  let q := v / 256
  let core := s.core c
  let have' := ((core.segs.drop (10 * q)).take 10).countP (fun g => decide (g.role = .mxs) && g.own == some b)
  let allotted := countRole .mxs q core.segs - spareCount q core.segs
  if 3 < q then .code 5
  else if 6 < m ∨ 6 < allotted - have' + m then .code 1
  else if core.wring.isSome then .code 3
  else if have' < m ∧ spareCount q core.segs + (countRole .cch q core.segs - 1) < m - have' then .code 2
  else if m < have' ∧ m < s.liveSegs c b q then .code 4
  else if m = have' then .code 0
  else if m < have' then .change (shrinkMxs b q m core.segs) none
  else
    match allotMxs q b none (m - have') have' core.segs with
    | some p => .change p none
    | none => .code 2

/-- Whether a copy, gather or matrix operand of the bundle's spread that issued before lies in window 0 or 1, so that a shrink
waits for it (R170). -/
def State.scratchInFlight (s : State) (c : CoreId) (b : Nat) : Bool :=
  let spread := (s.bundleAt c b).spread
  let mine (w : WarpId) : Bool := decide (w.die = c.die) && decide (w.coreId.cluster = c.cluster) && decide ((s.bundle w).spread = spread)
  let inWin (va : Nat) : Bool := va.testBit 56 && decide (bitsAt va 52 4 ≤ 1)
  s.jobs.any (fun j => mine j.warp && (inWin (j.num 0 8) || (if j.gather then !(j.ik && j.ok) else !j.dk && inWin (j.num 8 8)))) ||
  s.matrix.any (fun j => mine j.warp && (inWin (opNum j.recA 0 8) || inWin (opNum j.recB 0 8)))

/-- What the pool controller answers to a POOL. -/
def State.poolAnswer (s : State) (mxs : Bool) (c : CoreId) (b n : Nat) : PoolOut := if mxs then s.poolMxs c b n else s.poolScr c b n

/-- The values that a POOL's destinations wait for: the code 0, with the registers pending. -/
def poolReturns (d : BitVec 7) (act : List LaneCtx) (s : State) : State × List Return :=
  let t := writeResult (fld d) [(0, tagN32)] act s
  ({ t with returns := s.returns }, t.returns.drop s.returns.length)

/-- A POOL that changes the map: its wring begins, a shrink of SCR taking effect at once for every later access (R170, R171). -/
def State.startPool (s : State) (d : BitVec 7) (l0 : LaneCtx) (act : List LaneCtx) (planned : List Segment) (scr : Option Nat) : State :=
  let w := l0.tid.warp
  let c := w.coreId
  let b := l0.warp.bslot
  let r := poolReturns d act s
  let s := r.1.startWring c ⟨planned, some (w, r.2), none⟩
  let s := s.onWarp w (fun v => { v with poolPending := true })
  match scr with
  | some k =>
    let v := s.bundleAt c b
    s.setBundle c b { v with scrSegs := k, scr := v.scr.filter (fun x => decide (x.1 < k * 8192)) }
  | none => s

/-- POOL carried out once for the bundle (R422). -/
def runPool (i : Instr) (mxs : Bool) (d a : BitVec 7) (s : State) : State :=
  let chk (c : LaneCtx) : Except Trap Unit := bothOk (c.word (fld a) 0) (destOk (fld d) false c)
  let out (s : State) (l0 : LaneCtx) : Except Trap PoolOut :=
    (l0.word (fld a) 0).map (fun v => s.poolAnswer mxs l0.tid.warp.coreId l0.warp.bslot v.toNat)
  let act := if (encodingFault i).isSome then [] else activeLanes i s
  let waits := match act with
    | l0 :: _ =>
      match out s l0 with
      | .ok (.change _ (some _)) => s.scratchInFlight l0.tid.warp.coreId l0.warp.bslot
      | _ => false
    | [] => false
  if waits then holdIssue s
  else
    runOnce i chk (fun l0 act =>
      match out s l0 with
      | .error t => .error t
      | .ok (.code n) => .ok (fun s => writeResult (fld d) [(BitVec.ofNat 32 n, tagN32)] act s)
      | .ok (.change m k) => .ok (fun s => s.startPool d l0 act m k)) s

/-- POOL SCR (R168, R422). -/
def execPoolScr (g : BitVec 4) (h : BitVec 1) (d a : BitVec 7) (s : State) : Host.Outcome State Fault Refusal :=
  .next (runPool (.poolScr g h d a) false d a s)

/-- POOL MXS (R168, R422): bits [31:16] set are a quadrant above 3. -/
def execPoolMxs (g : BitVec 4) (h : BitVec 1) (d a : BitVec 7) (s : State) : Host.Outcome State Fault Refusal :=
  .next (runPool (.poolMxs g h d a) true d a s)

end Sys2Proof.Machine
end

