-- ==== Sys2Proof/Machine/Launch.lean ====
section
/-! DEFINITION. Task records and queues: acceptance and its checks (R129 to R132), pushes by hardware (R131, R133, R140), the
global dispatcher (R135), placement (R134, R136 to R138), and the completion of grids (R139, R464). -/

namespace Sys2Proof.Machine

/-! ## Memory as a unit of a die reads and writes it -/

/-- Why a unit's access does not come about: a fault at an address, or a sector that must come to rest first. -/
inductive MemStop where
  | fault (va : BitVec 64)
  | wait (sec : Nat) (write : Bool)
  deriving DecidableEq, Repr

/-- Whether a 44-bit address of this module can be reached from a site: local memory in service and not lost, or far memory of a window, no
request for which the host has just ended with an error (R64, R105, R106, R114). -/
def State.reachable (s : State) (site pa : Nat) : Bool :=
  if farBase ≤ pa then (s.farWindow pa).isSome && !s.farFailed site (sectorOf pa)
  else decide (pa < localEnd) && !s.localOut && !(s.homeEntry (sectorOf pa)).lostb

/-- n bytes within one sector, read by physical address through the cache of a site. -/
def State.physRead (s : State) (site : Nat) (va : BitVec 64) (pa n : Nat) : Except MemStop (List Byte) :=
  if !s.reachable site pa then .error (.fault va)
  else
    match s.peekBytes site pa n with
    | some bs => .ok bs
    | none => .error (.wait (sectorOf pa) false)

/-- Bytes within one sector, written by physical address through the cache of a site. -/
def State.physWrite (s : State) (site : Nat) (va : BitVec 64) (pa : Nat) (bs : List Byte) : Except MemStop State :=
  if !s.reachable site pa then .error (.fault va)
  else
    match s.pokeBytes site pa bs with
    | some s => .ok s
    | none => .error (.wait (sectorOf pa) true)

/-- The die whose address-space roots a dispatcher uses: its own, or for the global dispatcher CD 0, the roots of all dies
being equal (R189). -/
def rootsOf (disp : Nat) : Nat := if disp < 8 then disp else 0

/-- A dispatcher's translation: other modules and addresses beyond the virtual space are faults (R132). -/
def State.dispPa (s : State) (disp : Nat) (asid : BitVec 8) (va : BitVec 64) (kind : Nat) : Except MemStop Nat :=
  if va.extractLsb' 56 8 ≠ 0 then .error (.fault va)
  else
    match s.translateBy disp (rootsOf disp) asid va.toNat kind with
    | .ok pa _ => if pa / 2 ^ 44 = s.nmod then .ok (pa % 2 ^ 44) else .error (.fault va)
    | .wait sec => .error (.wait sec false)
    | .fault _ _ => .error (.fault va)
    | .event _ _ => .error (.fault va)

/-- n bytes within one sector, read by a dispatcher; `kind` is what the page must allow. -/
def State.dispRead (s : State) (disp : Nat) (asid : BitVec 8) (va : BitVec 64) (n kind : Nat) : Except MemStop (List Byte) :=
  match s.dispPa disp asid va kind with
  | .error e => .error e
  | .ok pa => s.physRead disp va pa n

/-- Bytes within one sector, written by a dispatcher. -/
def State.dispWrite (s : State) (disp : Nat) (asid : BitVec 8) (va : BitVec 64) (bs : List Byte) : Except MemStop State :=
  match s.dispPa disp asid va 1 with
  | .error e => .error e
  | .ok pa => s.physWrite disp va pa bs

/-- 64 bytes at an address a multiple of 8, read eight at a time. -/
def State.dispRead64 (s : State) (disp : Nat) (asid : BitVec 8) (va : BitVec 64) : Except MemStop (List Byte) :=
  (List.range 8).foldl (fun (r : Except MemStop (List Byte)) i =>
    match r with
    | .error e => .error e
    | .ok bs =>
      match s.dispRead disp asid (va + BitVec.ofNat 64 (8 * i)) 8 0 with
      | .error e => .error e
      | .ok b => .ok (bs ++ b)) (.ok [])

/-- 64 bytes written eight at a time. -/
def State.dispWrite64 (s : State) (disp : Nat) (asid : BitVec 8) (va : BitVec 64) (x : Nat) : Except MemStop State :=
  (List.range 8).foldl (fun (r : Except MemStop State) i =>
    match r with
    | .error e => .error e
    | .ok s => s.dispWrite disp asid (va + BitVec.ofNat 64 (8 * i)) (bytesOfNat 8 (x / 256 ^ (8 * i)))) (.ok s)

/-- What a step that met a wait leaves: the sector asked for. -/
def State.await (s : State) (site : Nat) (sec : Nat) (write : Bool) : State := s.wantSector site sec write

/-! ## Queue registers (R132) -/

/-- Whether a dispatcher has a queue of this number. -/
def hasQueue (disp n : Nat) : Bool := (decide (disp < 8) && decide (n < 64)) || (decide (disp = 20) && decide (n < 16))

/-- A queue of a dispatcher. -/
def State.queue (s : State) (disp n : Nat) : Queue := lookupD n Queue.reset (s.dispatcher disp).queues

/-- The state with a queue replaced. -/
def State.setQueue (s : State) (disp n : Nat) (q : Queue) : State :=
  s.onDisp disp (fun d => { d with queues := put n q d.queues })

/-- QCFG written (R132): LOG below 4 is refused, also while EN is set and LOG is ignored (log 130); LOG is ignored while EN is set, and a queue enabled anew takes up acceptance. -/
def State.writeQcfg (s : State) (disp n : Nat) (v : BitVec 32) : State :=
  let q := s.queue disp n
  let log := v.extractLsb' 1 4
  if log.toNat < 4 then s.writeError
  else
    let q := { q with
      thrm := v.getLsbD 5, errc := q.errc &&& ~~~ v.extractLsb' 8 8, log := if q.en then q.log else log
      stuck := q.stuck && (q.en || !v.getLsbD 0), en := v.getLsbD 0 }
    s.setQueue disp n q

/-- QUEUE_ENABLE: QCFG written with EN 1 (R132). -/
def execQueueEnable (disp n : Nat) (v : BitVec 32) (s : State) : Host.Outcome State Fault Refusal :=
  if hasQueue disp n && v.getLsbD 0 then .next (s.writeQcfg disp n v) else .next s

/-- QUEUE_DISABLE: QCFG written with EN 0; records already accepted go on (R132). -/
def execQueueDisable (disp n : Nat) (v : BitVec 32) (s : State) : Host.Outcome State Fault Refusal :=
  if hasQueue disp n && !v.getLsbD 0 then .next (s.writeQcfg disp n v) else .next s

/-- QCFG_ERRC_CLEAR: QCFG written with 1s in ERRC and EN as it stands (R132). -/
def execQcfgErrcClear (disp n : Nat) (v : BitVec 32) (s : State) : Host.Outcome State Fault Refusal :=
  if hasQueue disp n && v.getLsbD 0 == (s.queue disp n).en then .next (s.writeQcfg disp n v) else .next s

/-- QBASE. -/
def Queue.va (q : Queue) : BitVec 64 := BitVec.setWidth 64 q.base

/-- The address of the slot of record i (R130). -/
def Queue.slotVa (q : Queue) (i : Nat) : BitVec 64 := q.va + BitVec.ofNat 64 (64 + i % 2 ^ q.log.toNat * 64)

/-- The phase that publishes record i (R130). -/
def Queue.phase (q : Queue) (i : Nat) : Nat := (i / 2 ^ q.log.toNat + 1) % 2

/-- A fault on a header or slot: code 0x0C, and acceptance stops (R132). -/
def State.queueFault (s : State) (disp n : Nat) (va : BitVec 64) : State :=
  (s.setQueue disp n { s.queue disp n with errc := 0x0C, stuck := true }).launchEvent disp n 0x0C va.toNat

/-! ## Checks of a record (R129) -/

/-- Whether a record names the null chit. -/
def recNullChit (r : BitVec 512) : Bool := hasTable (chitSock (recChit r)) && decide (chitGen (recChit r) = 0)

/-- Code 0x08: what an empty core cannot hold. -/
def recTooBig (r : BitVec 512) : Bool :=
  decide (28 < recScrs r) || decide (6 < recMxsq r) ||
  (decide (1 ≤ recWpb r) && decide (recWpb r ≤ 64) && decide (1 ≤ recRegs r) && decide (recRegs r ≤ 32) && !fitsEmpty (recShape r))

/-- The lowest code of R129 that a record breaks. -/
def recFault (r : BitVec 512) : Option Nat :=
  firstCode [
    (decide (recNum r 0 8 % 4 ≠ 0) || decide (recNum r 7 1 ≠ 0), 1),
    (decide (recNum r 8 8 % 8 ≠ 0), 2),
    (decide (recNum r 16 8 % 128 ≠ 0) || decide (recNum r 24 8 % 128 ≠ 0) || (decide (recNum r 24 8 = 0) && decide (0 < recJinit r)), 3),
    (decide (recGx r = 0) || decide (recGy r = 0) || decide (recGz r = 0), 4),
    (decide (recWpb r = 0) || decide (64 < recWpb r) || decide (recWpb r ≤ recAccw r) || decide (4 < recAccw r), 5),
    (decide (48 < recBps r), 6),
    (decide (recRegs r = 0) || decide (32 < recRegs r), 7),
    (recTooBig r, 8),
    (decide (32 ≤ recCtl r) || decide (recNum r 60 3 ≠ 0) || decide (1 < recNum r 63 1) || decide (0x7FFFFFFF < recJinit r), 9),
    (decide (79 < recQsel r), 0x0A),
    (recChv r && recNullChit r, 0x0B)]

/-! ## Acceptance (R131, R132, R139, R140) -/

/-- The chit of a record broken with CAUSE FAULT and a detail, where it has one. -/
def State.breakRecord (s : State) (disp : Nat) (r : BitVec 512) (detail : Nat) : State :=
  if recChv r then s.breakChit disp (recChit r) (brokenRec 1 detail (recChit r)) else s

/-- A record rejected (R129). -/
def State.rejectRecord (s : State) (disp n : Nat) (r : BitVec 512) (code : Nat) (slot : BitVec 64) : State :=
  let s := s.setQueue disp n { s.queue disp n with errc := BitVec.ofNat 8 code }
  (s.launchEvent disp n code slot.toNat).breakRecord disp r 0

/-- A grid of an accepted record, ready from now on (R134); a die dispatcher's takes its chit's location (R95). -/
def State.addGrid (s : State) (disp n i : Nat) (r : BitVec 512) : State :=
  let q := s.queue disp n
  let id := s.fresh
  let p : Option (BitVec 64) × State := if recChv r && disp != 20 then
      (match s.placeChit disp (recChit r) with | some x => (some x.1, x.2) | none => (none, s))
    else (none, s)
  let g : Grid := { disp := disp, queue := some n, index := i, record := r, acceptedAt := s.time, asid := q.asid, thrm := q.thrm,
                    nextElem := 0, finished := 0, brk := none, loc := p.1, fatal := none, gone := false }
  let s := { p.2 with fresh := id + 1, grids := put id g p.2.grids }
  s.onDisp disp (fun d => { d with items := d.items ++ [⟨id, 0, false, s.time, recPrio r, recPrio r⟩] })

/-- The store of COUNT at acceptance: none where a wait must come first; otherwise the state, and whether it faulted (R139). -/
def State.openJoin (s : State) (disp n : Nat) (r : BitVec 512) : Except MemStop State :=
  if recJinit r = 0 then .ok s
  else s.dispWrite disp (s.queue disp n).asid (recJaddr r + 64) (bytesOfNat 4 (recJinit r))

/-- A checked record accepted: its join block opened, then the grid (R139). -/
def State.acceptChecked (s : State) (disp n i : Nat) (r : BitVec 512) : Except MemStop State :=
  match s.openJoin disp n r with
  | .ok s => .ok (s.addGrid disp n i r)
  | .error (.wait sec w) => .error (.wait sec w)
  | .error (.fault va) => .ok ((s.launchEvent disp n 0x21 va.toNat).breakRecord disp r 0)

/-- The published record at CONS, if any: its index and its bytes. -/
def State.published (s : State) (disp n : Nat) : Except MemStop (Nat × Option (BitVec 512)) :=
  let q := s.queue disp n
  match s.dispRead disp q.asid (q.va + 8) 8 1 with
  | .error e => .error e
  | .ok cs =>
    let i := natOfBytes cs
    match s.dispRead disp q.asid (q.slotVa i) 64 0 with
    | .error e => .error e
    | .ok bs =>
      let r : BitVec 512 := BitVec.ofNat 512 (natOfBytes bs)
      .ok (i, if recNum r 63 1 % 2 = q.phase i then some r else none)

/-- CONS advanced past record i. -/
def State.advanceCons (s : State) (disp n i : Nat) : Except MemStop State :=
  let q := s.queue disp n
  s.dispWrite disp q.asid (q.va + 8) (bytesOfNat 8 (i + 1))

/-- Whether a record must wait for a chit entry of its die (R95). -/
def State.chitFull (s : State) (disp : Nat) (r : BitVec 512) : Bool := recChv r && disp != 20 && (s.freeChit disp).isNone

/-- A published record taken: accepted or rejected, and CONS advanced. -/
def State.takeRecord (s : State) (disp n i : Nat) (r : BitVec 512) : Except MemStop State :=
  match s.advanceCons disp n i with
  | .error e => .error e
  | .ok t =>
    match recFault r with
    | some code => .ok (t.rejectRecord disp n r code ((s.queue disp n).slotVa i))
    | none => if s.chitFull disp r then .ok s else t.acceptChecked disp n i r

/-- Whether a dispatcher takes new work: the module is READY and, for a die's, the die ONLINE (R29, R113). -/
def State.takesWork (s : State) (disp : Nat) : Bool :=
  s.moduleReady && (disp == 20 || lookupD disp 0 s.mgmt.dieState == 0)

/-- A step of a dispatcher on a queue: its waits ask for their sector, its faults stop the queue. -/
def State.onQueue (s : State) (disp n : Nat) (r : Except MemStop State) : State :=
  match r with
  | .ok t => t
  | .error (.wait sec w) => s.await disp sec w
  | .error (.fault va) => s.queueFault disp n va

/-- RECORD_ACCEPT (R131). -/
def execRecordAccept (disp n : Nat) (s : State) : Host.Outcome State Fault Refusal :=
  let q := s.queue disp n
  if !hasQueue disp n || !s.takesWork disp || !q.en || q.stuck then .next s
  else
    .next (s.onQueue disp n
      (match s.published disp n with
        | .error e => .error e
        | .ok (_, none) => .ok s
        | .ok (i, some r) => s.takeRecord disp n i r))

/-! ## Pushes by hardware (R131, R133, R140) -/

/-- The queue of a dispatcher that a record's QSEL names. -/
def queueOfSel (q : Nat) : Nat := if q < 64 then q else q - 64

/-- Entry k of a hold buffer taken out; the first of the spilled records enters, and so retires its invocation (R133, R415). -/
def State.takeHeld (s : State) (disp k : Nat) : State :=
  let s := s.onDisp disp (fun d => { d with hold := removeNth d.hold k })
  match (s.dispatcher disp).holdSpill with
  | [] => s
  | p :: t => (s.onDisp disp (fun d => { d with hold := d.hold ++ [p], holdSpill := t })).retirePush p

/-- A record written to its slot, RESV advanced (R131). -/
def State.publish (s : State) (disp n i : Nat) (r : BitVec 512) : Except MemStop State :=
  let q := s.queue disp n
  let rec' := recSet r 63 1 (q.phase i)
  match s.dispWrite disp q.asid q.va (bytesOfNat 8 (i + 1)) with
  | .error e => .error e
  | .ok s => s.dispWrite disp q.asid (q.slotVa i) (bytesOfNat 64 rec'.toNat)

/-- A push of a record to its queue; none while the queue is full. -/
def State.pushTo (s : State) (disp n : Nat) (r : BitVec 512) : Except MemStop (Option State) :=
  let q := s.queue disp n
  match s.dispRead disp q.asid q.va 16 1 with
  | .error e => .error e
  | .ok bs =>
    let resv := natOfBytes (bs.take 8)
    let cons := natOfBytes (bs.drop 8)
    if 2 ^ q.log.toNat ≤ (resv + 2 ^ 64 - cons) % 2 ^ 64 then .ok none
    else (s.publish disp n resv r).map some

/-- The result slot copied to the frame of a released invocation (R140). -/
def State.copyResult (s : State) (disp n : Nat) (p : Push) : Except MemStop State :=
  match p.frameCopy with
  | none => .ok s
  | some x => s.dispWrite64 disp (s.queue disp n).asid (recFrame p.record) x.toNat

/-- The first record of a queue in a hold buffer pushed: first its frame's copy, whose fault ends it, then its slot. -/
def State.pushHeld (s : State) (disp k : Nat) (p : Push) : State :=
  let n := queueOfSel p.queue
  match s.copyResult disp n p with
  | .error (.wait sec w) => s.await disp sec w
  | .error (.fault va) => ((s.takeHeld disp k).launchEvent disp n 0x21 va.toNat).breakRecord disp p.record 0
  | .ok t =>
    match t.pushTo disp n p.record with
    | .error (.wait sec w) => s.await disp sec w
    | .error (.fault va) => s.queueFault disp n va
    | .ok none => s
    | .ok (some t) => t.takeHeld disp k

/-- HW_PUSH: entry k of a dispatcher's hold buffer. A record that names no queue here is dropped, one that names a device queue
goes to the global dispatcher, and one behind another of its queue waits (R133). -/
def execHwPush (disp k : Nat) (s : State) : Host.Outcome State Fault Refusal :=
  match nth? (s.dispatcher disp).hold k with
  | none => .next s
  | some p =>
    if 79 < p.queue ∨ (p.queue < 64 ∧ 8 ≤ disp) then
      .next ((s.takeHeld disp k).dropPush disp p.record (if p.cont then p.jaddr.toNat else 0))
    else if 64 ≤ p.queue ∧ disp ≠ 20 then .next ((s.takeHeld disp k).pushRecord 20 { p with op := none })
    else
      let q := s.queue disp (queueOfSel p.queue)
      if ((s.dispatcher disp).hold.take k).any (fun x => decide (x.queue = p.queue)) || !q.en || q.stuck then .next s
      else .next (s.pushHeld disp k p)

/-! ## Order and promotion (R134) -/

/-- The record of a grid. -/
def State.gridRecord (s : State) (g : Nat) : BitVec 512 := match s.grid? g with | some x => x.record | none => 0

/-- The acceptance time of a grid. -/
def State.gridTime (s : State) (g : Nat) : Nat := match s.grid? g with | some x => x.acceptedAt | none => 0

/-- Everything in a dispatcher's order. -/
def Dispatcher.ready (d : Dispatcher) : List Item := d.items ++ d.batch

/-- The first item of a dispatcher's order: highest priority, then oldest grid, then as it came. -/
def State.firstItem (s : State) (disp : Nat) : Option Item :=
  leastBy (fun i => (7 - i.prio, s.gridTime i.grid)) (s.dispatcher disp).ready

/-- An item raised. -/
def Item.raised (i : Item) : Item := { i with prio := i.prio + 1 }

/-- PRIORITY_PROMOTE: item k of a dispatcher rises for each full 100 µs that it has been ready, up to 7 (R134). -/
def execPriorityPromote (disp k : Nat) (s : State) : Host.Outcome State Fault Refusal :=
  let d := s.dispatcher disp
  match nth? d.ready k with
  | none => .next s
  | some i =>
    if 7 ≤ i.prio ∨ s.time < i.since + 100 * microsecond * (i.prio + 1 - i.base) then .next s
    else if k < d.items.length then .next (s.setDispatcher disp { d with items := setNth i.raised d.items k })
    else .next (s.setDispatcher disp { d with batch := setNth i.raised d.batch (k - d.items.length) })

/-- An item whose element has been taken: the rest of a grid stays in its place; an element that was handed back is gone. -/
def State.takeItem (s : State) (disp : Nat) (i : Item) (count : Nat) : State :=
  match s.grid? i.grid with
  | none => s.onDisp disp (fun d => { d with items := d.items.erase i, batch := d.batch.erase i })
  | some g =>
    if g.disp = disp ∧ !i.saved ∧ i.element = g.nextElem then
      let next := g.nextElem + count
      let s := s.setGrid i.grid { g with nextElem := next }
      s.onDisp disp (fun d => { d with
        items := if next < recElements g.record then d.items.map (fun (x : Item) => if x = i then { x with element := next } else x)
          else d.items.erase i })
    else s.onDisp disp (fun d => { d with
      items := if d.items.contains i then d.items.erase i else d.items
      batch := if d.items.contains i then d.batch else d.batch.erase i })

/-! ## The global dispatcher (R135) -/

/-- The bundle entries that a die's batch buffer holds. -/
def State.batchUsed (s : State) (die : Nat) : Nat :=
  (s.dispatcher die).batch.foldl (fun n i => n + recMembers (s.gridRecord i.grid)) 0

/-- The placement weight of a core (R138). -/
def State.coreWeight (s : State) (die core : Nat) : Nat := (lookupD core 0 (s.dispatcher die).weights).toNat

/-- The largest weight of a die's cores. -/
def State.dieWeight (s : State) (die : Nat) : BitVec 8 := (s.dispatcher die).weights.foldl (fun m p => if m.toNat < p.2.toNat then p.2 else m) 0

/-- FREE_REPORT: a die dispatcher reports its empty entries and its weight (R135). -/
def execFreeReport (die : Nat) (s : State) : Host.Outcome State Fault Refusal :=
  if 8 ≤ die then .next s
  else .next (s.onDisp 20 (fun d => { d with free := put die (256 - s.batchUsed die) d.free, weights := put die (s.dieWeight die) d.weights }))

/-- The dies that can take a batch of n bundles, in round-robin order after the die last served. -/
def State.batchDies (s : State) (n : Nat) : List Nat :=
  let d := s.dispatcher 20
  ((List.range 8).map (fun i => (d.lastDie + 1 + i) % 8)).filter (fun k =>
    s.takesWork k && decide (n ≤ lookupD k 0 d.free))

/-- The die chosen among candidates: the first, or under THRM the one of lowest reported weight. -/
def State.batchDie (s : State) (thrm : Bool) (ks : List Nat) : Option Nat :=
  if thrm then leastBy (fun k => ((lookupD k 0 (s.dispatcher 20).weights).toNat, 0)) ks else ks.head?

/-- How many elements of a grid the next batch holds: whole ones, at most 64 bundles (R135). -/
def batchSize (g : Grid) (i : Item) : Nat :=
  if i.saved ∨ i.element ≠ g.nextElem then 1 else Nat.min (64 / recMembers g.record) (recElements g.record - g.nextElem)

/-- A grid's chit placed on the die of its first batch (R95, R140). -/
def State.placeFirst (s : State) (die gid : Nat) (g : Grid) : State :=
  if recChv g.record && g.loc.isNone then
    match s.placeChit die (recChit g.record) with
    | some x => x.2.setGrid gid { g with loc := some x.1 }
    | none => s
  else s

/-- A batch sent; contexts that wait at the global dispatcher go with their element (R148). -/
def State.sendBatch (s : State) (die n : Nat) (g : Grid) (i : Item) : State :=
  let s := s.placeFirst die i.grid g
  let s := s.onDisp die (fun d => { d with batch := d.batch ++ (List.range n).map (fun k => { i with element := i.element + k }) })
  let s := s.onDisp 20 (fun d => { d with
    lastDie := die, free := put die (lookupD die 0 d.free - n * recMembers g.record) d.free })
  let s := if i.saved then
      { s with shadow := s.shadow.map (fun (v : Saved) =>
          if v.die = 20 ∧ v.bundle.grid = i.grid ∧ v.bundle.element = i.element then { v with die := die } else v) }
    else s
  s.takeItem 20 i n

/-- BATCH_SEND: the first item of the global dispatcher's order (R135). -/
def execBatchSend (s : State) : Host.Outcome State Fault Refusal :=
  match s.firstItem 20 with
  | none => .next s
  | some i =>
    match s.grid? i.grid with
    | none => .next s
    | some g =>
      let n := batchSize g i
      let ks := s.batchDies (n * recMembers g.record)
      let ks := if recChv g.record && g.loc.isNone then ks.filter (fun k => (s.freeChit k).isSome) else ks
      match s.batchDie g.thrm ks with
      | none => .next s
      | some k => .next (s.sendBatch k n g i)

/-! ## Placement (R136 to R138, R147) -/

/-- The saved bundles of an item, by member. -/
def State.savedOf (s : State) (die : Nat) (i : Item) : List Saved :=
  if i.saved then s.shadow.filter (fun v => decide (v.die = die) && decide (v.bundle.grid = i.grid) && decide (v.bundle.element = i.element))
  else []

/-- The members of an item, in ascending index: those that were saved, or every one (R147). -/
def State.itemMembers (s : State) (die : Nat) (i : Item) : List Nat :=
  if i.saved then (List.range 48).filter (fun m => (s.savedOf die i).any (fun v => decide (v.bundle.member = m)))
  else List.range (recMembers (s.gridRecord i.grid))

/-- The shape that member m of an item asks for. -/
def State.itemShape (s : State) (die : Nat) (i : Item) (m : Nat) : Shape :=
  match (s.savedOf die i).find? (fun v => decide (v.bundle.member = m)) with
  | some v => { wpb := v.bundle.wpb, regs := v.bundle.regs, scrs := v.bundle.scrSegs, mxs := v.bundle.mxs }
  | none => recShape (s.gridRecord i.grid)

/-- Whether a core, its cluster and its trays have free physical slots for what a context has bound (R230). -/
def State.savedFits (s : State) (c : CoreId) (v : Saved) : Bool :=
  let k := s.core c
  let cl := s.cluster c.die c.cluster
  decide (k.bars.length + v.bars.length ≤ 16) && decide (k.trays.length + v.trays.length ≤ 16) &&
  decide (cl.bars.length + v.spreadBars.length ≤ 64) && decide (cl.monitors.length + v.monitors.length ≤ 4)

/-- Whether a core's reservation bars work of a priority (R147); victims under way there do not (log 42). -/
def State.barred (s : State) (die core prio : Nat) : Bool :=
  (s.dispatcher die).reserved.any (fun r => decide (r.1 = core) && decide (prio < r.2.1))

/-- Whether a core can take member m of an item now: no reservation bars it, and the pool check accepts (R136, R137). -/
def State.canHold (s : State) (die core : Nat) (i : Item) (m : Nat) : Bool :=
  !s.barred die core i.prio &&
  ((s.savedOf die i).filter (fun v => decide (v.bundle.member = m))).all (s.savedFits ⟨die, core⟩) &&
  (s.planOn ⟨die, core⟩ (s.itemShape die i m)).isSome

/-- The bundle of member m of an item. -/
def State.itemBundle (s : State) (die : Nat) (i : Item) (m : Nat) : Bundle :=
  let r := s.gridRecord i.grid
  let b := match (s.savedOf die i).find? (fun v => decide (v.bundle.member = m)) with
    | some v => v.bundle
    | none =>
      { Bundle.reset with
        bn := i.element * recMembers r + m, grid := i.grid, member := m, element := i.element, wpb := recWpb r, regs := recRegs r
        accw := recAccw r, frame := recFrame r, asid := match s.grid? i.grid with | some g => g.asid | none => 0 }
  { b with prio := i.prio, since := i.since, base := i.base }

/-- Slots entered at the lowest free physical numbers. -/
def enterAll' {α : Type} (limit : Nat) : List α → List (Nat × α) → List (Nat × α)
  | [], m => m
  | x :: t, m =>
    match (List.range limit).find? (fun i => (lookup? i m).isNone) with
    | some i => enterAll' limit t (put i x m)
    | none => enterAll' limit t m

/-- The bundle slots and trays of a context bound again as it is placed on a core (R230). -/
def State.bindCore (s : State) (v : Saved) (c : CoreId) (b : Nat) : State :=
  s.onCore c (fun k => { k with
    bars := enterAll' 16 (v.bars.map (fun (x : BarSlot) => { x with holder := b })) k.bars
    trays := enterAll' 16 (v.trays.map (fun (t : Tray) => { t with bslot := b })) k.trays })

/-- The cluster slots of saved contexts, and the monitors bound to them, bound again as their spread is placed in a cluster (R230,
R242). -/
def State.bindSpread (s : State) (vs : List Saved) (c : CoreId) : State :=
  let k := s.cluster c.die c.cluster
  let bars := enterAll' 64 (vs.flatMap (fun v => v.spreadBars)) k.bars
  let slotOf (m : Monitor) : Nat :=
    match bars.find? (fun p => decide (p.2.holder = m.spread) && decide (p.2.name = m.num 28 2)) with | some p => p.1 | none => m.slot
  let ms := (vs.flatMap (fun v => v.monitors)).map (fun (m : Monitor) => { m with slot := slotOf m })
  s.setCluster c.die c.cluster { k with bars := bars, monitors := enterAll' 4 ms k.monitors }

/-- Member m of an item seated on a core, whose instruction cache is emptied for a grid's first bundle (R302); a saved one is being
restored there, and a reservation that the core was kept for lapses (R147). -/
def State.seatMember (s : State) (die core : Nat) (i : Item) (m : Nat) : State :=
  let c : CoreId := ⟨die, core⟩
  match s.planOn c (s.itemShape die i m) with
  | none => s
  | some (b, _, bases) =>
    let v := s.itemBundle die i m
    let s := if (s.core c).bundles.any (fun p => decide (p.2.grid = v.grid)) then s else s.onCore c (fun k => { k with icache := [] })
    let saved := (s.savedOf die i).find? (fun x => decide (x.bundle.member = m))
    let s := s.seatBundle c b v (s.warpPlaces c v.wpb) bases
    let s := match saved with | some x => s.bindCore x c b | none => s
    let s := if i.saved then
        { s with shadow := s.shadow.map (fun (x : Saved) =>
            if x.die = die ∧ x.bundle.grid = i.grid ∧ x.bundle.element = i.element ∧ x.bundle.member = m then { x with restoring := some (core, b) } else x) }
      else s
    s.onDisp die (fun d => { d with reserved := d.reserved.filter (fun r => decide (r.1 ≠ core)) })

/-- An item seated on cores in member order, its wrings begun as far as the cores are free; a saved spread's slots of the cluster are
bound again (R230). -/
def State.seatItem (s : State) (die : Nat) (cores : List Nat) (i : Item) : State :=
  let vs := s.savedOf die i
  let s := (cores.zip (s.itemMembers die i)).foldl (fun s c => s.seatMember die c.1 i c.2) s
  let s := match cores.head? with | some c => s.bindSpread vs ⟨die, c⟩ | none => s
  let s := s.takeItem die i 1
  cores.foldl (fun s c => s.nextPlacement ⟨die, c⟩) s

/-- The candidate chosen: the first, or of the first nine the one of lowest weight (R137, R138). -/
def chooseCandidate (thrm : Bool) (weight : Nat → Nat) (cs : List Nat) : Option Nat :=
  if thrm then leastBy (fun c => (weight c, 0)) (cs.take 9) else cs.head?

/-- Cores for the members of a spread in a cluster: for each member in turn the lowest core that can hold it and is not yet taken. -/
def State.spreadCores (s : State) (die k : Nat) (i : Item) : Option (List Nat) :=
  (s.itemMembers die i).foldl (fun (r : Option (List Nat)) m =>
    r.bind (fun cs =>
      (((List.range 48).map (fun c => 48 * k + c)).find? (fun c => !cs.contains c && s.canHold die c i m)).map (fun c => cs ++ [c]))) (some [])

/-- The weight of a cluster (R138). -/
def State.clusterWeight (s : State) (die k : Nat) : Nat :=
  (List.range 48).foldl (fun m c => Nat.max m (s.coreWeight die (48 * k + c))) 0

/-- A bundle placed from the core cursor. -/
def State.placeBundle (s : State) (die : Nat) (thrm : Bool) (i : Item) : State :=
  let cur := (s.dispatcher die).coreCursor
  let cs := ((List.range 192).map (fun n => (cur + n) % 192)).filter (fun c => s.canHold die c i 0)
  match chooseCandidate thrm (s.coreWeight die) cs with
  | none => s
  | some c => (s.seatItem die [c] i).onDisp die (fun d => { d with coreCursor := (c + 1) % 192 })

/-- A spread placed from the cluster cursor. -/
def State.placeSpread (s : State) (die : Nat) (thrm : Bool) (i : Item) : State :=
  let cur := (s.dispatcher die).clusterCursor
  let ks := ((List.range 4).map (fun n => (cur + n) % 4)).filter (fun k => (s.spreadCores die k i).isSome)
  match chooseCandidate thrm (s.clusterWeight die) ks with
  | none => s
  | some k =>
    match s.spreadCores die k i with
    | none => s
    | some cs => (s.seatItem die cs i).onDisp die (fun d => { d with clusterCursor := (k + 1) % 4 })

/-- PLACE_ITEM: the first item of a die dispatcher's order, and only that one; none while WREQ is set (R137, R183). -/
def execPlaceItem (die : Nat) (s : State) : Host.Outcome State Fault Refusal :=
  if 8 ≤ die ∨ !s.takesWork die ∨ (s.die die).wreq then .next s
  else
    match s.firstItem die with
    | none => .next s
    | some i =>
      match s.grid? i.grid with
      | none => .next s
      | some g =>
        if recBps g.record = 0 then .next (s.placeBundle die g.thrm i)
        else .next (s.placeSpread die g.thrm i)

/-! ## Completion (R139, R464) -/

/-- The die at which a chit's location entry stands. -/
def Grid.locDie (g : Grid) : Nat := match g.loc with | some l => chitSock l | none => g.disp

/-- The queue of a grid as an event names it. -/
def Grid.queueNo (g : Grid) : Nat := match g.queue with | some q => q | none => 0xFF

/-- A fault of a grid's dispatcher reported with code 0x21 (R139). -/
def State.joinFault (s : State) (g : Grid) (va : BitVec 64) : State := s.launchEvent g.disp g.queueNo 0x21 va.toNat

/-- A grid's chit ends: its result, or a broken record. A grid that has no location yet, halted before its first batch, tells the home from
its dispatcher (R97). -/
def State.endChit (s : State) (g : Grid) (r : BitVec 512) (broken : Bool) : State :=
  match g.loc with
  | none => if recChv g.record then s.sendResult g.disp (recChit g.record) r broken else s
  | some l =>
    let s := if l = recChit g.record then s else s.sendResult (chitSock l) (recChit g.record) r broken
    s.endLocation l r broken

/-- Step 1 of a completion: the chit's result is read from FRAME + 64, or the grid's break is told (R139, R464). -/
def State.completeChit (s : State) (g : Grid) : Except MemStop State :=
  if !recChv g.record then .ok s
  else
    match g.brk with
    | some code => .ok (s.endChit g (brokenRec 2 code.toNat (recChit g.record)) true)
    | none =>
      match s.dispRead64 g.disp g.asid (recFrame g.record + 64) with
      | .error (.wait sec w) => .error (.wait sec w)
      | .error (.fault va) => .ok ((s.joinFault g va).endChit g (brokenRec 1 0 (recChit g.record)) true)
      | .ok bs => .ok (s.endChit g (BitVec.ofNat 512 (natOfBytes bs)) false)

/-- Step 3: the continuation read and pushed. -/
def State.continueJoin (s : State) (g : Grid) : Except MemStop State :=
  let a := recDonea g.record
  match s.dispRead g.disp g.asid a 64 1 with
  | .error (.wait sec w) => .error (.wait sec w)
  | .error (.fault va) => .ok (s.joinFault g va)
  | .ok bs =>
    let r : BitVec 512 := BitVec.ofNat 512 (natOfBytes bs)
    .ok (s.pushRecord g.disp ⟨r, recQsel r, true, a, none, none⟩)

/-- Steps 2 and 3 of a completion: COUNT at DONEA decremented, and where that leaves zero the continuation pushed (R139). -/
def State.completeJoin (s : State) (g : Grid) : Except MemStop State :=
  let a := recDonea g.record
  if a = 0 then .ok s
  else
    match s.dispRead g.disp g.asid (a + 64) 4 1 with
    | .error (.wait sec w) => .error (.wait sec w)
    | .error (.fault va) => .ok (s.joinFault g va)
    | .ok bs =>
      let n := natOfBytes bs
      if n = 0 then .ok (s.launchEvent g.disp g.queueNo 0x20 a.toNat)
      else
        match s.dispWrite g.disp g.asid (a + 64) (bytesOfNat 4 (n - 1)) with
        | .error (.wait sec w) => .error (.wait sec w)
        | .error (.fault va) => .ok (s.joinFault g va)
        | .ok s => if n = 1 then s.continueJoin g else .ok s

/-- A grid whose last bundle has completed: its dispatcher's steps in order (R139). -/
def State.completeGrid (s : State) (gid : Nat) : Except MemStop State :=
  match s.grid? gid with
  | none => .ok s
  | some g =>
    match s.completeChit g with
    | .error e => .error e
    | .ok s =>
      match s.completeJoin g with
      | .error e => .error e
      | .ok s => .ok (s.onGrid gid (fun g => { g with gone := true }))

/-- A bundle of a grid has completed: it leaves its core, and the grid's last one completes the grid (R139). -/
def State.completeBundle (s : State) (c : CoreId) (b : Nat) : Except MemStop State :=
  let v := s.bundleAt c b
  let s := (s.leaveCore c b).dropMonitors c v.spread
  match s.grid? v.grid with
  | none => .ok s
  | some g =>
    let s := s.setGrid v.grid { g with finished := g.finished + 1 }
    if g.finished + 1 = recElements g.record * recMembers g.record ∧ g.fatal.isNone then s.completeGrid v.grid else .ok s

end Sys2Proof.Machine
end

