-- ==== Sys2Proof/Machine/System.lean ====
section
/-! DEFINITION. Special registers (MFS, MTS: R431, R432, R250), SYS (R426 to R430, R184), microprogram loads (R429), the words of
runs and images as a core reads them (R302), and the safe points that a trailer marks (R257, R258). -/

namespace Sys2Proof.Machine

/-! ## Special registers (R431) -/

/-- POOLBND of a warp (R175). -/
def State.poolBnd (s : State) (w : WarpId) : Nat :=
  let b := s.bundle w
  let live := (s.warp w).tiles.foldl (fun n t => n + t.2.segs.length) 0
  packBits ([(5, b.scrSegs), (3, 0)] ++ b.mxs.map (fun m => (3, m)) ++ [(3, live)])

/-- ENGC of a warp (R431). -/
def Warp.engc (w : Warp) : Nat := packBits [(8, w.cpy), (8, w.gth), (8, w.mtx), (8, w.rmt), (8, w.inv)]

/-- The value of a special register as a lane reads it (R431). -/
def LaneCtx.special (c : LaneCtx) (s : State) (n : Nat) : Except Trap Nat :=
  if n = 0 then c.wb
  else .ok (
    if n = 1 then c.warp.lgw.toNat else if n = 2 then c.warp.gang.toNat else if n = 3 then c.warp.fps.toNat
    else if n = 4 then c.warp.fpc.toNat else if n = 5 then c.warp.chk.toNat else if n = 6 then c.th.repc.toNat
    else if n = 7 then c.th.recn.toNat else if n = 8 then c.th.lr.toNat else if n = 9 then c.warp.tbase.toNat
    else if n = 0xA then s.time % 2 ^ 64 else if n = 0xB then (poolOcc (s.core c.tid.warp.coreId).segs).toNat
    else if n = 0xC then s.poolBnd c.tid.warp else if n = 0xD then c.th.xpc.toNat else if n = 0xE then c.th.xcsWord.toNat
    else if n = 0xF then c.th.tdb.addr.toNat else if n = 0x10 then c.th.tdb.recn.toNat else if n = 0x11 then c.warp.wdog.toNat
    else if n = 0x12 then c.th.lsp.toNat else if n = 0x13 then c.th.rsp.toNat else c.warp.engc)

/-- MFS in a lane: L = 4 (R304, R431). -/
def laneMfs (s : State) (n : Nat) (d : BitVec 7) (c : LaneCtx) : Except Trap AluOut :=
  match c.special s n with
  | .error t => .error t
  | .ok x => c.result (fld d) ⟨BitVec.ofNat 64 x, if srWide n then tagN64 else tagN32⟩ 0 4

/-- MFS (R431). -/
def execMfs (g : BitVec 4) (n : BitVec 1) (d n2 : BitVec 7) (s : State) : Host.Outcome State Fault Refusal :=
  runAlu (.mfs g n d n2) (laneMfs s (srNumber n n2) d) s

/-- The operand of MTS: an even pair for a 64-bit register, one register for a 32-bit one (R432). -/
def LaneCtx.mtsValue (c : LaneCtx) (n : Nat) (a : BitVec 7) : Except Trap (BitVec 64) :=
  if srWide n then c.pairOf (fld a) 0 4 else (c.word (fld a) 0).map (BitVec.setWidth 64)

/-- The class 00 subcode with which MTS refuses a value, if it does (R247, R250, R338, R401, R432). -/
def LaneCtx.mtsRefuses (c : LaneCtx) (n : Nat) (v : BitVec 64) : Option Nat :=
  let x := v.toNat
  if n = 1 then (if 4 < x then some 3 else none)
  else if n = 2 then (if 64 ≤ x ∨ (x % 16 ≠ 0 ∧ !x.testBit (c.warp.wp % 4)) then some 3 else none)
  else if n = 3 then (if 64 ≤ x then some 3 else none)
  else if n = 4 then (if 128 ≤ x then some 3 else none)
  else if n = 5 then (if 2 ≤ x then some 3 else none)
  else if n = 9 then (if c.warp.tbase ≠ 0 ∧ !c.th.hm then some 0x13 else if x % 2 ^ 13 ≠ 0 then some 0x14 else none)
  else if n = 0xD then (if c.th.hm then none else some 0x13)
  else if n = 0x11 then (if c.warp.wdog ≠ 0 ∧ !c.th.hm then some 0x13 else none)
  else none

/-- A warp register written. -/
def Warp.setSpecial (w : Warp) (n : Nat) (v : BitVec 64) : Warp :=
  let x : BitVec 32 := v.extractLsb' 0 32
  if n = 1 then { w with lgw := x } else if n = 2 then { w with gang := x } else if n = 3 then { w with fps := x }
  else if n = 4 then { w with fpc := x } else if n = 5 then { w with chk := x } else if n = 9 then { w with tbase := v }
  else if n = 0x11 then { w with wdog := x } else w

/-- The value of an MTS in a lane, with the refusals. -/
def LaneCtx.mtsChecked (c : LaneCtx) (n : Nat) (a : BitVec 7) : Except Trap (BitVec 64) :=
  match c.mtsValue n a with
  | .error t => .error t
  | .ok v =>
    match c.mtsRefuses n v with
    | some sb => .error (c.code00 sb)
    | none => .ok v

/-- A warp register written; a write of FPS comes after the flags of every matrix operation that issued before it (R285). -/
def State.writeSpecial (s : State) (w : WarpId) (n : Nat) (v : BitVec 64) : State :=
  let s := s.onWarp w (fun x => x.setSpecial n v)
  if n = 3 then { s with matrix := s.matrix.map (fun (j : MatrixJob) => if j.warp = w then { j with passed := true } else j) } else s

/-- MTS: a thread register takes each lane's value, a warp register that of l0 (R432). -/
def execMts (g : BitVec 4) (n : BitVec 1) (a n2 : BitVec 7) (s : State) : Host.Outcome State Fault Refusal :=
  let i := Instr.mts g n a n2
  let r := srNumber n n2
  if r = 8 then .next (runLanes i (fun c => (c.mtsChecked r a).map (fun v s => s.onThread c.tid (fun th => { th with lr := v }))) s)
  else if r = 0xD then
    .next (runLanes i (fun c => (c.mtsChecked r a).map (fun v s => s.onThread c.tid (fun th => { th with xpc := v }))) s)
  else
    .next (runOnce i (fun c => (c.mtsValue r a).map (fun _ => ()))
      (fun l0 _ =>
        match l0.mtsChecked r a with
        | .error t => .error t
        | .ok v => .ok (fun s => s.writeSpecial l0.tid.warp r v)) s)

/-! ## TIME, REFQ, LOCQ, PLACE (R184, R426 to R428) -/

/-- SYS TIME: L = 4 (R426). -/
def execTime (g : BitVec 4) (h : BitVec 1) (d : BitVec 7) (s : State) : Host.Outcome State Fault Refusal :=
  runAlu (.time g h d) (fun c => c.result (fld d) ⟨BitVec.ofNat 64 s.time, tagN64⟩ 0 4) s

/-- REFQ of an address at a time: 0 while its bank refreshes, else the cycles to its next window (R184). -/
def refqValue (now : Nat) (va : BitVec 64) : BitVec 32 :=
  let off := bitsAt va.toNat 0 52
  if bitsAt va.toNat 52 12 ≠ 0x12 ∨ 0x20000000 ≤ off then 0xFFFFFFFF
  else
    let start := 4400 * weightBank off
    let phase := now % 70400
    if start ≤ phase ∧ phase < start + 1760 then 0 else BitVec.ofNat 32 ((start + 70400 - phase) % 70400)

/-- A result of variable latency of one lane. -/
def LaneCtx.give (c : LaneCtx) (d : BitVec 7) (vals : List (BitVec 32 × BitVec 4)) (s : State) : State := writeResult (fld d) vals [c] s

/-- REFQ (R184). -/
def execRefq (g : BitVec 4) (h : BitVec 1) (d a : BitVec 7) (s : State) : Host.Outcome State Fault Refusal :=
  .next (runLanes (.refq g h d a) (fun c =>
    match c.pairOf (fld a) 0 4, c.dest (fld d) false with
    | .error t, _ => .error t
    | _, .error t => .error t
    | .ok va, .ok _ => .ok (fun s' => c.give d [(refqValue s.time va, tagN32)] s')) s)

/-- LOCQ's word from its fields (R427). -/
def locqWord (sock mod kind : Nat) (held : Bool) : BitVec 32 := BitVec.ofNat 32 (packBits [(5, sock), (8, mod), (3, kind), (1, bit held)])

/-- LOCQ of a translated address (R427). -/
def State.locqMem (s : State) (die pa leaf : Nat) : BitVec 32 :=
  let a := pa % 2 ^ 44
  let mod := pa / 2 ^ 44
  let l := s.line die (sectorOf a)
  if mod ≠ s.nmod then locqWord 0x1F mod 1 false
  else if farBase ≤ a then locqWord (if (s.farWindow a).isSome then s.farIod a else 0x1F) mod 2 false
  else locqWord (homeOf a) mod (if pteRepl leaf then 7 else 0) (decide (1 ≤ l.tok) || l.rep)

/-- LOCQ of an address; none while a page table's sector must come to rest. The module of an address that has no translation is not
stated, and stands free (log 74); one that no TLB holds is translated at once (log 146). -/
def State.locq (s : State) (c : LaneCtx) (va : BitVec 64) : Except Nat (BitVec 32) :=
  let die := c.tid.warp.die
  let none' := locqWord 0x1F ((Config.freeBits c.seed).toNat % 256) 6 false
  if va.extractLsb' 57 7 ≠ 0 then .ok none'
  else if va.getLsbD 56 then
    let win := bitsAt va.toNat 52 4
    .ok (if 3 ≤ win then none' else locqWord die s.nmod (3 + win) false)
  else
    let t : Translated := match (s.tlbFind c.tid.warp.coreId c.bundle.asid va.toNat).filter (fun _ => (s.asRoot die c.bundle.asid).en) with
      | some e => e.translate va.toNat 0
      | none => s.translate die c.bundle.asid va.toNat 0
    match t with
    | .ok pa leaf => .ok (s.locqMem die pa leaf)
    | .wait sec => .error sec
    | .fault _ _ => .ok none'
    | .event _ _ => .ok none'

/-- LOCQ (R427). -/
def execLocq (g : BitVec 4) (h : BitVec 1) (d a : BitVec 7) (s : State) : Host.Outcome State Fault Refusal :=
  let i := Instr.locq g h d a
  let act := if (encodingFault i).isSome then [] else activeLanes i s
  let waits := act.filterMap (fun c =>
    match c.pairOf (fld a) 0 4 with
    | .error _ => none
    | .ok va => match s.locq c va with | .error sec => some (c.tid.warp.die, sec) | .ok _ => none)
  if waits.isEmpty then
    .next (runLanes i (fun c =>
      match c.pairOf (fld a) 0 4, c.dest (fld d) false with
      | .error t, _ => .error t
      | _, .error t => .error t
      | .ok va, .ok _ => .ok (fun s' => match s.locq c va with | .ok w => c.give d [(w, tagN32)] s' | .error _ => s')) s)
  else .next (holdIssue (waits.foldl (fun s w => s.wantSector w.1 w.2 false) s))

/-- PLACE's value for a selector (R428). -/
def LaneCtx.placeValue (c : LaneCtx) (s : State) (sel : Nat) : Option Nat :=
  let b := c.bundle
  let r := s.recordOf b
  let w := c.tid.warp
  if sel = 0 then some b.bn
  else if sel = 1 then
    some (packBits [(32, b.element % recGx r), (16, b.element / recGx r % recGy r), (16, b.element / (recGx r * recGy r))])
  else if sel = 2 then some (packBits [(8, w.core), (3, w.die), (2, w.coreId.cluster), (6, b.member)])
  else if sel = 3 then some (packBits [(8, b.asid.toNat), (8, s.nmod)])
  else none

/-- PLACE in a lane. -/
def lanePlace (s : State) (d a : BitVec 7) (c : LaneCtx) : LaneOut :=
  match c.word (fld a) 0, c.dest (fld d) true with
  | .error t, _ => .error t
  | _, .error t => .error t
  | .ok sel, .ok _ =>
    match c.placeValue s sel.toNat with
    | none => .error (Trap.sync 4 0x60 (BitVec.setWidth 64 sel))
    | some x => .ok (fun s' => c.give d [(BitVec.ofNat 32 x, tagN64), (BitVec.ofNat 32 (x / 2 ^ 32), tagN64)] s')

/-- PLACE (R428). -/
def execPlace (g : BitVec 4) (h : BitVec 1) (d a : BitVec 7) (s : State) : Host.Outcome State Fault Refusal :=
  .next (runLanes (.place g h d a) (lanePlace s d a) s)

/-! ## Words that a core reads for a run or an image (R302, R429) -/

/-- Why a word cannot be read now. -/
inductive WordStop where
  | trap (t : Trap)
  | denied (sub : Nat) (parks : Bool)
  | walk
  | hold
  | ask (pa leaf : Nat)
  deriving DecidableEq, Repr

/-- A word at an address for a warp: `kind` 2 for a fetch, 0 for a read, which sees the first-level cache as a load does. -/
def State.wordAt (s : State) (w : WarpId) (kind : Nat) (va : BitVec 64) : Except WordStop Nat :=
  match s.locate w va 4 kind (if kind = 2 then 0 else alLdSt) with
  | .trap t => .error (.trap t)
  | .denied sub p => .error (.denied sub p)
  | .walk => .error .walk
  | .hold => .error .hold
  | .here (.scr c b off) => .ok (s.scrRead c b off 4)
  | .here (.weights off) => if s.refreshing (weightBank off) then .error .hold else .ok (s.weightRead w.die off 4)
  | .here (.mem pa leaf) =>
    match lookup? (pa / 64 * 64) (s.warp w).got with
    | none => .error (.ask (pa / 64 * 64) leaf)
    | some bs =>
      if bs.length ≠ 64 then .error (.trap (eventTrap (natOfBytes bs) pa false))
      else
        let x := natOfBytes ((bs.drop (pa % 64)).take 4)
        if kind = 2 ∨ pa / 2 ^ 44 ≠ s.nmod then .ok x
        else
          let l := s.l1Peek w.coreId (pa % 2 ^ 44) 4 true
          .ok (mergeBytes 4 l.1 l.2 x)

/-- n words from an address, one after another; a stop comes with the address of its word. -/
def State.wordsAt (s : State) (w : WarpId) (kind : Nat) (va : BitVec 64) : Nat → Except (WordStop × BitVec 64) (List Word)
  | 0 => .ok []
  | n + 1 =>
    match s.wordAt w kind va with
    | .error e => .error (e, va)
    | .ok x =>
      match s.wordsAt w kind (va + 4) n with
      | .error e => .error e
      | .ok t => .ok (BitVec.ofNat 32 x :: t)

/-- Whether a sector has been asked for a warp and has not come. -/
def State.asking (s : State) (w : WarpId) (pa : Nat) : Bool :=
  let mine (a : Access) : Bool := decide (a.who = .words w) && decide (a.pa = pa ∨ a.pa + 2 ^ 44 * s.nmod = pa)
  let r := s.rau w.die
  s.coh.accesses.any mine || s.coh.cxlReqs.any mine || r.held.any (fun h => h.accs.any mine) || r.txns.any (fun t => t.accs.any mine)

/-- A sector asked for a warp: through the die cache, or of another module. -/
def State.askWords (s : State) (w : WarpId) (pa leaf : Nat) : State :=
  if s.asking w pa then s
  else
    let a : Access := { laneAccess ⟨w, 0⟩ s.fresh .read 0 pa 64 (pteRcl leaf) with who := .words w, rep := pteRepl leaf }
    if pa / 2 ^ 44 = s.nmod then s.queueAccesses [{ a with pa := pa % 2 ^ 44 }]
    else s.holdPacket w.die ⟨remotePacket 1 pa 64 0 0 0 [], [a], none, 0, (s.bundle w).grid, none, false⟩

/-- What a stop that is no trap sets going for the threads that wait. -/
def State.pressWords (s : State) (w : WarpId) (kind : Nat) (va : BitVec 64) (xs : List ThreadId) : WordStop → State
  | .walk => xs.foldl (fun s x => s.addWalk (s.bundle w).asid ⟨w.coreId, .thread x, va, kind⟩) s
  | .ask pa leaf => s.askWords w pa leaf
  | _ => s

/-! ## MLOAD (R429) -/

/-- Whether an operation of an image names a variable-latency destination of an earlier one; `n` bounds the words (R305, R344). -/
def namesAgain : Nat → List Nat → List Word → Bool
  | 0, _, _ => false
  | n + 1, seen, ws =>
    match ws with
    | [] => false
    | _ :: _ =>
      match decodeWords ws with
      | .error e => namesAgain n seen (ws.drop (Nat.max (rejected e ws).1 1))
      | .ok (i, k) => (namedFields i).any (fun f => seen.contains f) || namesAgain n (seen ++ varDestFields i) (ws.drop k)

/-- Whether an image keeps R344: every opcode one that a slot may hold, no prefix last, and no variable-latency destination
named again. -/
def imageOk (ws : List Word) : Bool :=
  ws.all (fun w => (decide (1 ≤ opOf w) && decide (opOf w ≤ 0x19)) || decide (opOf w = 0x1B) || decide (opOf w = 0x1F) || decide (opOf w = 0x3E)) &&
  (match ws.getLast? with | some w => decide (opOf w ≠ 0x3E) | none => false) && !namesAgain ws.length [] ws

/-- What MLOAD of an image at an address gives: a code, and the slot to be loaded with what. -/
def State.mloadOut (s : State) (w : WarpId) (va : BitVec 64) : Except (WordStop × BitVec 64) (Nat × Option (Nat × List Word)) :=
  match s.wordAt w 0 va with
  | .error e => .error (e, va)
  | .ok h =>
    let slot := bitsAt h 0 5
    let n := bitsAt h 5 6
    if h / 2 ^ 11 ≠ 0 ∨ n = 0 ∨ 32 < n then .ok (2, none)
    else
      let gid := (s.bundle w).grid
      let held := lookup? slot (s.core w.coreId).micro
      let mine := match held with | some m => decide (m.grid = gid) | none => true
      let same := match held with | some m => decide (m.grid = gid) && m.addr == va | none => false
      if !mine then .ok (1, none)
      else if same then .ok (0, none)
      else
        match s.wordsAt w 0 (va + 4) n with
        | .error e => .error e
        | .ok ws => if imageOk ws then .ok (0, some (slot, ws)) else .ok (2, none)

/-- A slot of a core's control store loaded. -/
def State.loadMicro (s : State) (w : WarpId) (va : BitVec 64) (x : Option (Nat × List Word)) : State :=
  match x with
  | none => s
  | some (slot, ws) => s.onCore w.coreId (fun k => { k with micro := put slot ⟨(s.bundle w).grid, va, ws⟩ k.micro })

/-- The operand and destination of MLOAD in a lane. -/
def mloadCheck (d a : BitVec 7) (c : LaneCtx) : Except Trap Unit := bothOk (c.pairOf (fld a) 0 4) (destOk (fld d) false c)

/-- MLOAD once for the warp, its image as far as it has been read. -/
def runMload (i : Instr) (d a : BitVec 7) (act : List LaneCtx) (l0 : LaneCtx) (va : BitVec 64) (s : State) : State :=
  let w := l0.tid.warp
  match s.mloadOut w va with
  | .ok r =>
    runOnce i (mloadCheck d a) (fun l act => .ok (fun s =>
      writeResult (fld d) [(BitVec.ofNat 32 r.1, tagN32)] act ((s.loadMicro w va r.2).onWarp l.tid.warp (fun v => { v with got := [] })))) s
  | .error (.trap t, _) =>
    runOnce i (mloadCheck d a) (fun _ _ => .error t) (s.onWarp w (fun v => { v with got := [] }))
  | .error (.denied sub p, at') => act.foldl (fun s c => s.translationFault c.tid c.bundle.asid at' sub 0 p) s
  | .error (e, at') => holdIssue (s.pressWords w 0 at' (act.map (fun c => c.tid)) e)

/-- MLOAD (R429). -/
def execMload (g : BitVec 4) (h : BitVec 1) (d a : BitVec 7) (s : State) : Host.Outcome State Fault Refusal :=
  let i := Instr.mload g h d a
  let act := if (encodingFault i).isSome then [] else activeLanes i s
  match act, firstFault (mloadCheck d a) act with
  | l0 :: _, none =>
    match l0.pairOf (fld a) 0 4 with
    | .error _ => .next s
    | .ok va => .next (runMload i d a act l0 va s)
  | _, _ => .next (runOnce i (mloadCheck d a) (fun _ _ => .ok id) s)

/-! ## Safe points (R257, R258) -/

/-- The ordinal of a trailer at an address (R258). -/
def ordinalOf (code a spo : Nat) : BitVec 32 :=
  let base := code / 16384 * 16384
  let ord := (a - base) / 16384 * 128 + spo
  if a < base ∨ 2 ^ 32 - 1 ≤ ord then 0xFFFFFFFF else BitVec.ofNat 32 ord

/-- The address of a group's trailer word A. -/
def Group.trailerAddr (g : Group) : Nat := (g.addr + BitVec.ofNat 64 (4 * g.len)).toNat

/-- STOP of a group's trailer (R300). -/
def Group.stops (g : Group) : Bool := g.trailerA.getLsbD 20

/-- The ordinal of a group's trailer for a bundle's grid. -/
def State.groupOrdinal (s : State) (b : Bundle) (g : Group) : BitVec 32 :=
  ordinalOf (recCode (s.recordOf b)).toNat g.trailerAddr (g.trailerA.extractLsb' 12 7).toNat

/-- A thread past a trailer: at a safe point LSP is its ordinal and RSP begins anew, elsewhere RSP counts the run (R258). -/
def Thread.passTrailer (th : Thread) (safe : Bool) (ord : BitVec 32) (now : Nat) : Thread :=
  let mark := match th.stopMark with
    | .returning => .standing
    | .standing => .clear
    | m => m
  if safe then { th with lsp := ord, rsp := 0, safeAt := if th.hm then 0 else now, atSafe := true, stopped := false, stopMark := mark }
  else { th with rsp := if th.rsp = 0xFFFF then 0xFFFF else th.rsp + 1, atSafe := false, stopMark := mark }

/-! ## EXIT and BREAK (R426, R430, R139) -/

/-- Whether an exit of a warp waits: a counter is not zero or its POOL is under way. -/
def Warp.exitWaits (w : Warp) : Bool :=
  decide (w.cpy ≠ 0) || decide (w.gth ≠ 0) || decide (w.mtx ≠ 0) || decide (w.rmt ≠ 0) || decide (w.inv ≠ 0) || w.poolPending

/-- A thread exits: its run's trailer is a safe point (R257), and handler mode ends (R251). -/
def State.exitThread (s : State) (c : LaneCtx) : State :=
  let ord := s.groupOrdinal c.bundle c.group
  (s.leaveGroup c.tid).onThread c.tid (fun th => { th.passTrailer true ord s.time with st := .exited, wait := none, hm := false })

/-- Whether every thread of a warp has exited. -/
def State.warpExited (s : State) (w : WarpId) : Bool := w.threads.all (fun x => decide ((s.thread x).st = .exited))

/-- What the exit of a warp does: its stamp record is discarded, its gang and its bundle's slots go on without it (R227, R269, R403). -/
def State.endWarp (s : State) (w : WarpId) : State :=
  ((s.onWarp w (fun v => { v with tsr := none })).gangExit w).unmaskWarp w

/-- The first break code of a grid recorded (R426). -/
def State.noteBreak (s : State) (w : WarpId) (code : Option (BitVec 32)) : State :=
  match code with
  | none => s
  | some x => s.onGrid (s.bundle w).grid (fun g => { g with brk := match g.brk with | none => some x | some y => some y })

/-- The bundle of a warp completed, where all its warps have exited. -/
def State.endBundle (s : State) (w : WarpId) : Except MemStop State :=
  let c := w.coreId
  let b := (s.warp w).bslot
  if (s.warpsOf c b).all (fun v => s.warpExited v) then (s.unmaskBundle w).completeBundle c b else .ok s

/-- Lanes of a warp that exit, each with its break code. -/
def State.exitLanes (s : State) (xs : List (LaneCtx × Option (BitVec 32))) (w : WarpId) : Except MemStop State :=
  let s := xs.foldl (fun s x => (s.noteBreak w x.2).exitThread x.1) s
  let s := s.reconsiderAll w
  if s.warpExited w then (s.endWarp w).endBundle w else .ok s

/-- Whether the bundle of a warp would complete with the exits of some of its threads. -/
def State.wouldComplete (s : State) (w : WarpId) (xs : List ThreadId) : Bool :=
  (s.warpsOf w.coreId (s.warp w).bslot).all (fun v => v.threads.all (fun x => decide ((s.thread x).st = .exited) || xs.contains x))

/-- Every thread of a warp's bundle with the scope of a completion's release (R139). -/
def State.completionReleases (s : State) (w : WarpId) : List (ThreadId × Nat) :=
  (s.warpsOf w.coreId (s.warp w).bslot).flatMap (fun v => v.threads.map (fun x => (x, 5)))

/-- Exits of lanes that owe no fault; the last of a bundle waits for its release, and for the sectors that its grid's completion
needs. -/
def runExits (xs : List (LaneCtx × Option (BitVec 32))) (s : State) : State :=
  match xs with
  | [] => s
  | x :: _ =>
    let w := x.1.tid.warp
    let go (s : State) : State :=
      match s.exitLanes xs w with
      | .ok t => t
      | .error (.wait sec wr) => holdIssue (s.await w.die sec wr)
      | .error (.fault _) => s
    if s.wouldComplete w (xs.map (fun x => x.1.tid)) then s.gated (s.completionReleases w) go else go s

/-- EXIT or BREAK: `f` gives each lane's break code. A lane whose operand or guard faults takes its trap; of the others, those that
owe an engine fault take it, and the rest exit (R430). -/
def runExit (i : Instr) (f : LaneCtx → Except Trap (Option (BitVec 32))) (s : State) : State :=
  let act := if (encodingFault i).isSome then [] else activeLanes i s
  let good := act.filterMap (fun c => match f c with | .ok x => some (c, x) | .error _ => none)
  if good.any (fun x => x.1.warp.exitWaits) then holdIssue s
  else
    let owed (c : LaneCtx) : Option EngFault := owedFault none c
    let leaving := good.filter (fun x => (owed x.1).isNone)
    let traps (s : State) : State := runLanes i (fun c =>
      match f c with
      | .error t => .error t
      | .ok _ => match owed c with | some e => .ok (fun s => s.deliverFault c e) | none => .ok id) s
    if leaving.isEmpty then traps s
    else
      let t := runExits leaving s
      let only := (laneCtxs s).all (fun c => leaving.any (fun x => decide (x.1.lane = c.lane)) ||
        (match c.guard ((guardOf i).getD 12) with | .ok b => !b | .error _ => false))
      if (t.thread (match leaving with | x :: _ => x.1.tid | [] => ⟨⟨0, 0, 0, 0⟩, 0⟩)).st ≠ .exited then t
      else if only then holdLatch i t
      else traps t

/-- EXIT (R430). -/
def execExit (g : BitVec 4) (h : BitVec 1) (s : State) : Host.Outcome State Fault Refusal :=
  .next (runExit (.exit g h) (fun _ => .ok none) s)

/-- BREAK: as EXIT, with a code (R426). -/
def execBrk (g : BitVec 4) (h : BitVec 1) (a : BitVec 7) (s : State) : Host.Outcome State Fault Refusal :=
  .next (runExit (.brk g h a) (fun c => (c.word (fld a) 0).map some) s)

/-! ## RESUME and FAIL (R251, R318) -/

/-- RESUME (R251). -/
def execResume (g : BitVec 4) (h : BitVec 1) (s : State) : Host.Outcome State Fault Refusal :=
  .next (runLanes (.resume g h) (fun c =>
    if c.th.hm then .ok (fun s => c.setTarget c.th.xpc (s.onThread c.tid (fun th => th.resumed s.time))) else .error (c.code00 0x13)) s)

/-- The trap that XCS and the detail entry record. -/
def Thread.recorded (th : Thread) : Trap := ⟨(th.xcs.extractLsb' 0 8).toNat, (th.xcs.extractLsb' 8 8).toNat, th.tdb.addr, th.xcs.extractLsb' 16 8, none⟩

/-- A recorded trap made fatal: no trap is taken, so the detail entry stays and DBL is not set (R251). -/
def State.failThread (s : State) (x : ThreadId) : State :=
  let th := s.thread x
  let s := s.leaveGroup x
  fatalAs { s.fatalOf th.recorded x with dbl := false, recn := th.tdb.recn } x s

/-- FAIL (R251). -/
def execFail (g : BitVec 4) (h : BitVec 1) (s : State) : Host.Outcome State Fault Refusal :=
  .next (runLanes (.fail g h) (fun c => if c.th.hm then .ok (fun s => s.failThread c.tid) else .error (c.code00 0x13)) s)

end Sys2Proof.Machine
end

