-- ==== Sys2Proof/Machine/Former.lean ====
section
/-! DEFINITION. The group former (R152 to R157), run fetch and the form of a run (R299 to R302), the boundary after a run (R157, R257
to R261, R263, R375), and the waits of blocked threads (R152, R347). -/

namespace Sys2Proof.Machine

/-! ## Waits (R152) -/

/-- Whether a slot's generation that a thread waits for has been reached, or the wait cannot go on (R227, R228). -/
def State.barrierOver (s : State) (w : WarpId) (level slot gen : Nat) : Bool :=
  match s.slot? w level slot with
  | none => true
  | some b => b.brk || meetReached b.gen (BitVec.ofNat 16 gen + 1)

/-- Whether a tray has a filled slot, or is gone (R239). -/
def State.trayOver (s : State) (w : WarpId) (name : Nat) : Bool :=
  match s.trayOf w.coreId (s.warp w).bslot name with
  | none => true
  | some p => decide (p.2.fillc ≠ 0)

/-- Whether a chit is complete or stale (R420). -/
def State.chitOver (s : State) (k : BitVec 64) : Bool :=
  match s.liveChit k with
  | none => true
  | some e => e.complete

/-- Whether every thread of a warp that has not exited and is not halted is held at an address (R347). -/
def State.joinFull (s : State) (w : WarpId) (a : BitVec 64) : Bool :=
  w.threads.all (fun x =>
    let th := s.thread x
    decide (th.st = .exited) || decide (th.st = .halted) ||
    (match th.wait with | some (.join b _) => decide (th.st = .blocked) && b == a | _ => false))

/-- Whether what a BLOCKED thread waits for has come about. A parked thread waits for FRES, a gang for its latch. -/
def State.waitOver (s : State) (x : ThreadId) : WaitCond → Bool
  | .counter cls n => decide ((s.warp x.warp).counter cls ≤ n)
  | .barrier level slot gen => s.barrierOver x.warp level slot gen
  | .tray name => s.trayOver x.warp name
  | .chit k => s.chitOver k
  | .meet whole m => meetDone s whole x m
  | .join a _ => s.joinFull x.warp a
  | .pendingReg rs => !(s.thread x).pending.any (fun p => rs.contains p.1)
  | .broken _ _ => true
  | .released _ _ _ _ => true
  | .gang _ _ => false
  | .parked _ => false

/-- The wait that a thread keeps as it wakes: what a re-execution of its instruction needs to know. -/
def keptWait : WaitCond → Option WaitCond
  | .barrier l n g => some (.barrier l n g)
  | .broken l n => some (.broken l n)
  | .released l n c f => some (.released l n c f)
  | _ => none

/-- A BLOCKED thread whose wait is over becomes READY now. -/
def Thread.wake (th : Thread) (w : WaitCond) (now : Nat) : Thread := { th with st := .ready, wait := keptWait w, readyAt := now }

/-- The threads of the machine that wake now: their conditions are judged together. -/
def State.wake (s : State) : State :=
  (s.threads.filter (fun p => decide (p.2.st = .blocked) && (match p.2.wait with | some w => s.waitOver p.1 w | none => true))).foldl
    (fun s p => s.setThread p.1 (p.2.wake (p.2.wait.getD (.pendingReg [])) s.time)) s

/-- JOIN_RELEASE_TIMEOUT: the threads of a warp held at an address go on, 256 cycles after the earliest of them (R347). -/
def execJoinReleaseTimeout (die core part slot : Nat) (addr : BitVec 64) (s : State) : Host.Outcome State Fault Refusal :=
  let w : WarpId := ⟨die, core, part, slot⟩
  let held := w.threads.filter (fun x =>
    decide ((s.thread x).st = .blocked) && (match (s.thread x).wait with | some (.join a _) => a == addr | _ => false))
  let due := held.any (fun x => match (s.thread x).wait with | some (.join _ t) => decide (t + 256 ≤ s.time) | _ => false)
  if due then .next (held.foldl (fun s x => s.onThread x (fun th => { th with st := .ready, wait := none, readyAt := s.time })) s)
  else .next s

/-! ## Stops at boundaries (R257 to R261, R263) -/

/-- A thread halts where it stands; outside handler mode `safeAt` holds the cycles counted since its last safe point (R261). -/
def State.haltThread (s : State) (x : ThreadId) : State :=
  (s.leaveGroup x).onThread x (fun th => { th with st := .halted, safeAt := if th.hm then th.safeAt else s.time - th.safeAt })

/-- Whether the halts of a grid have passed their time limit (R263 step 3). -/
def State.forcedHalt (s : State) (gid : Nat) (die : Nat) : Bool :=
  match s.grid? gid with
  | some g => (match g.fatal with
    | some f => f.reached.any (fun p => decide (p.1 = die) && decide (p.2 + 10 * microsecond ≤ s.time))
    | none => false)
  | none => false

/-- FORCED marked for the dump of a grid (R263). -/
def State.markForced (s : State) (gid : Nat) : State :=
  s.onGrid gid (fun g => { g with fatal := g.fatal.map (fun (f : Fatal) => { f with forced := true }) })

/-- An asynchronous trap that resumes at the thread's next run; its detail address is open. -/
def State.takeAsync (s : State) (cls : Nat) (sp : Bool) (x : ThreadId) : State :=
  let t : Trap := ⟨cls, 0, Config.freeBits s.openVals, if sp then 16 else 0, some (s.thread x).pc⟩
  takeTrap t x { s with openVals := s.openVals + 1 }

/-- Whether a thread takes class 12 at a stop position: STOP, or the breakpoint at a safe point it has just passed or passed in handler
mode (R251, R260, log 148). -/
def State.debugStops (s : State) (x : ThreadId) (passed : Bool) : Bool :=
  let o := (s.die x.warp.die).obs
  let th := s.thread x
  ((o.stop && !th.stopped) || (passed && o.bpen && th.lsp == o.bp) || th.bpHeld) && (s.bundle x.warp).asid == o.dbgAsid &&
  th.stopMark != .standing && !th.hm

/-- Class 12 at a stop position (R260). -/
def State.debugStop (s : State) (x : ThreadId) : State :=
  (s.onThread x (fun th => { th with stopped := true, bpHeld := false })).takeAsync 12 true x

/-- A thread that passes the breakpoint in handler mode: its stop waits until HM is cleared (R251). -/
def State.holdBreak (s : State) (x : ThreadId) : State :=
  let o := (s.die x.warp.die).obs
  let th := s.thread x
  if th.hm && o.bpen && th.lsp == o.bp && (s.bundle x.warp).asid == o.dbgAsid then s.onThread x (fun th => { th with bpHeld := true }) else s

/-- Whether a thread's watchdog has run out (R261). -/
def State.watchdogDue (s : State) (x : ThreadId) : Bool :=
  let wd := (s.warp x.warp).wdog.toNat
  let th := s.thread x
  decide (wd ≠ 0) && !th.hm && decide (wd * 1024 < s.time - th.safeAt)

/-- What lands on a thread beside a halt: a debug stop, or the watchdog. -/
def State.landStops (s : State) (x : ThreadId) (safe passed : Bool) : State :=
  if safe && s.debugStops x passed then s.debugStop x
  else if s.watchdogDue x then s.takeAsync 15 safe x
  else s

/-- The first completion failure that a thread has yet to take (R375). -/
def State.takeLate (s : State) (x : ThreadId) : State :=
  match (s.thread x).late with
  | [] => s
  | t :: rest => takeTrap t x (s.onThread x (fun th => { th with late := rest }))

/-- What lands on a thread at a run boundary; `safe` where it is a stop position, `passed` where a safe point has just been
passed. -/
def State.land (s : State) (x : ThreadId) (safe passed : Bool) : State :=
  let s := (if passed then s.holdBreak x else s).takeLate x
  let th := s.thread x
  if th.st = .halted then s
  else
    match (s.warp x.warp).halt with
    | some (.fatal g) =>
      if safe then s.haltThread x else if s.forcedHalt g x.warp.die then (s.haltThread x).markForced g else s
    | some (.save _) => if safe && !th.hm then s.haltThread x else s.landStops x safe passed
    | none => s.landStops x safe passed

/-- Whether a thread's gang has fired for the MMA it stands at: it issues before anything stops it. -/
def Thread.fired (th : Thread) : Bool :=
  decide (th.st ≠ .blocked) && (match th.wait with | some (.gang _ _) => true | _ => false)

/-- Whether a thread stands at a stop position: a safe point just passed, or BLOCKED, FETCHWAIT or parked at a run's start (R257). -/
def Thread.atStop (th : Thread) : Bool :=
  match th.st with
  | .blocked => true
  | .fetchWait => !th.fired
  | .ready => !th.fired && th.atSafe
  | _ => false

/-- Threads that have come to stand at a run's start: halts and debug stops that wait for them land. -/
def State.landStanding (s : State) : State :=
  (s.threads.filter (fun p => decide (p.2.st = .blocked) || (decide (p.2.st = .fetchWait) && !p.2.fired))).foldl (fun s p =>
    let th := s.thread p.1
    match (s.warp p.1.warp).halt with
    | some (.fatal _) => s.haltThread p.1
    | some (.save _) => if th.hm then s else s.haltThread p.1
    | none => if s.debugStops p.1 false then s.debugStop p.1 else s) s

/-- The threads brought up to date with the machine: waits that are over end, stops that are due land. -/
def State.standUp (s : State) : State := s.landStanding.wake

/-- WATCHDOG_EXPIRY: a thread that stands at a run boundary takes class 15 (R261). -/
def execWatchdogExpiry (die core part slot lane : Nat) (s : State) : Host.Outcome State Fault Refusal :=
  let x : ThreadId := ⟨⟨die, core, part, slot⟩, lane⟩
  let th := s.thread x
  let stands := (decide (th.st = .blocked) || decide (th.st = .ready) || decide (th.st = .fetchWait)) && !th.fired
  if (lookup? x s.threads).isSome && stands && s.watchdogDue x then .next (s.takeAsync 15 th.atStop x) else .next s

/-! ## Forming a group (R153, R154) -/

/-- The bucket of an address (R153). -/
def bucketOf (pc : BitVec 64) : BitVec 6 :=
  pc.extractLsb' 2 6 ^^^ pc.extractLsb' 8 6 ^^^ pc.extractLsb' 14 6 ^^^ pc.extractLsb' 20 6 ^^^ pc.extractLsb' 26 6

/-- Whether a warp issues on a port of a partition: access warps on the narrow one (R151). -/
def State.issuesOn (s : State) (die core part port : Nat) (w : WarpId) : Bool :=
  decide (w.die = die) && decide (w.core = core) && decide (w.part = part) &&
  (decide ((s.warp w).wp < (s.bundle w).accw) == decide (port = 1))

/-- The READY threads of the warps that issue on a port. -/
def State.readyOn (s : State) (die core part port : Nat) : List (ThreadId × Thread) :=
  s.threads.filter (fun p => decide (p.2.st = .ready) && s.issuesOn die core part port p.1.warp)

/-- Older first, then the lower warp slot, then the lower lane. -/
def ageKey (p : ThreadId × Thread) : Nat × Nat := (p.2.readyAt, p.1.warp.slot * 32 + p.1.lane)

/-- The seed among candidates: where some have been READY for more than 1,024 cycles the oldest of all; else the oldest of the
bucket whose oldest ready time is oldest (R154). -/
def seedOf (now : Nat) (cands : List (ThreadId × Thread)) : Option (ThreadId × Thread) :=
  match leastBy ageKey cands with
  | none => none
  | some p =>
    if 1024 < now - p.2.readyAt then some p
    else leastBy ageKey (cands.filter (fun q => bucketOf q.2.pc == bucketOf p.2.pc))

/-- The warp slot that a lane pair takes: the seed's own in its pair; else the warp with most such threads, then the oldest
one, then the lowest slot. -/
def pairSlot (seed : ThreadId) (at' : List (ThreadId × Thread)) (j : Nat) : Option Nat :=
  if seed.lane / 2 = j then some seed.warp.slot
  else
    let mine := at'.filter (fun p => decide (p.1.lane / 2 = j))
    let slots := (List.range 16).filter (fun w => mine.any (fun p => decide (p.1.warp.slot = w)))
    let of (w : Nat) := mine.filter (fun p => decide (p.1.warp.slot = w))
    leastBy (fun w => (2 - (of w).length, (of w).foldl (fun m p => Nat.min m p.2.readyAt) (2 ^ 70))) slots

/-- The members of the group that a seed gives, by lane. -/
def State.formMembers (s : State) (seed : ThreadId) (pc : BitVec 64) (cands : List (ThreadId × Thread)) : List (Option Nat) :=
  let b := (s.warp seed.warp).bslot
  let at' := cands.filter (fun p => p.2.pc == pc && decide ((s.warp p.1.warp).bslot = b))
  (List.range 32).map (fun l =>
    match pairSlot seed at' (l / 2) with
    | none => none
    | some w => if at'.any (fun p => decide (p.1.lane = l) && decide (p.1.warp.slot = w)) then some w else none)

/-- A group that waits for its run. -/
def newGroup (members : List (Option Nat)) (pc : BitVec 64) (seed now : Nat) : Group :=
  { members := members, addr := pc, words := [], trailerA := 0, trailerB := 0, fetched := false, here := 0, next := 0, cycle := 0,
    temps := [], hazards := [], latch := [], targets := [], varDests := [], entered := false, seed := seed, formedAt := now, dueAt := 0, held := false }

/-- The lowest free run buffer of a port. -/
def State.freeBuffer (s : State) (die core part port : Nat) : Option Nat :=
  (List.range 4).find? (fun b => (s.group? ⟨die, core, part, port, b⟩).isNone)

/-- A group formed from candidates: its threads are FETCHWAIT until its run arrives. -/
def State.formGroup (s : State) (k : GroupKey) (cands : List (ThreadId × Thread)) : State :=
  match seedOf s.time cands with
  | none => s
  | some p =>
    let g := newGroup (s.formMembers p.1 p.2.pc cands) p.2.pc p.1.warp.slot s.time
    let s := (s.endFence k).setGroup k g
    (membersOf k g).foldl (fun s m => s.onThread m.2 (fun th => { th with st := .fetchWait })) s

/-- GROUP_FORM: the former of a port forms one group where a run buffer is free and a thread is READY (R154). -/
def execGroupForm (die core part port : Nat) (s : State) : Host.Outcome State Fault Refusal :=
  if 8 ≤ die ∨ 192 ≤ core ∨ 4 ≤ part ∨ 2 ≤ port then .next s
  else
    let s := s.standUp
    match s.freeBuffer die core part port with
    | none => .next s
    | some b => .next (s.formGroup ⟨die, core, part, port, b⟩ (s.readyOn die core part port))

/-! ## Fetching a run (R299, R302) -/

/-- A word of a run: from the instruction cache, or through the die cache. -/
def State.runWord (s : State) (w : WarpId) (va : BitVec 64) : Except WordStop Nat :=
  match s.locate w va 4 2 0 with
  | .here (.mem pa _) =>
    match lookup? (pa / 128) (s.core w.coreId).icache with
    | some l => .ok (bitsAt l.toNat (8 * (pa % 128)) 32)
    | none => s.wordAt w 2 va
  | _ => s.wordAt w 2 va

/-- The words before the first of OP 0x3F, and that word, among the first n; none where there is none. -/
def State.runUpTo (s : State) (w : WarpId) (va : BitVec 64) : Nat → Except (WordStop × BitVec 64) (Option (List Word × Word))
  | 0 => .ok none
  | n + 1 =>
    match s.runWord w va with
    | .error e => .error (e, va)
    | .ok x =>
      let v : Word := BitVec.ofNat 32 x
      if opOf v = 0x3F then .ok (some ([], v))
      else
        match s.runUpTo w (va + 4) n with
        | .error e => .error e
        | .ok none => .ok none
        | .ok (some r) => .ok (some (v :: r.1, r.2))

/-- A stall count of a trailer (R300). -/
def stallOf (a b : Word) (i : Nat) : Nat := if i ≤ 6 then a.toNat / 2 ^ (2 * i - 2) % 4 else b.toNat / 2 ^ (2 * i - 14) % 4

/-- Whether a run keeps the form of R299. -/
def runOk (ws : List Word) (a b : Word) : Bool :=
  decide (ws.length ≠ 0) && decide ((a.extractLsb' 21 5).toNat = ws.length) &&
  (List.range 22).all (fun i =>
    match nth? ws i with
    | none => decide (stallOf a b (i + 1) = 0)
    | some w => decide (opOf w ≠ 0x3E) || decide (stallOf a b (i + 1) = 0))

/-- A run as read: its words and trailer words, or none where it is malformed. A run that starts at no multiple of 4 is
malformed (log 40). -/
def State.readRun (s : State) (w : WarpId) (va : BitVec 64) : Except (WordStop × BitVec 64) (Option (List Word × Word × Word)) :=
  if va.extractLsb' 0 2 ≠ 0 then .ok none
  else
    match s.runUpTo w va 23 with
    | .error e => .error e
    | .ok none => .ok none
    | .ok (some (ws, a)) =>
      let vb := va + BitVec.ofNat 64 (4 * ws.length + 4)
      match s.runWord w vb with
      | .error e => .error (e, vb)
      | .ok b => if runOk ws a (BitVec.ofNat 32 b) then .ok (some (ws, a, BitVec.ofNat 32 b)) else .ok none

/-- A line entered in an instruction cache of 64 sets of 4 ways; the oldest of its set goes. -/
def icacheFill (line : Nat) (data : BitVec 1024) (c : List (Nat × BitVec 1024)) : List (Nat × BitVec 1024) :=
  let c := drop line c
  let mine := c.filter (fun l => decide (l.1 % 64 = line % 64))
  let c := match mine with
    | old :: _ => if 4 ≤ mine.length then drop old.1 c else c
    | [] => c
  c ++ [(line, data)]

/-- The lines of which a warp has read both sectors entered in its core's instruction cache, and what it has read let go. -/
def State.fillLines (s : State) (w : WarpId) : State :=
  let got := (s.warp w).got
  let lines := got.filterMap (fun p =>
    if p.1 % 128 = 0 ∧ p.2.length = 64 then
      match lookup? (p.1 + 64) got with
      | some q => if q.length = 64 then some (p.1 / 128, BitVec.ofNat 1024 (natOfBytes (p.2 ++ q))) else none
      | none => none
    else none)
  let s := s.onCore w.coreId (fun c => { c with icache := lines.foldl (fun i l => icacheFill l.1 l.2 i) c.icache })
  s.onWarp w (fun v => { v with got := [] })

/-- The registers that a run reads in a thread, counted from the first of its warp's range (R305). -/
def State.runReads (s : State) (w : WarpId) (th : Thread) (ws : List Word) : List Nat :=
  let is := (decodeAll ws.length ws).filterMap (fun (o : MicroOp) => match o with | .ok i => some i | .error _ => none)
  let micro (i : Instr) : List Instr := match i with
    | .mcall x d a b =>
      (match lookup? x.toNat (s.core w.coreId).micro with
        | some m => (decodeAll m.words.length m.words).filterMap (fun (o : MicroOp) =>
            match o with | .ok j => some (microFields (microField d a b) j) | .error _ => none)
        | none => [])
    | _ => []
  let fs := ((is ++ is.flatMap micro).flatMap (fun i =>
    sourceFields i ++ (cvtReads (fun f => (lookupD (th.wb + f) Reg.zero th.regs).tag) i).map Prod.fst)).filter (fun f => decide (f < 112))
  let rs := fs.map (fun f => th.wb + f)
  rs ++ (rs.filter (fun r => isPairTag (lookupD r Reg.zero th.regs).tag)).map (· + 1)

/-- A member whose run reads a register that is pending leaves the group: it is BLOCKED (R152, R305). -/
def State.leavePending (s : State) (ws : List Word) (x : ThreadId) : State :=
  let th := s.thread x
  let rs := s.runReads x.warp th ws
  if th.pending.any (fun p => rs.contains p.1) && !th.fired then
    (s.leaveGroup x).setThread x { th with st := .blocked, wait := some (.pendingReg rs) }
  else s

/-- A member that the run of a warp-bound group leaves out goes back to READY with its ready time (R154, R155). -/
def State.unform (s : State) (x : ThreadId) : State := (s.leaveGroup x).onThread x (fun th => { th with st := .ready })

/-- A run arrives in its buffer: warp-bound runs keep the seed's warp, members that must wait leave, the others are GROUPED. -/
def State.runArrives (s : State) (k : GroupKey) (g : Group) (ws : List Word) (a b : Word) : State :=
  let s := s.setGroup k { g with words := ws, trailerA := a, trailerB := b, fetched := true }
  let out := if ws.any warpBoundWord then (membersOf k g).filter (fun m => decide (m.2.warp.slot ≠ g.seed)) else []
  let s := out.foldl (fun s m => s.unform m.2) s
  let kept := (membersOf k g).filter (fun m => !out.contains m)
  let s := kept.foldl (fun s m => s.leavePending ws m.2) s
  kept.foldl (fun s m => if (s.thread m.2).st = .fetchWait then s.onThread m.2 (fun th => { th with st := .grouped }) else s) s

/-- A line of another module asked for a warp's fetch in one packet, so that its halves are read together (R78, R302). -/
def State.askBlock (s : State) (w : WarpId) (pa leaf : Nat) : State :=
  if s.asking w pa || s.asking w (pa + 64) then s
  else
    let half (x : Nat) : Access :=
      { laneAccess ⟨w, 0⟩ s.fresh .read 0 x 64 (pteRcl leaf) with who := .words w, rep := pteRepl leaf }
    s.holdPacket w.die ⟨remotePacket 1 pa 128 0 0 0 [], [half pa, half (pa + 64)], none, 0, (s.bundle w).grid, none, false⟩

/-- The lines of this module of which a warp has both halves, but not as they stand together at its die: a line is taken only whole, as it
was or as it is (R302). -/
def State.tornLines (s : State) (w : WarpId) : List Nat :=
  let got := (s.warp w).got
  let torn (p : Nat × List Byte) : Bool :=
    match s.peekSector w.die (sectorOf (p.1 % 2 ^ 44)) with
    | some d => decide (natOfBytes p.2 ≠ d.toNat)
    | none => decide (p.1 % 2 ^ 44 < farBase)
  got.filterMap (fun p =>
    match lookup? (p.1 + 64) got with
    | some q =>
      if p.1 % 128 = 0 ∧ p.2.length = 64 ∧ q.length = 64 ∧ p.1 / 2 ^ 44 = s.nmod ∧ (torn p || torn (p.1 + 64, q)) then some (p.1 / 128) else none
    | none => none)

/-- Lines that a warp has read let go, to be read again. -/
def State.dropLines (s : State) (w : WarpId) (ls : List Nat) : State :=
  s.onWarp w (fun v => { v with got := v.got.filter (fun p => !ls.contains (p.1 / 128)) })

/-- What a run that cannot be read does to its group's members. -/
def State.fetchStops (s : State) (w : WarpId) (xs : List ThreadId) (va : BitVec 64) : WordStop → State
  | .trap t => xs.foldl (fun s x => takeTrap t x s) (s.onWarp w (fun v => { v with got := [] }))
  | .denied sub p => xs.foldl (fun s x => s.translationFault x (s.bundle x.warp).asid va sub 2 p) s
  | .ask pa leaf =>
    let want := [pa / 128 * 128, pa / 128 * 128 + 64].filter (fun a => (lookup? a (s.warp w).got).isNone)
    if pa / 2 ^ 44 = s.nmod then want.foldl (fun s a => s.askWords w a leaf) s else s.askBlock w (pa / 128 * 128) leaf
  | e => s.pressWords w 2 va xs e

/-- RUN_FETCH_DONE: a run arrives, is found malformed, faults, or must still be read (R154, R299). -/
def execRunFetchDone (die core part port buf : Nat) (s : State) : Host.Outcome State Fault Refusal :=
  let k : GroupKey := ⟨die, core, part, port, buf⟩
  let s := s.landStanding
  match s.group? k with
  | none => .next s
  | some g =>
    if g.fetched then .next s
    else
      let xs := (membersOf k g).map Prod.snd
      match xs with
      | [] => .next s
      | x :: _ =>
        let torn := s.tornLines x.warp
        if !torn.isEmpty then .next (s.dropLines x.warp torn)
        else match s.readRun x.warp g.addr with
        | .error e => .next (s.fetchStops x.warp xs e.2 e.1)
        | .ok none => .next (xs.foldl (fun s x => takeTrap (Trap.sync 0 9 g.addr) x s) (s.fillLines x.warp))
        | .ok (some r) => .next ((s.fillLines x.warp).runArrives k g r.1 r.2.1 r.2.2)

/-! ## The next instruction of a group -/

/-- Whether the issue duty of a partition lets it issue in this cycle: its first cycles of eight (R16, log 41). -/
def State.onDuty (s : State) (k : GroupKey) : Bool := decide (s.time % 8 < lookupD k.part 8 (s.core k.coreId).duty)

/-- Whether an active lane reads a register that is still pending, so that the instruction cannot issue (R305, R343). -/
def State.readsPending (s : State) (i : Instr) : Bool :=
  (activeLanes i s).any (fun c => c.th.pending.any (fun p => (s.runReads c.tid.warp c.th (encode i)).contains p.1))

/-- POOL, which the core's one pool controller answers (R169). -/
def isPool : Instr → Bool
  | .poolScr _ _ _ _ | .poolMxs _ _ _ _ => true
  | _ => false

/-- Whether a group of a lower partition of the core issues a POOL in this cycle, which the pool controller takes first (R169, R178). -/
def State.poolBefore (s : State) (k : GroupKey) : Bool :=
  s.groups.any (fun p => decide (p.1.coreId = k.coreId) && decide (p.1.part < k.part) && p.2.fetched && !p.2.held &&
    (match nth? p.2.words p.2.next with | some w => opOf w == 0x35 | none => false) && s.onDuty p.1 && s.issueDue p.1 p.2)

/-- The next issue of a group: duty, gap and port, then the instruction, the registers it reads and the units it needs (R156, R159,
R303, R305, R353, R360). -/
def nextIssue (k : GroupKey) (s : State) : Prepared :=
  match s.group? k with
  | none => .done s
  | some g =>
    if !s.onDuty k || !s.issueDue k g then .done s
    else
      match prepare k s with
      | .done t => .done t
      | .run i t =>
        let cs := laneCtxs t
        if isPool i && s.poolBefore k then .done s
        else if t.readsPending i || !s.unitsFree k { g with here := g.next } i cs then .done (s.markHeld k)
        else .run i (t.useUnits k i cs)

/-! ## The end of a run (R156, R301, R258) -/

/-- A member past its run's trailer: its next PC, its safe-point count, and a JOIN's hold. -/
def State.endMember (s : State) (g : Group) (m : Nat × ThreadId) : State :=
  let last := g.hazards.foldl (fun n h => if h.lane = m.1 then Nat.max n h.due else n) 0
  let th := (s.thread m.2).passTrailer g.stops (s.groupOrdinal (s.bundle m.2.warp) g) s.time
  let th := { th with pc := lookupD m.1 g.afterAddr g.targets, readyAt := s.time, settled := s.time + (last - g.cycle) }
  s.setThread m.2 (match th.wait with
    | some (.join a _) => { th with st := .blocked, wait := some (.join a s.time) }
    | _ => { th with st := .ready, wait := none })

/-- A member at the boundary after its run: what waits for a boundary lands. A thread held by JOIN stands at a stop position. -/
def State.landMember (s : State) (g : Group) (m : Nat × ThreadId) : State :=
  s.land m.2 (g.stops || decide ((s.thread m.2).st = .blocked)) g.stops

/-- RUN_END: the trailer is passed and the group dissolves (R156, R301). -/
def execRunEnd (die core part port buf : Nat) (s : State) : Host.Outcome State Fault Refusal :=
  let k : GroupKey := ⟨die, core, part, port, buf⟩
  match s.group? k with
  | none => .next s
  | some g =>
    if !g.fetched || decide (g.next < g.len) then .next s
    else
      let ms := membersOf k g
      let s := { s with groups := drop k s.groups }
      let s := ms.foldl (fun s m => s.endMember g m) s
      .next (ms.foldl (fun s m => s.landMember g m) s)

end Sys2Proof.Machine
end

