-- ==== Sys2Proof/Machine/Context.lean ====
section
/-! DEFINITION. Contexts of bundles: what a save or a dump takes of a bundle (R145, R262), the context image (R262, R453, R471), and
a context put back on a core (R147). -/

namespace Sys2Proof.Machine

/-! ## Taking a context -/

/-- The warps of a bundle in ascending wp. -/
def State.warpsByNumber (s : State) (c : CoreId) (b : Nat) : List WarpId :=
  let ws := s.warpsOf c b
  (List.range 64).filterMap (fun n => ws.find? (fun w => decide ((s.warp w).wp = n)))

/-- A thread as a context keeps it: one that waits for a fault slot, and has none, will fault again. -/
def Thread.kept (th : Thread) : Thread :=
  if th.wait = some (.parked 256) then { th with wait := none } else th

/-- An engine operation as a context keeps it: one that waits for a fault slot, and has none, will fault again. -/
def EngineJob.kept (j : EngineJob) : EngineJob := if j.suspended = some 256 then { j with suspended := none } else j

/-- The context of the bundle in a slot of a core (R145, R262). -/
def State.capture (s : State) (c : CoreId) (b : Nat) : Saved :=
  let v := s.bundleAt c b
  let ws := s.warpsByNumber c b
  let k := s.cluster c.die c.cluster
  { die := c.die, bundle := v, warps := ws.map (fun w => ((s.warp w).wp, s.warp w))
    threads := ws.flatMap (fun w => w.threads.map (fun x => (((s.warp w).wp, x.lane), (s.thread x).kept)))
    bars := ((s.core c).bars.filter (fun p => decide (p.2.holder = b))).map Prod.snd
    spreadBars := if v.member = 0 then (k.bars.filter (fun p => decide (p.2.holder = v.spread))).map Prod.snd else []
    monitors := if v.member = 0 then
        (k.monitors.filter (fun p => decide (p.2.spread = v.spread) && decide (p.2.level = 2))).map Prod.snd else []
    trays := ((s.core c).trays.filter (fun p => decide (p.2.bslot = b))).map Prod.snd
    jobs := (s.jobs.filter (fun j => ws.contains j.warp)).map EngineJob.kept, far := false, restoring := none, pnote := recPnote (s.recordOf v) }

/-! ## The image (R262, R453, R471) -/

/-- Zero bytes. -/
def zeroBytes (n : Nat) : List Byte := List.replicate n 0

/-- Bytes padded with zeros to a multiple of 64. -/
def pad64 (bs : List Byte) : List Byte := bs ++ zeroBytes ((64 - bs.length % 64) % 64)

/-- A section with its header, or nothing where its body is empty (R453). -/
def imageSection (ty : Nat) (body : List Byte) : List Byte :=
  if body.isEmpty then []
  else
    let b := pad64 body
    bytesOfNat 2 ty ++ zeroBytes 2 ++ bytesOfNat 4 b.length ++ zeroBytes 8 ++ b

/-- A thread of a context. -/
def Saved.thread (v : Saved) (wp lane : Nat) : Thread := lookupD (wp, lane) Thread.reset v.threads

/-- Type 1, one warp: data then tags, register-major (R471). -/
def Saved.regBytes (v : Saved) (wp : Nat) : List Byte :=
  let rs := List.range (v.bundle.regs * 8)
  let reg (r l : Nat) : Reg := lookupD r Reg.zero (v.thread wp l).regs
  rs.flatMap (fun r => (List.range 32).flatMap (fun l => bytesOfNat 4 (reg r l).data.toNat)) ++
  rs.flatMap (fun r => (List.range 16).map (fun m => (reg r (2 * m + 1)).tag ++ (reg r (2 * m)).tag))

/-- The parked slot as an image records it. -/
def Thread.parkedSlot (th : Thread) : Nat := match th.wait with | some (.parked n) => if n < 256 then n else 0xFFFF | _ => 0xFFFF

/-- The 64 bytes of a lane in type 2 (R262): a thread that has not exited is written as HALTED. -/
def Thread.imageBytes (th : Thread) : List Byte :=
  bytesOfNat 8 th.pc.toNat ++ bytesOfNat 8 th.repc.toNat ++ bytesOfNat 8 th.xpc.toNat ++ bytesOfNat 8 th.lr.toNat ++
  bytesOfNat 4 th.recn.toNat ++ bytesOfNat 4 th.lsp.toNat ++ bytesOfNat 4 th.xcsWord.toNat ++ bytesOfNat 2 th.rsp.toNat ++
  bytesOfNat 2 th.wb ++ bytesOfNat 1 (if th.st = .exited then 5 else 4) ++ bytesOfNat 1 (bit th.hm) ++ bytesOfNat 2 th.parkedSlot ++
  bytesOfNat 2 th.meet0.toNat ++ bytesOfNat 2 th.meet1.toNat ++ zeroBytes 8

/-- Predicate i of a warp's lanes, bit l for lane l. -/
def Saved.predMask (v : Saved) (wp i : Nat) : Nat :=
  (List.range 32).foldl (fun n l => n + (if (v.thread wp l).preds.getLsbD i then 2 ^ l else 0)) 0

/-- Type 2, one warp. -/
def Saved.specialBytes (v : Saved) (wp : Nat) (w : Warp) : List Byte :=
  (List.range 12).flatMap (fun i => bytesOfNat 4 (v.predMask wp i)) ++
  [w.lgw.toNat, w.gang.toNat, w.fps.toNat, w.fpc.toNat, w.chk.toNat, w.tbase.toNat, w.wdog.toNat].flatMap (bytesOfNat 8) ++
  (List.range 32).flatMap (fun l => (v.thread wp l).imageBytes)

/-- Entries in ascending name. -/
def byName (bs : List BarSlot) : List BarSlot := (List.range 64).filterMap (fun n => bs.find? (fun b => decide (b.name = n)))

/-- A slot entry of type 4 (R471). -/
def BarSlot.imageBytes (level : Nat) (b : BarSlot) : List Byte :=
  bytesOfNat 1 (level + 8 * bit b.brk) ++ bytesOfNat 1 b.name ++ bytesOfNat 2 b.gen.toNat ++ zeroBytes 4 ++ bytesOfNat 8 b.mask.toNat ++
  bytesOfNat 8 b.arrv.toNat ++ bytesOfNat 5 b.pend ++ zeroBytes 3

/-- A monitor entry of type 4 (R471). -/
def Monitor.imageBytes (m : Monitor) : List Byte :=
  bytesOfNat 64 m.block.toNat ++ bytesOfNat 16 (m.acc % 2 ^ 128).toNat ++ bytesOfNat 1 m.name ++
  bytesOfNat 1 (bit m.ov + 2 * bit m.nf + 4 * bit m.pf) ++ zeroBytes 14

/-- Type 4; cluster slots and monitors stand in the image of member 0 only. -/
def Saved.barrierBytes (v : Saved) : List Byte :=
  let spreadBars := if v.bundle.member = 0 then v.spreadBars else []
  let monitors := if v.bundle.member = 0 then v.monitors else []
  if v.bars.isEmpty && spreadBars.isEmpty && monitors.isEmpty then []
  else
    let ms := (List.range 4).filterMap (fun n => monitors.find? (fun m => decide (m.name = n)))
    bytesOfNat 2 v.bars.length ++ bytesOfNat 2 spreadBars.length ++ bytesOfNat 2 monitors.length ++ zeroBytes 2 ++
    (byName v.bars).flatMap (BarSlot.imageBytes 1) ++ (byName spreadBars).flatMap (BarSlot.imageBytes 2) ++ ms.flatMap Monitor.imageBytes

/-- An entry of the trap detail buffer as bytes (R249). -/
def TrapDetail.bytes (t : TrapDetail) : List Byte :=
  bytesOfNat 8 t.addr.toNat ++ [t.cls, t.sub, t.flags, 0] ++ bytesOfNat 4 t.recn.toNat

/-- A tile of type 7: header and elements (R471). -/
def Tile.imageBytes (t : Tile) (i wp : Nat) : List Byte :=
  let n := if t.tag = 4 then 8 else 4
  let st := t.stamp.getD (0, 0)
  bytesOfNat 1 i ++ bytesOfNat 1 t.tag.toNat ++ bytesOfNat 1 (bit t.stamp.isSome) ++ bytesOfNat 1 wp ++ bytesOfNat 4 st.1.toNat ++
  bytesOfNat 4 st.2 ++ zeroBytes 20 ++ (List.range 2048).flatMap (fun e => bytesOfNat n (lookupD e 0 t.elems).toNat)

/-- Type 7, one warp: its live tiles in ascending index. -/
def tileBytes (wp : Nat) (w : Warp) : List Byte :=
  (List.range 6).flatMap (fun i => match lookup? i w.tiles with | some t => if t.live then t.imageBytes i wp else [] | none => [])

/-- What type 8 holds of a tray (R262): name, offset, size, N, P, C, F and the states of its slots. -/
def Tray.fields (t : Tray) : List Nat :=
  [t.name, t.offset, t.size, t.n, t.p, t.c, t.f] ++
  t.slots.map (fun x => match x with | .free => 0 | .filling => 1 | .filled => 2 | .reading => 3 | .spent => 4)

/-- What type 5 holds of a suspended copy or gather (R241, R262): its kind and its warp's number are found by its descriptor and lanes;
then what it has moved, claimed, committed and popped. Each list follows its length. -/
def EngineJob.fields (j : EngineJob) : List Nat :=
  let list (l : List Nat) : List Nat := l.length :: l
  [bit j.gather, j.committed] ++ list (j.desc.map BitVec.toNat) ++ list (j.lanes.flatMap (fun l => [l.1, l.2.1.toNat, l.2.2.toNat])) ++
  list j.sent ++ list j.fills ++ list j.pops ++ list j.rowPops

/-- The sections of an image, in type order. -/
def Saved.sections (v : Saved) : List (List Byte) :=
  [imageSection 1 (v.warps.flatMap (fun p => v.regBytes p.1)),
   imageSection 2 (v.warps.flatMap (fun p => v.specialBytes p.1 p.2)),
   imageSection 3 (readCells 0 v.bundle.scr (v.bundle.scrSegs * 8192)),
   imageSection 4 v.barrierBytes,
   imageSection 5 (v.warps.flatMap (fun p => [p.2.cpy, p.2.gth, p.2.mtx, p.2.rmt, p.2.inv].flatMap (bytesOfNat 1)) ++
     v.jobs.flatMap (fun j => Config.imageBytes 0 j.fields)),
   imageSection 6 (v.warps.flatMap (fun p => (List.range 32).flatMap (fun l => (v.thread p.1 l).tdb.bytes))),
   imageSection 7 (v.warps.flatMap (fun p => tileBytes p.1 p.2)),
   imageSection 8 (v.trays.flatMap (fun t => Config.imageBytes 1 t.fields))].filter (fun b => !b.isEmpty)

/-- The context image (R262). -/
def Saved.image (v : Saved) : List Byte :=
  let b := v.bundle
  let secs := v.sections
  bytesOfNat 4 0x4C444E42 ++ bytesOfNat 8 b.bn ++ bytesOfNat 1 b.wpb ++ bytesOfNat 1 b.regs ++ bytesOfNat 1 b.scrSegs ++
  bytesOfNat 1 b.accw ++ (List.range 4).flatMap (fun q => bytesOfNat 1 (nth 0 b.mxs q)) ++ bytesOfNat 2 b.member ++
  bytesOfNat 2 secs.length ++ zeroBytes 40 ++ secs.flatten

/-! ## The shadow store -/

/-- The bytes that a die's shadow store holds. -/
def State.shadowUsed (s : State) (die : Nat) : Nat :=
  (s.shadow.filter (fun v => decide (v.die = die) && !v.far)).foldl (fun n v => n + v.image.length) 0

/-- The shadow store of a die: 32 MiB. -/
def shadowSize : Nat := 0x2000000

/-! ## A bundle that stands still (R145, R263) -/

/-- Whether every thread of a bundle has halted or exited. -/
def State.bundleHalted (s : State) (c : CoreId) (b : Nat) : Bool :=
  (s.warpsOf c b).all (fun w => w.threads.all (fun x => decide ((s.thread x).st = .halted) || decide ((s.thread x).st = .exited)))

/-- Whether an operation is blocked on a tray: its next part waits for a slot (R241). -/
def State.jobBlocked (s : State) (j : EngineJob) : Bool :=
  match j.nextPart with
  | none => false
  | some e => !j.trays.isEmpty && !s.engAway j && j.suspended.isNone && (s.movePart j e).2 == some .hold

/-- Whether nothing of a warp is in flight: copies and gathers but those blocked on a tray, matrix operations, remote
operations, invocations on their way, values to come, POOL, TSR. -/
def State.warpDrained (s : State) (w : WarpId) : Bool :=
  let v := s.warp w
  (s.jobs.filter (fun j => decide (j.warp = w))).all s.jobBlocked &&
  decide (v.cpy + v.gth = (s.jobs.filter (fun j => decide (j.warp = w))).length) &&
  decide (v.mtx = 0) && decide (v.rmt = 0) && decide (v.inv = 0) && !v.poolPending &&
  w.threads.all (fun x => (s.thread x).pending.isEmpty && !s.busy x)

/-- Whether a bundle's operations have drained. -/
def State.bundleDrained (s : State) (c : CoreId) (b : Nat) : Bool := (s.warpsOf c b).all s.warpDrained

/-! ## A halt sent to a bundle, and a bundle let go on -/

/-- A warp receives a halt: one under a halt already keeps it. A halt broadcast discards an open tile stamp record (R269). -/
def Warp.receiveHalt (v : Warp) (h : Halt) : Warp :=
  { v with halt := match v.halt with | none => some h | some x => some x
           tsr := match h with | .fatal _ => none | .save _ => v.tsr }

/-- Every warp of a bundle receives a halt; threads at stop positions halt at once. -/
def State.haltBundle (s : State) (c : CoreId) (b : Nat) (h : Halt) : State :=
  (s.warpsOf c b).foldl (fun s w =>
    let s := s.onWarp w (fun v => v.receiveHalt h)
    w.threads.foldl (fun s x =>
      let th := s.thread x
      let may := match h with | .fatal _ => true | .save _ => !th.hm
      if may && th.atStop && decide ((s.warp w).halt = some h) then s.haltThread x else s) s) s

/-- A halted thread goes on: at its run, or parked again; a join is counted anew (R262, R347). -/
def Thread.goOn (th : Thread) (now : Nat) : Thread :=
  let th := { th with readyAt := now, safeAt := if th.hm then th.safeAt else now - th.safeAt }
  match th.wait with
  | some (.parked n) => { th with st := .blocked, wait := some (.parked n) }
  | some (.join a _) => { th with st := .blocked, wait := some (.join a now) }
  | some (.gang m e) => { th with st := .blocked, wait := some (.gang m e) }
  | some w => { th with st := .ready, wait := keptWait w }
  | none => { th with st := .ready }

/-- The halt of a grid that is ending, for a die that its broadcast has reached. -/
def State.fatalHalt (s : State) (gid die : Nat) : Option Halt :=
  match s.grid? gid with
  | some g => (match g.fatal with
    | some f => if f.reached.any (fun p => decide (p.1 = die)) then some (.fatal gid) else none
    | none => none)
  | none => none

/-- A bundle that has not wholly halted resumes (R145); where its grid is ending it comes under that halt. -/
def State.resumeBundle (s : State) (c : CoreId) (b : Nat) : State :=
  let h := s.fatalHalt (s.bundleAt c b).grid c.die
  (s.warpsOf c b).foldl (fun s w =>
    let s := s.onWarp w (fun v => { v with halt := h })
    if h.isSome then s
    else w.threads.foldl (fun s x => if (s.thread x).st = .halted then s.onThread x (fun th => th.goOn s.time) else s) s) s

/-! ## Putting a context back (R147, R230) -/

/-- A warp of a context on its new place: its bundle slot and its range are those of the place, its tiles lie in segments allotted
there. -/
def State.restoreWarp (s : State) (v : Saved) (w : WarpId) : State :=
  let now := s.warp w
  let old := lookupD now.wp Warp.reset v.warps
  let segsOf (used : List Nat) (n : Nat) : List Nat :=
    (((List.range 40).filter (fun k => decide (k / 10 = w.part) &&
      (match nth? (s.core w.coreId).segs k with | some g => decide (g.role = .mxs) && g.own == some now.bslot | none => false))).filter
      (fun k => !used.contains k)).take n
  let others := (s.warps.filter (fun p => decide (p.1.coreId = w.coreId) && decide (p.1.part = w.part) && decide (p.1 ≠ w))).flatMap
    (fun p => p.2.tiles.flatMap (fun t => t.2.segs))
  let placed := old.tiles.foldl (fun (r : List (Nat × Tile) × List Nat) t =>
    let segs := segsOf r.2 t.2.segs.length
    (r.1 ++ [(t.1, { t.2 with segs := segs })], r.2 ++ segs)) ([], others)
  s.setWarp w { old with bslot := now.bslot, base := now.base, halt := now.halt, tiles := placed.1, firing := none, got := [] }

/-- The threads of a context's warp go on at their saved positions; with PNOTE each takes class 13 there first (R147). -/
def State.restoreThreads (s : State) (v : Saved) (samePlace : Bool) (w : WarpId) : State :=
  let wp := (s.warp w).wp
  let s := w.threads.foldl (fun s x =>
    let th := v.thread wp x.lane
    let th := if samePlace then th else match th.wait with | some (.parked _) => { th with wait := none } | _ => th
    s.setThread x (if th.st = .exited then th else th.goOn s.time)) s
  if v.pnote then w.threads.foldl (fun s x => if (s.thread x).st = .exited then s else s.takeAsync 13 true x) s else s

/-- The last member of a spread leaves its cluster by a save: the slots of the cluster that it holds, and the monitors bound to them, are
kept as they then stand, with the context of its lowest member (R230, R242). -/
def State.keepSpread (s : State) (c : CoreId) (v : Bundle) : State :=
  if (s.spreadSlots c.die c.cluster v.spread).length ≠ 1 then s
  else
    let k := s.cluster c.die c.cluster
    let mine (x : Saved) : Bool := decide (x.die = c.die) && decide (x.bundle.spread = v.spread)
    let low := (s.shadow.filter mine).foldl (fun m x => Nat.min m x.bundle.member) 48
    { s with shadow := s.shadow.map (fun (x : Saved) =>
        if !mine x then x
        else if x.bundle.member = low then
          { x with
            spreadBars := (k.bars.filter (fun p => decide (p.2.holder = v.spread))).map Prod.snd
            monitors := (k.monitors.filter (fun p => decide (p.2.spread = v.spread) && decide (p.2.level = 2))).map Prod.snd }
        else { x with spreadBars := [], monitors := [] }) }

/-- The suspended operations of a context put back at its place. -/
def State.restoreJobs (s : State) (v : Saved) (c : CoreId) (b : Nat) : State :=
  let ws := s.warpsByNumber c b
  let warpOf (j : EngineJob) : Option WarpId :=
    match v.warps.find? (fun p => p.2.ops.any (fun o => decide (o.id = j.id))) with
    | some p => ws.find? (fun w => decide ((s.warp w).wp = p.1))
    | none => none
  { s with jobs := s.jobs ++ v.jobs.filterMap (fun (j : EngineJob) => (warpOf j).map (fun w => { j with warp := w })) }

/-- A context put back in a slot of a core: its scratchpad, its warps, what was bound, its threads, which see what they saw before
(R217). -/
def State.restoreContext (s : State) (v : Saved) (c : CoreId) (b : Nat) (samePlace : Bool) : State :=
  let s := s.setBundle c b { s.bundleAt c b with scr := v.bundle.scr }
  let ws := s.warpsByNumber c b
  let s := ws.foldl (fun s w => s.restoreWarp v w) s
  let s := (s.restoreJobs v c b).l1Invalidate c
  ws.foldl (fun s w => s.restoreThreads v samePlace w) s

end Sys2Proof.Machine
end

