-- ==== Sys2Proof/Machine/Preempt.lean ====
section
/-! DEFINITION. Spatial pre-emption (R142 to R149): requests, the choice of victims, saving, reservations, restoring. -/

namespace Sys2Proof.Machine

/-! ## Requests (R142, R143) -/

/-- PESTAT of an ID of a die. -/
def State.pestatOf (s : State) (die id : Nat) : Pestat := lookupD id Pestat.reset (s.dispatcher die).pestat
/-- PESTAT of an ID changed; a DIEOFF has none. -/
def State.onPestat (s : State) (die id : Nat) (f : Pestat → Pestat) : State :=
  if id < 4 then s.onDisp die (fun d => { d with pestat := put id (f (s.pestatOf die id)) d.pestat }) else s

/-- Whether an ID's request is under way. -/
def Pestat.busy (p : Pestat) : Bool := decide (p.st = .queued) || decide (p.st = .halting) || decide (p.st = .saving)

/-- A request as PEREQ gives it (R142). -/
def pereqOf (v : BitVec 32) : PeReq :=
  { id := bitsAt v.toNat 16 2, count := bitsAt v.toNat 0 8, clusters := v.getLsbD 8, prio := bitsAt v.toNat 9 3
    cmask := v.extractLsb' 12 4, tout := bitsAt v.toNat 19 8, start := 0, victims := [], saved := [], dieoff := false
    begun := false, late := false }

/-- Whether PEREQ refuses a request (R142). -/
def PeReq.refused (r : PeReq) (p : Pestat) : Bool :=
  decide (r.count = 0) || decide ((if r.clusters then 4 else 192) < r.count) || r.cmask == 0 || p.busy

/-- PEREQ_SUBMIT: a write of PEREQ (R142). -/
def execPereqSubmit (die : Nat) (v : BitVec 32) (s : State) : Host.Outcome State Fault Refusal :=
  if 8 ≤ die ∨ !v.getLsbD 18 then .next s
  else
    let r := pereqOf v
    if r.refused (s.pestatOf die r.id) then .next s.writeError
    else .next ((s.onPestat die r.id (fun _ => ⟨.queued, false, 0⟩)).onDisp die (fun d => { d with reqs := d.reqs ++ [r] }))

/-- The request that a DIEOFF of a compute die enters: all clusters, above every priority, with no time limit (R148). -/
def dieoffReq : PeReq :=
  { id := 4, count := 4, clusters := true, prio := 8, cmask := 15, tout := 0, start := 0, victims := [], saved := [], dieoff := true
    begun := false, late := false }

/-- The request that starts next: none while one is in service; a DIEOFF first, then the highest PRIO, then the first to come. -/
def State.nextRequest (s : State) (die : Nat) : Option PeReq :=
  let rs := (s.dispatcher die).reqs
  if rs.any (fun r => r.begun) then none else leastBy (fun r => (if r.dieoff then 0 else 8 - r.prio, 0)) rs

/-! ## Victims (R144) -/

/-- Stable sorting by a key, least first. -/
def insertBy {α : Type} (key : α → Nat × Nat) (x : α) : List α → List α
  | [] => [x]
  | y :: t =>
    if (key x).1 < (key y).1 ∨ ((key x).1 = (key y).1 ∧ (key x).2 ≤ (key y).2) then x :: y :: t else y :: insertBy key x t

/-- See `insertBy`. -/
def sortBy {α : Type} (key : α → Nat × Nat) (xs : List α) : List α := xs.foldr (insertBy key) []

/-- The bundles on a core: slot and bundle. -/
def State.residents (s : State) (die core : Nat) : List (Nat × Bundle) := (s.core ⟨die, core⟩).bundles

/-- Whether a core is reserved. -/
def State.reservedCore (s : State) (die core : Nat) : Bool := (s.dispatcher die).reserved.any (fun r => decide (r.1 = core))

/-- Whether a core is eligible for a request (R144 step 1). -/
def State.eligible (s : State) (die : Nat) (r : PeReq) (core : Nat) : Bool :=
  r.cmask.getLsbD (core / 48) && (r.dieoff || !s.reservedCore die core) && (r.dieoff || (s.residents die core).all (fun p => decide (p.2.prio < r.prio)))

/-- The key of a core: the highest priority on it, an empty core first; then the latest placement, latest first. -/
def State.coreKey (s : State) (die core : Nat) : Nat × Nat :=
  let bs := s.residents die core
  (bs.foldl (fun m p => Nat.max m (p.2.prio + 1)) 0, s.time - bs.foldl (fun m p => Nat.max m p.2.placedAt) 0)

/-- The key of a cluster, over its cores. -/
def State.clusterKey (s : State) (die k : Nat) : Nat × Nat :=
  ((List.range 48).map (fun c => s.coreKey die (48 * k + c))).foldl (fun m x => (Nat.max m.1 x.1, Nat.min m.2 x.2)) (0, s.time)

/-- The units of a request in rank order, each as its cores. -/
def State.rankedUnits (s : State) (die : Nat) (r : PeReq) : List (List Nat) :=
  if r.clusters then
    let ks := (List.range 4).filter (fun k => (List.range 48).all (fun c => s.eligible die r (48 * k + c)))
    (sortBy (s.clusterKey die) ks).map (fun k => (List.range 48).map (fun c => 48 * k + c))
  else (sortBy (s.coreKey die) ((List.range 192).filter (s.eligible die r))).map (fun c => [c])

/-- The members of a bundle's spread on its die: core and slot. -/
def State.spreadOf (s : State) (die : Nat) (v : Bundle) : List (Nat × Nat) :=
  (s.cores.filter (fun c => decide (c.1.die = die))).flatMap (fun c =>
    (c.2.bundles.filter (fun p => decide (p.2.spread = v.spread))).map (fun p => (c.1.core, p.1)))

/-- The victims that a set of cores gives: its bundles, the members of their spreads, and what else may be vacated on those
members' cores (R144 step 3); `n` bounds the rounds. -/
def State.victimClosure (s : State) (die : Nat) (r : PeReq) : Nat → List Nat → List Nat
  | 0, cores => cores
  | n + 1, cores =>
    let more := (cores.flatMap (fun c =>
      ((s.residents die c).filter (fun p => r.dieoff || decide (p.2.prio < r.prio))).flatMap (fun p => (s.spreadOf die p.2).map Prod.fst))).eraseDups
    let new := more.filter (fun c => !cores.contains c)
    if new.isEmpty then cores else s.victimClosure die r n (cores ++ new)

/-- The victim bundles of a set of cores: those below PRIO, and members of a spread that has a victim. -/
def State.victimsOf (s : State) (die : Nat) (r : PeReq) (cores : List Nat) : List (Nat × Nat) :=
  let low := cores.flatMap (fun c => ((s.residents die c).filter (fun p => r.dieoff || decide (p.2.prio < r.prio))).map (fun p => (c, p.1)))
  (low ++ low.flatMap (fun v => s.spreadOf die (s.bundleAt ⟨die, v.1⟩ v.2))).eraseDups

/-- The bytes that saving bundles takes of the shadow store. -/
def State.saveBytes (s : State) (die : Nat) (vs : List (Nat × Nat)) : Nat :=
  vs.foldl (fun n v => n + (s.capture ⟨die, v.1⟩ v.2).image.length) 0

/-- The units that share no victim's spread with the last one, which goes with its spreads (R144 step 4). -/
def State.dropUnit (s : State) (die : Nat) (r : PeReq) (us : List (List Nat)) : List (List Nat) :=
  let gone := s.victimClosure die r 48 (us.getLast?.getD [])
  us.dropLast.filter (fun u => !u.any (fun c => gone.contains c))

/-- The cores of the units kept: from the end of the ranking units are given up, each with its spreads, until what must be saved fits
(R144 step 4). -/
def State.fitUnits (s : State) (die : Nat) (r : PeReq) : Nat → List (List Nat) → List Nat
  | 0, _ => []
  | n + 1, us =>
    let cores := s.victimClosure die r 48 us.flatten.eraseDups
    if r.dieoff || decide (s.shadowUsed die + s.saveBytes die (s.victimsOf die r cores) ≤ shadowSize) then cores
    else s.fitUnits die r n (s.dropUnit die r us)

/-- The units taken from the top of the ranking until COUNT of them are reached. -/
def State.takenUnits (s : State) (die : Nat) (r : PeReq) : List (List Nat) := (s.rankedUnits die r).take r.count

/-! ## Reservations and the end of a request (R147) -/

/-- A core vacated: it is reserved where no bundle remains on it, and counted. -/
def State.reserve (s : State) (die : Nat) (r : PeReq) (core : Nat) : State :=
  if r.dieoff || !(s.residents die core).isEmpty || s.reservedCore die core then s
  else (s.onDisp die (fun d => { d with reserved := d.reserved ++ [(core, r.prio, none)] })).onPestat die r.id
    (fun p => { p with got := p.got + 1 })

/-- A request of a die replaced, or where none is given dropped. -/
def State.setRequest (s : State) (die : Nat) (r : PeReq) (new : Option PeReq) : State :=
  s.onDisp die (fun d => { d with reqs := d.reqs.filterMap (fun (x : PeReq) => if x.id = r.id then new else some x) })

/-- A request ends: its status, and the time from which its reservations run out. -/
def State.endRequest (s : State) (die : Nat) (r : PeReq) (st : PeStage) : State :=
  let s := s.setRequest die r none
  let s := s.onDisp die (fun d => { d with reserved := d.reserved.map (fun (x : Nat × Nat × Option Nat) => (x.1, x.2.1, x.2.2.or (some s.time))) })
  s.onPestat die r.id (fun p => { p with st := st })

/-- A request with no victim left ends DONE, or LATE. -/
def State.endIfDone (s : State) (die : Nat) (r : PeReq) : State :=
  if r.victims.isEmpty then s.endRequest die r (if r.late then .late else .done) else s.setRequest die r (some r)

/-! ## Work of a die in DRAIN (R135, R148, R149) -/

/-- The lowest die that takes work but one; none where there is no other. -/
def State.otherDie (s : State) (die : Nat) : Option Nat := (List.range 8).find? (fun d => decide (d ≠ die) && s.takesWork d)

/-- Saved contexts of a grid's element moved to the place where it is ready again (R148). -/
def State.moveSaved (s : State) (frm dest gid elem : Nat) : State :=
  { s with shadow := s.shadow.map (fun (v : Saved) =>
      if v.die = frm ∧ v.bundle.grid = gid ∧ v.bundle.element = elem then { v with die := dest, far := true } else v) }

/-- Whether an item is an element that had been placed before: saved, handed back, or of another dispatcher's grid. -/
def Grid.placedBefore (g : Grid) (die : Nat) (i : Item) : Bool := i.saved || decide (g.disp ≠ die) || decide (i.element < g.nextElem)

/-- Where an item of a draining die is ready again: a device queue's at the global dispatcher; a die queue's element that had been placed
at another die; a die queue's new work waits for DIEON (R135, R148, R149). -/
def State.drainHome (s : State) (die : Nat) (i : Item) : Nat :=
  match s.grid? i.grid with
  | some g => if g.disp = 20 then 20 else if g.placedBefore die i then (s.otherDie die).getD die else die
  | none => die

/-- An item of a draining die moved. -/
def State.drainItem (s : State) (die : Nat) (i : Item) : State :=
  let d := s.drainHome die i
  let s := if i.saved then s.moveSaved die d i.grid i.element else s
  s.onDisp d (fun q => { q with items := q.items ++ [i] })

/-- The unplaced work of a draining die moved. -/
def State.drainItems (s : State) (die : Nat) : State :=
  let is := (s.dispatcher die).batch ++ (s.dispatcher die).items
  let s := s.onDisp die (fun d => { d with batch := [], items := [] })
  is.foldl (fun s i => s.drainItem die i) s

/-! ## Starting (R144, R145 step 1) -/

/-- A victim that has not begun on its core is ready again at once. -/
def State.withdrawUnbegun (s : State) (die : Nat) (vs : List (Nat × Nat)) : State :=
  vs.foldl (fun s v =>
    match lookup? v.2 (s.core ⟨die, v.1⟩).bundles with
    | some b => if b.begun then s else s.withdraw ⟨die, v.1⟩ v.2
    | none => s) s

/-- The victims that are there, halted. -/
def State.haltVictims (s : State) (die id : Nat) (vs : List (Nat × Nat)) : State :=
  vs.foldl (fun s v => s.haltBundle ⟨die, v.1⟩ v.2 (.save id)) s

/-- PREEMPT_START: the next request of a die starts (R143, R144). -/
def execPreemptStart (die : Nat) (s : State) : Host.Outcome State Fault Refusal :=
  match s.nextRequest die with
  | none => .next s
  | some r =>
    let us := s.takenUnits die r
    let cores := s.fitUnits die r (us.length + 1) us
    let trimmed := !r.dieoff && us.flatten.any (fun c => !cores.contains c)
    let s := s.onPestat die r.id (fun p => { p with trim := trimmed })
    if cores.isEmpty then .next (s.endRequest die r (if r.dieoff then .done else .none))
    else
      let vs := s.victimsOf die r cores
      let s := s.withdrawUnbegun die vs
      let s := if r.dieoff then s.drainItems die else s
      let vs := vs.filter (fun v => (lookup? v.2 (s.core ⟨die, v.1⟩).bundles).isSome)
      let s := cores.foldl (fun s c => s.reserve die r c) s
      let r := { r with begun := true, start := s.time, victims := vs }
      let s := s.onPestat die r.id (fun p => { p with st := .halting })
      .next ((s.haltVictims die r.id vs).endIfDone die r)

/-! ## Saving (R145, R146) -/

/-- The request in service at a die. -/
def State.inService (s : State) (die : Nat) : Option PeReq := (s.dispatcher die).reqs.find? (fun r => r.begun)

/-- Whether a victim bundle, with all members of its spread, has wholly halted. -/
def State.whollyHalted (s : State) (die : Nat) (v : Nat × Nat) : Bool :=
  (s.spreadOf die (s.bundleAt ⟨die, v.1⟩ v.2)).all (fun m => s.bundleHalted ⟨die, m.1⟩ m.2)

/-- BUNDLE_SAVE: victim k of the request in service, wholly halted and drained, is written to the shadow store (R145). -/
def execBundleSave (die k : Nat) (s : State) : Host.Outcome State Fault Refusal :=
  match s.inService die with
  | none => .next s
  | some r =>
    match nth? r.victims k with
    | none => .next s
    | some v =>
      let c : CoreId := ⟨die, v.1⟩
      if (lookup? v.2 (s.core c).bundles).isNone || r.saved.contains v || s.restoring c v.2 || !s.whollyHalted die v || !s.bundleDrained c v.2 then .next s
      else
        let x := s.capture c v.2
        let x := { x with far := decide (shadowSize < s.shadowUsed die + x.image.length) }
        let s := { s with shadow := s.shadow ++ [x] }
        let s := s.setRequest die r (some { r with saved := r.saved ++ [v] })
        if r.victims.all (fun v => s.whollyHalted die v) then .next (s.onPestat die r.id (fun p => { p with st := .saving })) else .next s

/-- The dispatcher at which a saved element is ready again: its own die's; on DIEOFF the global one, or for work of a die queue
another die's (R147, R148). -/
def State.savedHome (s : State) (die : Nat) (r : PeReq) (gid : Nat) : Nat :=
  if r.dieoff then
    (match s.grid? gid with
      | some g => if g.disp = 20 then 20 else (s.otherDie die).getD die
      | none => die)
  else die

/-- A saved element ready again, once every member of it has been saved: with its priority and its grid's acceptance time. -/
def State.readySaved (s : State) (die : Nat) (r : PeReq) (v : Bundle) : State :=
  if (s.spreadOf die v).isEmpty && (match s.grid? v.grid with | some g => g.fatal.isNone | none => false) then
    let d := s.savedHome die r v.grid
    let s := { s with shadow := s.shadow.map (fun (x : Saved) =>
      if x.die = die ∧ x.bundle.grid = v.grid ∧ x.bundle.element = v.element then { x with die := d, far := x.far || r.dieoff } else x) }
    s.onDisp d (fun q => { q with items := q.items ++ [⟨v.grid, v.element, true, s.time, v.prio, v.prio⟩] })
  else s

/-- A victim gone from its core: the core is vacated where no other victim is left on it. -/
def State.vacate (s : State) (die : Nat) (r : PeReq) (v : Nat × Nat) : State :=
  let r := { r with victims := r.victims.erase v, saved := r.saved.erase v }
  let s := if r.victims.any (fun x => decide (x.1 = v.1)) then s else s.reserve die r v.1
  s.endIfDone die r

/-- SAVE_DONE: the context of victim k is in the shadow store; its share is released. A victim whose bundle has exited counts as
vacated (R146, R149). -/
def execSaveDone (die k : Nat) (s : State) : Host.Outcome State Fault Refusal :=
  match s.inService die with
  | none => .next s
  | some r =>
    match nth? r.victims k with
    | none => .next s
    | some v =>
      let c : CoreId := ⟨die, v.1⟩
      match lookup? v.2 (s.core c).bundles with
      | none => .next (s.vacate die r v)
      | some b => if r.saved.contains v then .next ((((s.keepSpread c b).leaveCore c v.2).readySaved die r b).vacate die r v) else .next s

/-- PREEMPT_TIMEOUT: TOUT has expired; victims that have not wholly halted resume, and the request ends LATE once the others are
saved (R145). -/
def execPreemptTimeout (die : Nat) (s : State) : Host.Outcome State Fault Refusal :=
  match s.inService die with
  | none => .next s
  | some r =>
    if r.tout = 0 ∨ r.late ∨ s.time < r.start + 10 * r.tout * microsecond then .next s
    else
      let out := r.victims.filter (fun v => (lookup? v.2 (s.core ⟨die, v.1⟩).bundles).isSome && !s.whollyHalted die v)
      if out.isEmpty then .next s
      else
        let s := out.foldl (fun s v => s.resumeBundle ⟨die, v.1⟩ v.2) s
        .next (s.endIfDone die { r with late := true, victims := r.victims.filter (fun v => !out.contains v) })

/-- RESERVATION_LAPSE: 100 µs after its request ended a core's reservation lapses (R147). -/
def execReservationLapse (die core : Nat) (s : State) : Host.Outcome State Fault Refusal :=
  .next (s.onDisp die (fun d => { d with reserved := d.reserved.filter (fun (x : Nat × Nat × Option Nat) =>
    !(decide (x.1 = core) && (match x.2.2 with | some t => decide (t + 100 * microsecond ≤ s.time) | none => false))) }))

/-! ## Restoring (R147) -/

/-- CONTEXT_RESTORE_DONE: context k has been read back on to its new core, whose bundle has begun (R147). -/
def execContextRestoreDone (die k : Nat) (s : State) : Host.Outcome State Fault Refusal :=
  match nth? s.shadow k with
  | none => .next s
  | some v =>
    match v.restoring with
    | none => .next s
    | some (core, b) =>
      if v.die ≠ die ∨ !(s.bundleAt ⟨die, core⟩ b).begun then .next s
      else .next ({ s with shadow := removeNth s.shadow k }.restoreContext v ⟨die, core⟩ b (!v.far))

end Sys2Proof.Machine
end

