-- ==== Sys2Proof/Machine/Dump.lean ====
section
/-! DEFINITION. Halt and core dump (R263 to R265): the broadcast, forced halts, and the dump that ends a grid. -/

namespace Sys2Proof.Machine

/-! ## The halt broadcast (R263 steps 2 and 3) -/

/-- A grid's unplaced work discarded at a dispatcher. -/
def State.discardItems (s : State) (disp gid : Nat) : State :=
  s.onDisp disp (fun d => { d with
    items := d.items.filter (fun (i : Item) => decide (i.grid ≠ gid)), batch := d.batch.filter (fun (i : Item) => decide (i.grid ≠ gid)) })

/-- The bundles of a grid on a die: core and slot. -/
def State.gridBundles (s : State) (die gid : Nat) : List (CoreId × Nat) :=
  (s.cores.filter (fun c => decide (c.1.die = die))).flatMap (fun c =>
    (c.2.bundles.filter (fun p => decide (p.2.grid = gid))).map (fun p => (c.1, p.1)))

/-- HALT_BROADCAST: the broadcast for a grid reaches a die (R263). Bundles placed and not begun are unplaced again. -/
def execHaltBroadcast (die grid : Nat) (s : State) : Host.Outcome State Fault Refusal :=
  match s.grid? grid with
  | none => .next s
  | some g =>
    match g.fatal with
    | none => .next s
    | some f =>
      if 8 ≤ die ∨ g.gone ∨ f.reached.any (fun p => decide (p.1 = die)) then .next s
      else
        let s := s.setGrid grid { g with fatal := some { f with reached := f.reached ++ [(die, s.time)] } }
        let s := (s.gridBundles die grid).foldl (fun s m =>
          match lookup? m.2 (s.core m.1).bundles with
          | some b => if b.begun then s.haltBundle m.1 m.2 (.fatal grid) else s.withdraw m.1 m.2
          | none => s) s
        .next ((s.discardItems die grid).discardItems g.disp grid)

/-- Whether a thread stands at a run boundary where a forced halt may land. -/
def Thread.forceable (th : Thread) : Bool :=
  (decide (th.st = .ready) || decide (th.st = .blocked) || decide (th.st = .fetchWait)) && !th.fired

/-- HALT_FORCE_TIMEOUT: 10 µs after the broadcast reached a die, threads that stand at a run boundary halt; the others do at their
next (R263 step 3). -/
def execHaltForceTimeout (die grid : Nat) (s : State) : Host.Outcome State Fault Refusal :=
  if !s.forcedHalt grid die then .next s
  else
    let xs := (s.gridBundles die grid).flatMap (fun m => (s.warpsOf m.1 m.2).flatMap (fun w =>
      if (s.warp w).halt = some (.fatal grid) then w.threads.filter (fun x => (s.thread x).forceable) else []))
    if xs.isEmpty then .next s else .next ((xs.foldl (fun s x => s.haltThread x) s).markForced grid)

/-! ## The dump (R264) -/

/-- Everything of a grid that its dump takes: the contexts of resident bundles and those saved, in ascending bundle number. -/
def State.dumpContexts (s : State) (gid : Nat) : List Saved :=
  let here := (List.range 8).flatMap (fun d => (s.gridBundles d gid).map (fun m => s.capture m.1 m.2))
  let kept := s.shadow.filter (fun v => decide (v.bundle.grid = gid))
  sortBy (fun v => (v.bundle.bn, 0)) (here ++ kept)

/-- The first images that fit in an area after its header, and whether one did not (R264). -/
def fitImages (room : Nat) : List (List Byte) → List (List Byte) × Bool
  | [] => ([], false)
  | x :: t =>
    if room < x.length then ([], true)
    else
      let r := fitImages (room - x.length) t
      (x :: r.1, r.2)

/-- Bytes written sector by sector from an address that is a multiple of 64; what fails is left out, and said. -/
def State.writeArea (s : State) (site pa : Nat) : Nat → List Byte → Except Nat (State × Bool)
  | 0, _ => .ok (s, false)
  | n + 1, bs =>
    if bs.isEmpty then .ok (s, false)
    else
      match s.physWrite site 0 pa (bs.take 64) with
      | .error (.wait sec _) => .error sec
      | .error (.fault _) => (s.writeArea site (pa + 64) n (bs.drop 64)).map (fun r => (r.1, true))
      | .ok t => t.writeArea site (pa + 64) n (bs.drop 64)

/-- The header of a dump (R264). -/
def dumpHeader (g : Grid) (f : Fatal) (written bundles length : Nat) (trunc werr : Bool) : List Byte :=
  let second := match f.secondFirst with
    | some r => [r.1.cls, r.1.sub, r.2.1, r.2.2.2.1, r.2.2.2.2].flatMap (bytesOfNat 1) ++ zeroBytes 7 ++ bytesOfNat 8 r.2.2.1 ++ bytesOfNat 8 r.1.addr.toNat
    | none => zeroBytes 28
  bytesOfNat 4 0x504D5544 ++ bytesOfNat 2 1 ++ bytesOfNat 2 128 ++ bytesOfNat 8 (recCode g.record).toNat ++
  bytesOfNat 8 (recFrame g.record).toNat ++ bytesOfNat 8 f.time ++
  [f.trap.cls, f.trap.sub, f.trap.allFlags.toNat, f.die].flatMap (bytesOfNat 1) ++ bytesOfNat 8 f.bn ++ bytesOfNat 1 f.wp ++
  bytesOfNat 1 f.lane ++ zeroBytes 2 ++ bytesOfNat 4 f.lsp.toNat ++ bytesOfNat 2 f.rsp.toNat ++ zeroBytes 2 ++
  bytesOfNat 4 f.recn.toNat ++ zeroBytes 4 ++ bytesOfNat 8 f.trap.addr.toNat ++ bytesOfNat 4 written ++ bytesOfNat 4 bundles ++
  bytesOfNat 4 f.second ++ second ++ bytesOfNat 1 (bit trunc + 2 * bit f.forced + 4 * bit f.dbl + 8 * bit werr) ++ zeroBytes 7 ++
  bytesOfNat 8 length

/-- PA of a queue's dump area. -/
def Queue.dumpPa (q : Queue) : Nat := (q.dumpHi ++ q.dumpLo).toNat / 128 * 128

/-- The dump written, images first and the header's two sectors after them, so that WERR tells of every write that failed before its own:
the state, its address and its length; or the sector that must come to rest first. -/
def State.writeDump (s : State) (g : Grid) (f : Fatal) (gid : Nat) : Except Nat (State × Nat × Nat) :=
  let q := s.queue g.disp g.queueNo
  let size := q.dumpSize.toNat * 4096
  if size = 0 then .ok (s, 0, 0)
  else
    let ctxs := s.dumpContexts gid
    let images := ctxs.map Saved.image
    let fit := fitImages (size - 128) images
    let body := fit.1.flatten
    match s.writeArea g.disp (q.dumpPa + 128) (body.length / 64 + 1) body with
    | .error e => .error e
    | .ok r =>
      let head (werr : Bool) : List Byte := dumpHeader g f fit.1.length ctxs.length (128 + body.length) fit.2 werr
      match r.1.writeArea g.disp q.dumpPa 2 ((head (f.werr || r.2)).take 64) with
      | .error e => .error e
      | .ok h =>
        match h.1.writeArea g.disp (q.dumpPa + 64) 2 ((head (f.werr || r.2 || h.2)).drop 64) with
        | .error e => .error e
        | .ok t =>
          let t' := t.1.onGrid gid (fun g => { g with fatal := g.fatal.map (fun (x : Fatal) => { x with werr := f.werr || r.2 || h.2 || t.2 }) })
          .ok (t', q.dumpPa, 128 + body.length)

/-- Whether a grid that is ending is ready for its dump: nothing of it waits for a place, no save of it is under way, and its
resident bundles have halted and drained. -/
def State.dumpReady (s : State) (gid : Nat) (f : Fatal) : Bool :=
  s.disp.all (fun d => d.2.ready.all (fun (i : Item) => decide (i.grid ≠ gid))) &&
  (List.range 8).all (fun d =>
    let ms := s.gridBundles d gid
    (ms.isEmpty || f.reached.any (fun p => decide (p.1 = d))) &&
    ms.all (fun m => s.bundleHalted m.1 m.2 && s.bundleDrained m.1 m.2 &&
      !(s.dispatcher d).reqs.any (fun r => r.begun && r.victims.contains (m.1.core, m.2))))

/-- Every bundle of a grid leaves, and its saved contexts go. -/
def State.dropGrid (s : State) (gid : Nat) : State :=
  let s := (List.range 8).foldl (fun s d => (s.gridBundles d gid).foldl (fun s m =>
    let v := s.bundleAt m.1 m.2
    (s.leaveCore m.1 m.2).dropMonitors m.1 v.spread) s) s
  let s := { s with shadow := s.shadow.filter (fun v => decide (v.bundle.grid ≠ gid)) }
  s.onGrid gid (fun g => { g with gone := true })

/-- The event of a fatal halt (R263 step 6). -/
def dumpDetail (addr len : Nat) (t : Trap) : BitVec 128 := BitVec.ofNat 128 (packBits [(64, addr), (32, len), (8, t.cls), (8, t.sub)])

/-- DUMP_WRITE: the dump, the broken chit, the event, and the bundles leave (R263 steps 5 to 7). -/
def execDumpWrite (grid : Nat) (s : State) : Host.Outcome State Fault Refusal :=
  match s.grid? grid with
  | none => .next s
  | some g =>
    match g.fatal with
    | none => .next s
    | some f =>
      if g.gone || !s.dumpReady grid f then .next s
      else
        match s.writeDump g f grid with
        | .error sec => .next (s.await g.disp sec true)
        | .ok (s, addr, len) =>
          let s := if recChv g.record then s.endChit g (brokenRec 1 f.trap.cls (recChit g.record)) true else s
          .next ((s.raiseEvent 0x0A g.disp (dumpDetail addr len f.trap)).dropGrid grid)

end Sys2Proof.Machine
end

