-- ==== Sys2Proof/Machine/Observe.lean ====
section
/-! DEFINITION. Debug stops as a register sets them (R260), and the sample ring: samples, period changes and tile stamp records
(R266 to R269, R424). -/

namespace Sys2Proof.Machine

/-- The observation registers of a die changed. -/
def State.onObs (s : State) (die : Nat) (f : Observe → Observe) : State := s.onDie die (fun d => { d with obs := f d.obs })

/-! ## Debug stops (R260) -/

/-- DBGCTL written: threads of the address space that stand at a stop position take class 12, where STOP is set; once it is cleared, it may
stop anew those that it had stopped. -/
def State.writeDbgctl (s : State) (die : Nat) (v : BitVec 32) : State :=
  let s := s.onObs die (fun o => { o with stop := v.getLsbD 0, bpen := v.getLsbD 1, dbgAsid := v.extractLsb' 2 8 })
  let s := if v.getLsbD 0 then s else { s with
    threads := s.threads.map (fun p => if p.1.warp.die = die then (p.1, { p.2 with stopped := false }) else p) }
  (s.threads.filter (fun p => decide (p.1.warp.die = die) && p.2.atStop && s.debugStops p.1 false)).foldl (fun s p => s.debugStop p.1) s

/-- DEBUG_STOP_SET: DBGCTL written with STOP set (R260). -/
def execDebugStopSet (die : Nat) (v : BitVec 32) (s : State) : Host.Outcome State Fault Refusal :=
  if 8 ≤ die ∨ !v.getLsbD 0 then .next s else .next (s.writeDbgctl die v)

/-! ## The ring (R266) -/

/-- Whether sampling or tile stamps are on, so that BASE, SZ and PER ignore writes. -/
def Observe.locked (o : Observe) : Bool := o.en || o.tsen

/-- SMPCTL written: PER outside 10 to 24 is refused; PER is ignored while EN or TSEN is 1, and sets CUR. -/
def State.writeSmpctl (s : State) (die : Nat) (v : BitVec 32) : State :=
  let per := v.extractLsb' 2 5
  if per.toNat < 10 ∨ 24 < per.toNat then s.writeError
  else s.onObs die (fun o =>
    let o := if o.locked then o else { o with per := per, cur := per }
    { o with en := v.getLsbD 0, tsen := v.getLsbD 1 })

/-- SMPCTL_WRITE (R266). -/
def execSmpctlWrite (die : Nat) (v : BitVec 32) (s : State) : Host.Outcome State Fault Refusal :=
  if 8 ≤ die then .next s else .next (s.writeSmpctl die v)

/-- Records written and not consumed: PI − CI modulo 2^32. -/
def Observe.fill (o : Observe) : Nat := (o.pi - o.ci).toNat

/-- Records the ring holds. -/
def Observe.size (o : Observe) : Nat := 2 ^ o.log.toNat

/-- Whether the ring has no room. -/
def Observe.full (o : Observe) : Bool := decide (o.size ≤ o.fill)

/-- A record dropped: DROP saturates. -/
def Observe.dropOne (o : Observe) : Observe := { o with lost := if o.lost = 0xFFFFFFFF then o.lost else o.lost + 1 }

/-- Where record PI goes. -/
def Observe.nextPa (o : Observe) : Nat := (o.base.toNat / 64 * 64 + 32 * (o.pi.toNat % o.size)) % 2 ^ 44

/-- A record of 32 bytes put at PI of a die's ring; none where its sector must come to rest first. A record whose address cannot be
reached is lost. -/
def State.ringPut (s : State) (die : Nat) (x : Nat) : Except Nat State :=
  let o := (s.die die).obs
  match s.physWrite die 0 o.nextPa (bytesOfNat 32 x) with
  | .ok t => .ok (t.onObs die (fun o => { o with pi := o.pi + 1 }))
  | .error (.fault _) => .ok s
  | .error (.wait sec _) => .error sec

/-- A record written, or dropped and counted where the ring is full. -/
def State.ringWrite (s : State) (die : Nat) (x : Nat) : Except Nat State :=
  if (s.die die).obs.full then .ok (s.onObs die Observe.dropOne) else s.ringPut die x

/-- The part that opens every record of a warp (R267). -/
def recordHead (ty : Nat) (w : WarpId) (bn time : Nat) : List (Nat × Nat) :=
  [(8, ty), (8, w.die), (8, w.core), (2, w.part), (4, w.slot), (2, 0), (32, bn), (64, time)]

/-! ## Samples (R267) -/

/-- What a sample says of a warp: state, ROFF, RSP, LSP, members. -/
structure SampleOf where
  state : Nat
  roff : Nat
  rsp : BitVec 16
  lsp : BitVec 32
  members : Nat
  deriving DecidableEq, Repr

/-- A set of lanes as bits. -/
def lanesBits (ls : List Nat) : Nat := (List.range 32).foldl (fun m l => if ls.contains l then m + 2 ^ l else m) 0

/-- STATE of a thread outside formed groups, of those that have not exited. -/
def Thread.sampleState (th : Thread) : Nat :=
  match th.st with
  | .blocked => (match th.wait with | some (.parked _) => 6 | _ => 2)
  | .fetchWait => 3
  | .halted => 5
  | _ => 4

/-- Bit 7 of STATE: handler mode. -/
def Thread.sampleHm (th : Thread) : Nat := if th.hm then 0x80 else 0

/-- The groups that hold a thread of a warp. -/
def State.groupsOf (s : State) (w : WarpId) : List (GroupKey × Group) :=
  s.groups.filter (fun p => (membersOf p.1 p.2).any (fun m => decide (m.2.warp = w)))

/-- The sample of a formed group: ISSUE or STALL is open for one whose run has arrived. -/
def State.sampleGroup (s : State) (w : WarpId) (g : GroupKey × Group) : SampleOf :=
  let ms := (membersOf g.1 g.2).filter (fun m => decide (m.2.warp = w))
  let th := match ms with | m :: _ => s.thread m.2 | [] => Thread.reset
  { state := (if g.2.fetched then bit (Config.freeBool s.openVals) else 3) + th.sampleHm
    roff := if g.2.fetched then g.2.next else 0xFF
    rsp := th.rsp, lsp := th.lsp, members := lanesBits (ms.map Prod.fst) }

/-- ROFF of a thread that is in no formed group: its next run's first instruction, but for FETCHWAIT. -/
def Thread.sampleRoff (th : Thread) : Nat := if th.st = .fetchWait then 0xFF else 0

/-- The sample of a warp. -/
def State.sampleWarp (s : State) (w : WarpId) : SampleOf :=
  match leastBy (fun (g : GroupKey × Group) => (g.2.formedAt, g.1.port * 4 + g.1.buf)) (s.groupsOf w) with
  | some g => s.sampleGroup w g
  | none =>
    match s.lowestLive w with
    | none =>
      let th := s.thread ⟨w, 0⟩
      { state := 7 + th.sampleHm, roff := 0xFF, rsp := th.rsp, lsp := th.lsp, members := 0xFFFFFFFF }
    | some l =>
      let th := s.thread ⟨w, l⟩
      let same := (List.range 32).filter (fun k => decide ((s.thread ⟨w, k⟩).pc = th.pc) && decide ((s.thread ⟨w, k⟩).st = th.st))
      { state := th.sampleState + th.sampleHm, roff := th.sampleRoff, rsp := th.rsp, lsp := th.lsp, members := lanesBits same }

/-- The sample record of a warp. -/
def State.sampleRecord (s : State) (w : WarpId) : Nat :=
  let x := s.sampleWarp w
  packBits (recordHead 1 w (s.bundle w).bn s.time ++ [(8, x.state), (8, x.roff), (16, x.rsp.toNat), (32, x.lsp.toNat), (32, x.members)])

/-- The next occupied slot of a partition at or after a slot, in rotation. -/
def State.nextOccupied (s : State) (c : CoreId) (part first : Nat) : Option Nat :=
  ((List.range 16).map (fun i => (first + i) % 16)).find? (fun k => (lookup? ⟨c.die, c.core, part, k⟩ s.warps).isSome)

/-- The sampler of a core past its sample of a partition: the next slot of that partition, the next partition. -/
def Core.sampledOf (c : Core) (part : Nat) (slot : Option Nat) (now : Nat) : Core :=
  let ptrs := match slot with
    | some k => (List.range 4).map (fun p => (4, if p = part then (k + 1) % 16 else bitsAt c.sampleSlot (4 * p) 4))
    | none => (List.range 4).map (fun p => (4, bitsAt c.sampleSlot (4 * p) 4))
  { c with samplePart := (part + 1) % 4, sampleSlot := packBits ptrs, sampledAt := now }

/-- A core's sample of one partition (R267). -/
def State.sampleCore (s : State) (c : CoreId) : Except Nat State :=
  let k := s.core c
  let part := k.samplePart % 4
  let slot := s.nextOccupied c part (bitsAt k.sampleSlot (4 * part) 4)
  let r : Except Nat State := match slot with
    | none => .ok s
    | some w => { s with openVals := s.openVals + 1 }.ringWrite c.die (s.sampleRecord ⟨c.die, c.core, part, w⟩)
  r.map (fun s => s.onCore c (fun k => k.sampledOf part slot s.time))

/-! ## The period (R268) -/

/-- The exponent that the fill of the ring asks for. -/
def Observe.nextCur (o : Observe) : BitVec 5 :=
  if 3 * o.size < 4 * o.fill ∧ o.cur.toNat < 24 then o.cur + 1
  else if 4 * o.fill < o.size ∧ o.per.toNat < o.cur.toNat then o.cur - 1
  else o.cur

/-- A TYPE 3 record: the common part, of which the manual states no core, partition, slot or bundle, then both periods; it states nothing
beyond byte 17. -/
def periodRecord (die old new time : Nat) (open1 open2 : BitVec 64) : BitVec 256 :=
  BitVec.ofNat 256 (packBits [(8, 3), (8, die), (14, open1.toNat), (2, 0), (32, open1.toNat / 2 ^ 14), (64, time), (8, old), (8, new), (64, open2.toNat),
    (48, open1.toNat / 2 ^ 16)])

/-- The period compared with the ring's fill: a change waits as a TYPE 3 record. -/
def State.adaptPeriod (s : State) (die : Nat) : State :=
  let o := (s.die die).obs
  if o.nextCur = o.cur then s
  else
    let r := periodRecord die o.cur.toNat o.nextCur.toNat s.time (Config.freeBits s.openVals) (Config.freeBits (s.openVals + 1))
    { s with openVals := s.openVals + 2 }.onObs die (fun o => { o with cur := o.nextCur, pendingLog := o.pendingLog ++ [r] })

/-- SAMPLE_TICK: a core's sample of this period; the die's period is judged once, with its core 0 (R267, R268). -/
def execSampleTick (die core : Nat) (s : State) : Host.Outcome State Fault Refusal :=
  let o := (s.die die).obs
  let c : CoreId := ⟨die, core⟩
  if 8 ≤ die ∨ 192 ≤ core ∨ !o.en ∨ !o.pendingLog.isEmpty ∨ s.time < (s.core c).sampledAt + 2 ^ o.cur.toNat then .next s
  else
    match s.sampleCore c with
    | .error sec => .next (s.await die sec true)
    | .ok t => .next (if core = 0 then t.adaptPeriod die else t)

/-- PERIOD_LOG_WRITE: a waiting TYPE 3 record is written once the ring has room (R268). -/
def execPeriodLogWrite (die : Nat) (s : State) : Host.Outcome State Fault Refusal :=
  let o := (s.die die).obs
  match o.pendingLog with
  | [] => .next s
  | r :: rest =>
    if o.full then .next s
    else
      match s.ringPut die r.toNat with
      | .error sec => .next (s.await die sec true)
      | .ok t => .next (t.onObs die (fun o => { o with pendingLog := rest }))

/-! ## Tile stamp records (R269, R424) -/

/-- The engine operations of a warp that a close waits for: copies, gathers and matrix operations not yet retired. -/
def Warp.tileOps (w : Warp) : List Nat := (w.ops.filter (fun o => decide (o.cls ≤ 2))).map (fun o => o.id)

/-- TSR OPEN's effect. -/
def Warp.openStamp (w : Warp) (tag : BitVec 32) (now : Nat) : Warp :=
  if w.tsr.isSome then w else { w with tsr := some { tag := tag, t0 := now, t1 := none, t3 := now, owt := 0, ops := [] } }

/-- TSR CLOSE's effect. -/
def Warp.closeStamp (w : Warp) : Warp :=
  match w.tsr with
  | none => w
  | some r => { w with tsr := none, stamps := w.stamps ++ [{ r with ops := w.tileOps }] }

/-- TSR OPEN, once for the warp (R424). -/
def execTsrOpen (g : BitVec 4) (h : BitVec 1) (a : BitVec 7) (s : State) : Host.Outcome State Fault Refusal :=
  .next (runOnce (.tsrOpen g h a) (fun c => (c.word (fld a) 0).map (fun _ => ()))
    (fun l0 act => (l0.word (fld a) 0).map (fun v s => markNew act (
      if (s.die l0.tid.warp.die).obs.tsen then s.onWarp l0.tid.warp (fun w => w.openStamp v s.time) else s))) s)

/-- TSR CLOSE (R424). -/
def execTsrClose (g : BitVec 4) (h : BitVec 1) (a : BitVec 7) (s : State) : Host.Outcome State Fault Refusal :=
  .next (runOnce (.tsrClose g h a) (fun _ => .ok ())
    (fun l0 act => .ok (fun s => markNew act (
      if (s.die l0.tid.warp.die).obs.tsen then s.onWarp l0.tid.warp Warp.closeStamp else s))) s)

/-- A phase of a tile, saturated at 24 bits. -/
def phase24 (x : Nat) : Nat := Nat.min x 0xFFFFFF

/-- CIN, OWT, MCP and COUT of a record at T4 (R269). -/
def StampRec.phases (r : StampRec) (t4 : Nat) : List Nat :=
  match r.t1 with
  | none => [phase24 (t4 - r.t0), 0, 0, 0]
  | some t1 => [phase24 (t1 - r.t0), phase24 r.owt, phase24 (r.t3 - t1 - r.owt), phase24 (t4 - r.t3)]

/-- A tile stamp record as written. -/
def StampRec.record (r : StampRec) (w : WarpId) (bn t4 : Nat) : Nat :=
  packBits (recordHead 2 w bn t4 ++ [(32, r.tag.toNat)] ++ (r.phases t4).map (fun x => (24, x)))

/-- TILE_STAMP_WRITE: the oldest closed record of a warp whose operations have all retired is written (R269). -/
def execTileStampWrite (die core part slot : Nat) (s : State) : Host.Outcome State Fault Refusal :=
  let w : WarpId := ⟨die, core, part, slot⟩
  match (s.warp w).stamps with
  | [] => .next s
  | r :: rest =>
    if r.ops.any (fun i => (s.warp w).tileOps.contains i) then .next s
    else
      match s.ringWrite die (r.record w (s.bundle w).bn s.time) with
      | .error sec => .next (s.await die sec true)
      | .ok t => .next (t.onWarp w (fun v => { v with stamps := rest }))

end Sys2Proof.Machine
end

