-- ==== Sys2Proof/Machine/WeightStore.lean ====
section
/-! DEFINITION. Write access to a die's weight store, and its filling (R182, R183). -/

namespace Sys2Proof.Machine

/-- ACT: WREQ is 1 and no bundle is resident on the die (R183). -/
def State.weightAct (s : State) (die : Nat) : Bool :=
  (s.die die).wreq && s.cores.all (fun c => decide (c.1.die ≠ die) || c.2.bundles.isEmpty)

/-- WSCTL written (R183). -/
def State.writeWsctl (s : State) (die : Nat) (v : BitVec 32) : State := s.onDie die (fun d => { d with wreq := v.getLsbD 0 })

/-- WSCTL as read (R183). -/
def State.readWsctl (s : State) (die : Nat) : BitVec 32 := BitVec.ofNat 32 (bit (s.die die).wreq + 2 * bit (s.weightAct die))

/-- WSCTL_WREQ_SET (R183). -/
def execWsctlWreqSet (die : Nat) (s : State) : Host.Outcome State Fault Refusal :=
  if 8 ≤ die then .next s else .next (s.writeWsctl die 1)

/-- WSCTL_WREQ_CLEAR (R183). -/
def execWsctlWreqClear (die : Nat) (s : State) : Host.Outcome State Fault Refusal :=
  if 8 ≤ die then .next s else .next (s.writeWsctl die 0)

/-- n bytes of device memory from an address, each sector read once through a die's cache; or why they cannot be had. -/
def State.copyFrom (s : State) (die : Nat) : Nat → Nat → Nat → Except MemStop (List Byte)
  | 0, _, _ => .ok []
  | fuel + 1, pa, n =>
    if n = 0 then .ok []
    else
      let k := Nat.min n (64 - pa % 64)
      match s.physRead die 0 pa k with
      | .error e => .error e
      | .ok bs => (s.copyFrom die fuel (pa + k) (n - k)).map (fun t => bs ++ t)

/-- WEIGHT_STORE_FILL: the die manager copies bytes of device memory into the store while ACT is 1; else it is refused (R183). -/
def execWeightStoreFill (die off pa len : Nat) (s : State) : Host.Outcome State Fault Refusal :=
  if 8 ≤ die ∨ 0x20000000 < off + len then .next s
  else if !s.weightAct die then .next s.writeError
  else
    match s.copyFrom die (len / 64 + 2) pa len with
    | .error (.wait sec _) => .next (s.await die sec false)
    | .error (.fault _) => .next s
    | .ok bs => .next { s with weights := writeCells (weightKey die off) bs s.weights }

end Sys2Proof.Machine
end

