-- ==== Sys2Proof/Machine/Link.lean ====
section
/-! DEFINITION. Link receivers and senders: acceptance in order, replay, retraining and the loss of a link (R41 to R45, R74), and the
routers' forwarding (R9, R39, R40). -/

namespace Sys2Proof.Machine

/-! ## Error counts (R43) -/

/-- Whether a node is a router. -/
def isRouter (n : Nat) : Bool := decide (n < 22)

/-- A router's error register changed. -/
def State.onXerr (s : State) (r : Nat) (f : Xerr → Xerr) : State := if isRouter r then s.setXerr r (f (s.xerrOf r)) else s

/-- A field counted up to its largest value. -/
def satInc {n : Nat} (x : BitVec n) : BitVec n := if x.toNat + 1 = 2 ^ n then x else x + 1

/-! ## Receiving (R41) -/

/-- DLEN that R110 gives an endpoint message. -/
def endpointLen (o n : Nat) : Bool :=
  if o = 0x60 ∨ o = 0x61 then decide (1 ≤ n) && decide (n ≤ 8)
  else if o = 0x62 ∨ o = 0x63 then decide (n = 2) || decide (n = 4) || decide (n = 6)
  else if o = 0x64 ∨ o = 0x66 then decide (n = 1)
  else decide (o = 0x65) && decide (n = 0)

/-- A packet that reaches its die: endpoint messages of another form are discarded, with the transport-error event (R110). -/
def State.dieReceives (s : State) (d : Nat) (p : Packet) : State :=
  let o := p.opc.toNat
  if 0x60 ≤ o ∧ o ≤ 0x6F ∧ !endpointLen o p.dlen then s.report 1 d o
  else { s with net := { s.net with inbox := s.net.inbox ++ [(d, p)] } }

/-- A payload that a receiver has accepted: to the router, to the die, or part of a Nimcor packet, which is whole with its last
flit. -/
def State.accepted (s : State) (l : Nat) (esc : Bool) : Payload → State
  | .packet p =>
    if isRouter (linkTo l) then { s with net := { s.net with routers := s.net.routers ++ [⟨linkTo l, some l, esc, p⟩] } }
    else s.dieReceives (linkTo l - 22) p
  | .flit n i =>
    if i < n.ndlen then s
    else if nimRx 0 ≤ l then s.nimArrived (planeIod (l - nimRx 0)) n
    else s.onFab (fun f => { f with outbox := f.outbox ++ [n] })

/-- A message back to a link's sender. -/
def State.linkMsg (s : State) (m : LinkMsg) : State := { s with net := { s.net with msgs := s.net.msgs ++ [m] } }

/-- The receiver of a Nimcor link is a die or another module; of the others, a router or a die. -/
def receiverOf (l : Nat) : Nat := if isNim l then dieNode 20 else linkTo l

/-- The sender of a link, in the same way. -/
def senderOf (l : Nat) : Nat := if isNim l then dieNode 20 else linkFrom l

/-- An item at its receiver: discarded where its tag fails, with LNAK; discarded out of order; else accepted (R41). -/
def State.receive (s : State) (w : WireItem) (ok : Bool) : State :=
  let k := s.link w.link
  if k.down || k.retrainAt.isSome then s
  else if !ok then (s.onXerr (receiverOf w.link) (fun x => { x with crce := satInc x.crce })).linkMsg ⟨w.link, true, w.seq⟩
  else
    let k := { k with lackAt := if k.lackDue then k.lackAt else s.time, lackDue := true }
    if w.seq ≠ k.expect then s.setLinkDir w.link k
    else (s.setLinkDir w.link { k with expect := (k.expect + 1) % seqSpace }).accepted w.link (k.esc.contains w.seq) w.item

/-- LINK_PACKET_RECEIVE: the item in place k of the wires reaches its receiver, the bits of `flip` of its tag inverted on the way. Items of
one link arrive in the order sent (R37, R41, R74). -/
def execLinkPacketReceive (k : Nat) (flip : BitVec 32) (s : State) : Host.Outcome State Fault Refusal :=
  match nth? s.net.wire k with
  | none => .next s
  | some w =>
    if (s.net.wire.take k).any (fun v => decide (v.link = w.link)) then .next s
    else
      let s := { s with net := { s.net with wire := removeNth s.net.wire k } }
      .next (s.receive w ((w.crc ^^^ flip) == w.item.crc))

/-- LACK_TIMER: a receiver to which packets have come since its last LACK names the last one accepted; it waits at most 64 TCLK
cycles (R41). -/
def execLackTimer (link : Nat) (s : State) : Host.Outcome State Fault Refusal :=
  let k := s.link link
  if !k.lackDue then .next s
  else .next ((s.setLinkDir link { k with lackDue := false, lackAt := s.time }).linkMsg
    ⟨link, false, (k.expect + seqSpace - 1) % seqSpace⟩)

/-! ## Sending again (R41, R42) -/

/-- The time without progress after which a sender replays: 1,024 TCLK cycles, or 1,024 flit times of a Nimcor port. -/
def replayAfter (l : Nat) : Nat := if isNim l then 181 else 512

/-- Every unacknowledged item sent again from the oldest, in a round more; after eight rounds without progress the link retrains. -/
def State.replayRound (s : State) (l : Nat) : State :=
  let k := s.link l
  if k.down || k.retrainAt.isSome || k.replay.isEmpty then s
  else if 8 ≤ k.rounds then
    let s := s.setLinkDir l { k with retrainAt := some s.time }
    { s with net := { s.net with wire := s.net.wire.filter (fun w => decide (w.link ≠ l)) } }
  else
    ((s.onXerr (senderOf l) (fun x => { x with rply := satInc x.rply })).setLinkDir l
      { k with rounds := k.rounds + 1, progressAt := s.time }).onWire (k.window l 0)

/-- The message to a link's sender that is taken. -/
def State.takeLinkMsg (s : State) : Option (LinkMsg × State) :=
  match nth? s.net.msgs s.pick with
  | none => none
  | some m => some (m, { s with net := { s.net with msgs := removeNth s.net.msgs s.pick } })

/-- How many items of a replay buffer a LACK frees: up to and with the one named. -/
def ackedCount (seq : Nat) (q : List (Nat × Payload)) : Nat :=
  match q.findIdx? (fun e => decide (e.1 = seq)) with
  | some i => i + 1
  | none => 0

/-- LACK: the sender frees its replay buffer up to the LSEQ named, and what now has room goes onto the wire (R41). -/
def execLack (s : State) : Host.Outcome State Fault Refusal :=
  match s.takeLinkMsg with
  | none => .next s
  | some (m, t) =>
    if m.nak then .next s
    else
      let k := t.link m.link
      let n := ackedCount m.seq k.replay
      if n = 0 then .next t
      else
        let left := k.replay.drop n
        let k' := { k with replay := left, rounds := 0, progressAt := t.time, esc := k.esc.filter (fun q => left.any (fun e => decide (e.1 = q))) }
        let t := t.setLinkDir m.link k'
        .next (if k.down || k.retrainAt.isSome then t else t.onWire (k'.window m.link (replayRoom m.link - n)))

/-- LNAK: the sender replays (R41). -/
def execLnak (s : State) : Host.Outcome State Fault Refusal :=
  match s.takeLinkMsg with
  | none => .next s
  | some (m, t) => if m.nak then .next (t.replayRound m.link) else .next s

/-- REPLAY_TIMEOUT (R41). -/
def execReplayTimeout (link : Nat) (s : State) : Host.Outcome State Fault Refusal :=
  if (s.link link).progressAt + replayAfter link ≤ s.time then .next (s.replayRound link) else .next s

/-- LINK_RETRAINED: traffic resumes with everything unacknowledged (R42). -/
def execLinkRetrained (link : Nat) (s : State) : Host.Outcome State Fault Refusal :=
  let k := s.link link
  match k.retrainAt with
  | none => .next s
  | some t =>
    if k.down ∨ t + 100 * microsecond ≤ s.time then .next s
    else
      let k := { k with retrainAt := none, rounds := 0, progressAt := s.time }
      .next ((s.setLinkDir link k).onWire (k.window link 0))

/-! ## A link that is down (R42) -/

/-- The bit of LDOWN at a router for the link to a node: die port, north, east, south, west (R43). -/
def ldownBit (r n : Nat) : Nat :=
  if !isRouter n then 0
  else
    let p := meshAt r
    let q := meshAt n
    if q.1 < p.1 then 1 else if p.2 < q.2 then 2 else if p.1 < q.1 then 3 else 4

/-- LDOWN set at a router for its link to a node. -/
def State.markDown (s : State) (r n : Nat) : State := s.onXerr r (fun x => { x with ldown := x.ldown ||| (1#5 <<< ldownBit r n) })

/-- LOST for a token-carrying packet of a downed link, put into the sending router. -/
def lostFor (s : State) (r : Nat) : Nat × Payload → List Buffered
  | (_, .packet p) =>
    if p.carriesTokens && decide (0 < p.tok) then
      [⟨r, none, false, { s.cohPacket 0x33 r (homeSock p.sector) (p.sector % 2 ^ 38) with sector := p.sector, ser := p.ser, cause := 2 }⟩]
    else []
  | (_, .flit _ _) => []

/-- One direction of a link down: what its replay buffer held is lost, and the homes of token-carrying packets are told. -/
def State.dropLink (s : State) (l : Nat) : State :=
  let k := s.link l
  let lost := if isRouter (linkFrom l) && isRouter (linkTo l) then k.replay.flatMap (lostFor s (linkFrom l)) else []
  let s := (s.setLinkDir l { k with down := true, replay := [], retrainAt := none, lackDue := false, esc := [] }).markDown (linkFrom l) (linkTo l)
  { s with net := { s.net with
      wire := s.net.wire.filter (fun w => decide (w.link ≠ l)), msgs := s.net.msgs.filter (fun m => decide (m.link ≠ l))
      routers := s.net.routers ++ lost } }

/-- A grid halted with its module: its work goes, and its chit breaks with CAUSE HALTED (R42, R97). -/
def State.haltGrid (s : State) (gid : Nat) : State :=
  match s.grid? gid with
  | none => s
  | some g =>
    if g.gone then s
    else
      let s := s.disp.foldl (fun s d => s.discardItems d.1 gid) s
      let s := if recChv g.record then s.endChit g (brokenRec 5 0 (recChit g.record)) true else s
      s.dropGrid gid

/-- A die port down: its die is lost, the fatal event of the module is raised and every grid is halted (R42). -/
def State.dieLost (s : State) (d : Nat) : State := s.grids.foldl (fun s g => s.haltGrid g.1) (s.report 0 20 d)

/-- RETRAIN_TIMEOUT: 100 µs without success, so the link is down in both directions (R42); a Nimcor port down is a plane failed (R90). -/
def execRetrainTimeout (link : Nat) (s : State) : Host.Outcome State Fault Refusal :=
  match (s.link link).retrainAt with
  | none => .next s
  | some t =>
    if s.time < t + 100 * microsecond then .next s
    else if isNim link then execPlaneFail ((link - 4096) % 8) (s.setLinkDir link { s.link link with retrainAt := none })
    else
      let a := linkFrom link
      let b := linkTo link
      let s := (s.dropLink link).dropLink (linkId b a)
      if isRouter a && isRouter b then .next s else .next (s.dieLost (Nat.max a b - 22))

/-! ## Routers (R9, R39, R40) -/

/-- Whether a router's link to another stands. -/
def State.linkStands (s : State) (a b : Nat) : Bool := meshLinked a b && !(s.link (linkId a b)).down

/-- The packets of a channel and sub-channel that a link has on its wire or in its receiver's buffers. -/
def State.charged (s : State) (l : Nat) (v : BitVec 2) (esc : Bool) : Nat :=
  let k := s.link l
  let sent := k.replay.drop (k.replay.length - (k.nextSeq + seqSpace - k.expect) % seqSpace)
  sent.countP (fun e => match e.2 with | .packet p => p.vcl == v && k.esc.contains e.1 == esc | .flit _ _ => false) +
  s.net.routers.countP (fun b => b.link == some l && b.packet.vcl == v && b.esc == esc)

/-- Whether a link has credit for one more packet of a channel, or of its escape sub-channel (R40). -/
def State.credit (s : State) (l : Nat) (v : BitVec 2) (esc : Bool) : Bool :=
  decide (s.charged l v esc < Config.linkRoom (if esc then 1 else 0) + 1)

/-- The routers to which a router may forward a packet, and whether on the escape sub-channel: on a minimal path over a link with credit; the
escape route where no minimal hop has credit; and where all those links are down, any link that stands (R40, R42, log 61). -/
def State.hops (s : State) (r : Nat) (p : Packet) : List (Nat × Bool) :=
  let near := (List.range 22).filter (fun n => s.linkStands r n)
  let least := near.filter (fun n => decide (meshDistance n p.dst + 1 = meshDistance r p.dst))
  let free := least.filter (fun n => s.credit (linkId r n) p.vcl false)
  let e := escapeHop r p.dst
  if !free.isEmpty then free.map (fun n => (n, false))
  else if near.contains e then (if s.credit (linkId r e) p.vcl true then [(e, true)] else [])
  else if least.isEmpty then (near.filter (fun n => s.credit (linkId r n) p.vcl false)).map (fun n => (n, false))
  else []

/-- A packet put on a link of a router, on the channel's escape sub-channel or not (R40). -/
def State.forward (s : State) (l : Nat) (p : Packet) (esc : Bool) : State :=
  let q := (s.link l).nextSeq
  let s := s.linkSend l (.packet p)
  if esc then s.setLinkDir l { s.link l with esc := (s.link l).esc ++ [q] } else s

/-- ROUTER_FORWARD: the packet in place k of the routers goes on to router `next`, or into its die where it has arrived; without credit it
stays. The first router discards a packet that breaks R38 (R9, R39, R40). -/
def execRouterForward (k next : Nat) (s : State) : Host.Outcome State Fault Refusal :=
  match nth? s.net.routers k with
  | none => .next s
  | some b =>
    let r := b.router
    let p := b.packet
    let t := { s with net := { s.net with routers := removeNth s.net.routers k } }
    if r = p.src ∧ !p.wellFormed then .next ((t.onXerr r (fun x => { x with disc := satInc x.disc })).report 1 r p.opc.toNat)
    else if p.dst = r then .next (t.linkSend (linkId r (dieNode r)) (.packet p))
    else
      match (s.hops r p).find? (fun h => decide (h.1 = next)) with
      | some h => .next (t.forward (linkId r next) p h.2)
      | none => .next s

end Sys2Proof.Machine
end

