-- ==== Sys2Proof/Machine/Blob.lean ====
section
/-! DEFINITION. The configuration blob: its layout, its checks and its settings (R19 to R27). -/

namespace Sys2Proof.Machine

/-- A section of a blob: its type, and where its body lies and how long it is. -/
structure BlobSection where
  ty : Nat
  off : Nat
  len : Nat
  deriving DecidableEq, Repr

/-- A number in a section's body. -/
def BlobSection.rd (x : BlobSection) (m : List Host.Cell) (off n : Nat) : Nat := readNum (x.off + off) n m

/-- Entries of 8 bytes after a header of 8. -/
def BlobSection.entries (x : BlobSection) (m : List Host.Cell) (n : Nat) : List Nat := (List.range n).map (fun i => x.rd m (8 + 8 * i) 8)

/-- A length padded to a multiple of 8 (R20). -/
def pad8 (n : Nat) : Nat := (n + 7) / 8 * 8

/-- The longest blob: 256 KiB (R19). -/
def blobMax : Nat := 262144
/-- Where sections start (R19). -/
def blobHead : Nat := 0x530
/-- The length of a signature (R19). -/
def blobSig : Nat := 2420

/-- The sections between two offsets; none where they do not fit exactly. The type is taken without its critical mark. -/
def blobSections (m : List Host.Cell) : Nat → Nat → Nat → Option (List (BlobSection × Bool))
  | 0, _, _ => none
  | fuel + 1, a, stop =>
    if a = stop then some []
    else if stop < a + 8 then none
    else
      let ty := readNum a 2 m
      let len := readNum (a + 4) 4 m
      if readNum (a + 2) 2 m ≠ 0 ∨ stop < a + 8 + pad8 len then none
      else (blobSections m fuel (a + 8 + pad8 len) stop).map (fun t => (⟨ty % 2 ^ 15, a + 8, len⟩, ty.testBit 15) :: t)

/-! ## Limits of each section (R21 to R26) -/

/-- The sockets that have a rail (R21). -/
def railHere (rail sock : Nat) : Bool :=
  if rail = 0 ∨ rail = 2 then decide (sock ≤ 21)
  else if rail = 1 then decide (sock ≤ 7) || sock == 20 || sock == 21
  else if rail = 3 then decide (sock ≤ 7)
  else decide (rail ≤ 5) && decide (8 ≤ sock) && decide (sock ≤ 19)

/-- The range of a rail in mV (R21). -/
def railRange (rail : Nat) : Nat × Nat := nth (0, 0) [(650, 900), (700, 950), (700, 800), (850, 1000), (1050, 1150), (380, 450)] rail

/-- The default of a rail in mV (R21). -/
def railDefault (rail : Nat) : Nat := nth 0 [750, 800, 750, 900, 1100, 400] rail

/-- Whether a number lies in a range. -/
def within (x : Nat) (r : Nat × Nat) : Bool := decide (r.1 ≤ x) && decide (x ≤ r.2)

/-- A rail entry keeps R21. -/
def railOk (e : Nat) : Bool :=
  let sock := bitsAt e 0 8
  let rail := bitsAt e 8 8
  decide (rail < 6) && railHere rail sock && within (bitsAt e 16 16) (railRange rail) && decide (bitsAt e 32 32 = 0)

/-- No two entries of a list are equal. -/
def distinct (xs : List Nat) : Bool := decide (xs.eraseDups.length = xs.length)

/-- Section 0x0001 keeps R21. -/
def powerOk (m : List Host.Cell) (x : BlobSection) : Bool :=
  let n := x.rd m 4 2
  let es := x.entries m n
  decide (n ≤ 86) && decide (x.len = 8 + 8 * n) && within (x.rd m 0 4) (1200, 3600) && decide (x.rd m 6 2 = 0) && es.all railOk &&
  distinct (es.map (fun e => bitsAt e 0 16))

/-- The range of an HBM4 parameter (R22). -/
def hbmRange (pid : Nat) : Nat × Nat := nth (1, 0) [(1, 0), (6400, 8000), (1950, 3900), (0, 1), (1, 168), (75, 95)] pid

/-- Section 0x0002 keeps R22. -/
def hbmOk (m : List Host.Cell) (x : BlobSection) : Bool :=
  let n := x.rd m 2 2
  let es := x.entries m n
  within n (1, 5) && decide (x.len = 8 + 8 * n) && decide (x.rd m 4 4 = 0) && within (x.rd m 0 2) (1, 4095) &&
  es.all (fun e => within (bitsAt e 32 32) (hbmRange (bitsAt e 0 16)) && decide (bitsAt e 16 16 = 0)) &&
  distinct (es.map (fun e => bitsAt e 0 16))

/-- Section 0x0003 keeps R23. -/
def thermalOk (m : List Host.Cell) (x : BlobSection) : Bool :=
  let t := x.rd m 0 2
  let o := x.rd m 2 2
  decide (x.len = 8) && within t (60, 95) && within o (80, 110) && decide (t + 10 ≤ o) && decide (x.rd m 4 4 = 0)

/-- The magnitude of a signed byte that is zero or negative, or more than any limit for another. -/
def negMag (b : Nat) : Nat := if b = 0 then 0 else if 128 ≤ b then 256 - b else 1000

/-- A lane's taps keep R24. -/
def tapOk (e : Nat) : Bool :=
  let b (i : Nat) : Nat := bitsAt e (8 * i) 8
  decide (b 0 ≤ 7) && decide (b 1 ≤ 15) && decide (negMag (b 2) ≤ 8) && decide (negMag (b 3) ≤ 20) && within (b 4) (20, 63) &&
  decide (negMag (b 5) ≤ 24) && decide (negMag (b 2) + negMag (b 3) + b 4 + negMag (b 5) ≤ 63) && decide (bitsAt e 48 16 = 0)

/-- Section 0x0004 keeps R24. -/
def lanesOk (m : List Host.Cell) (x : BlobSection) : Bool :=
  let n := x.rd m 0 2
  let es := x.entries m n
  decide (n ≤ 128) && decide (x.len = 8 + 8 * n) && decide (x.rd m 2 6 = 0) && es.all tapOk && distinct (es.map (fun e => bitsAt e 0 16))

/-- A port entry keeps R25. -/
def portOk (e : Nat) : Bool :=
  let b (i : Nat) : Nat := bitsAt e (8 * i) 8
  decide (b 0 ≤ 1) && within (b 1) (1, 6) && [1, 2, 4, 8, 16].contains (b 2) && decide (b 3 ≤ 1) && !(b 4).testBit 0 && decide (b 10 ≤ 1) &&
  (decide (b 10 = 0) || decide (bitsAt e 32 48 ≠ 0)) && within (bitsAt e 96 16) (1518, 9216) && decide (bitsAt e 112 144 = 0)

/-- Section 0x0005 keeps R25. -/
def portsOk (m : List Host.Cell) (x : BlobSection) : Bool :=
  decide (x.len = 64) && portOk (x.rd m 0 32) && portOk (x.rd m 32 32)

/-- Bits [24:0] of a routing entry hold exactly one 1 (R119). -/
def oneOwner (v : Nat) : Bool := decide (((List.range 25).filter (fun i => v.testBit i)).length = 1)

/-- Section 0x0006 keeps R26. -/
def routesOk (m : List Host.Cell) (x : BlobSection) : Bool :=
  decide (x.len = 1024) && (List.range 256).all (fun c => oneOwner (x.rd m (4 * c) 4))

/-- A firmware image named by section 0x0007: kind and index, offset, length, digest. -/
def BlobSection.image (x : BlobSection) (m : List Host.Cell) (i : Nat) : (Nat × Nat) × (Nat × Nat × BitVec 256) :=
  let a := 44 * i
  ((x.rd m a 1, x.rd m (a + 1) 1), (x.rd m (a + 4) 4, x.rd m (a + 8) 4, BitVec.ofNat 256 (x.rd m (a + 12) 32)))

/-- The images of section 0x0007. -/
def BlobSection.imageList (x : BlobSection) (m : List Host.Cell) : List ((Nat × Nat) × (Nat × Nat × BitVec 256)) :=
  (List.range 24).map (x.image m)

/-- Whether two images lie apart in the flash. -/
def imagesApart (p q : (Nat × Nat) × (Nat × Nat × BitVec 256)) : Bool :=
  decide (p.1 = q.1) || decide (p.2.1 + p.2.2.1 ≤ q.2.1) || decide (q.2.1 + q.2.2.1 ≤ p.2.1)

/-- The images that must be named: die managers 0 to 7, service cores 0 to 15 (R26). -/
def imageKeys : List (Nat × Nat) := (List.range 8).map (fun i => (1, i)) ++ (List.range 16).map (fun i => (2, i))

/-- Section 0x0007 keeps R26. -/
def imagesOk (m : List Host.Cell) (x : BlobSection) : Bool :=
  let es := x.imageList m
  decide (x.len = 1056) && imageKeys.all (fun k => es.any (fun e => decide (e.1 = k))) &&
  (List.range 24).all (fun i => decide (x.rd m (44 * i + 2) 2 = 0)) &&
  es.all (fun e => decide (e.2.1 % 4096 = 0) && within e.2.2.1 (4096, 16777216) && es.all (fun f => imagesApart e f))

/-- A section of a known type keeps its limits. -/
def sectionOk (m : List Host.Cell) (x : BlobSection) : Bool :=
  if x.ty = 1 then powerOk m x else if x.ty = 2 then hbmOk m x else if x.ty = 3 then thermalOk m x
  else if x.ty = 4 then lanesOk m x else if x.ty = 5 then portsOk m x else if x.ty = 6 then routesOk m x else imagesOk m x

/-- Whether a type is defined (R20). -/
def knownSection (ty : Nat) : Bool := decide (1 ≤ ty) && decide (ty ≤ 7)

/-- The sections of a type. -/
def ofType (ty : Nat) (xs : List BlobSection) : List BlobSection := xs.filter (fun x => decide (x.ty = ty))

/-- The sections of a blob keep R20 to R26: no unknown critical one, limits, none twice but 0x0002 for other dies, 0x0007 there. -/
def sectionsOk (m : List Host.Cell) (xs : List (BlobSection × Bool)) : Bool :=
  let ys := (xs.map Prod.fst).filter (fun x => knownSection x.ty)
  let masks := (ofType 2 ys).map (fun x => x.rd m 0 2)
  xs.all (fun p => knownSection p.1.ty || !p.2) && ys.all (sectionOk m) &&
  [1, 3, 4, 5, 6].all (fun t => decide ((ofType t ys).length ≤ 1)) && decide ((ofType 7 ys).length = 1) &&
  (List.range 12).all (fun d => decide ((masks.filter (fun k => k.testBit d)).length ≤ 1))

/-! ## The check of a blob (R19, R20, R27) -/

/-- The length a blob states. -/
def blobLength (m : List Host.Cell) : Nat := readNum 8 4 m

/-- The bytes of a blob. -/
def blobBytes (m : List Host.Cell) : List Byte := readCells 0 m (blobLength m)

/-- The sections of a blob whose header is sound; none where it is missing, malformed or over length. -/
def blobParts (m : List Host.Cell) : Option (List (BlobSection × Bool)) :=
  let len := blobLength m
  if readNum 0 4 m ≠ 0x46434753 ∨ readNum 4 2 m ≠ 1 ∨ readNum 6 2 m ≠ 0 ∨ blobMax < len ∨ len < blobHead + blobSig then none
  else blobSections m 32769 blobHead (len - blobSig)

/-- Whether a blob's signer is admitted and its signature verifies. -/
def blobSigned (m : List Host.Cell) (owner : Option (BitVec 256)) : Bool :=
  let len := blobLength m
  let key := readCells 0x10 m 1312
  let d := Config.sha3 key
  (d == Config.configRoot || owner == some d) &&
  Config.mldsaVerify key (Config.sha3 (readCells 0 m (len - blobSig))) (readCells (len - blobSig) m blobSig)

/-- The check of a blob: the refusal code of R32, or its sections. -/
def checkBlob (m : List Host.Cell) (owner : Option (BitVec 256)) (counter : BitVec 32) : Except (BitVec 8) (List (BlobSection × Bool)) :=
  match blobParts m with
  | none => .error 0x20
  | some xs =>
    if !blobSigned m owner then .error 0x21
    else if readNum 12 4 m < counter.toNat then .error 0x22
    else if !sectionsOk m xs then .error 0x23
    else .ok xs

/-! ## Settings (R21 to R26) -/

/-- Every rail at its default: what the rails have after phase POWER, and in CONFIG where no entry names them (R21). -/
def defaultRails : List ((Nat × Nat) × Nat) :=
  (List.range 22).flatMap (fun s => ((List.range 6).filter (fun r => railHere r s)).map (fun r => ((s, r), railDefault r)))

/-- The HBM4 parameters of every stack where no section gives them (R22). -/
def defaultHbm : List ((Nat × Nat) × Nat) :=
  (List.range 12).flatMap (fun d => [(1, 8000), (2, 3900), (3, 1), (4, 24), (5, 85)].map (fun p => ((8 + d, p.1), p.2)))

/-- A port's entry without section 0x0005: MODE 1, MAXS 6, MAXW 16, NVSPL 0, no station address, Ethernet off, PFCM 0, MTU 9,216 (R25). -/
def defaultPort : BitVec 256 := BitVec.ofNat 256 (1 + 6 * 2 ^ 8 + 16 * 2 ^ 16 + 9216 * 2 ^ 96)

/-- The settings that hold where a blob leaves a section, an entry or a parameter out (R16, R20 to R25). -/
def Boot.defaults (b : Boot) : Boot :=
  { b with plim := 3600, rails := defaultRails, hbm := defaultHbm, tthr := 95, toff := 110, taps := []
           ports := [(20, defaultPort), (21, defaultPort)] }

/-- The settings of a section as bring-up takes them. -/
def Boot.applySection (m : List Host.Cell) (b : Boot) (x : BlobSection) : Boot :=
  if x.ty = 1 then
    { b with plim := BitVec.ofNat 32 (x.rd m 0 4)
             rails := (x.entries m (x.rd m 4 2)).foldl (fun r e => put (bitsAt e 0 8, bitsAt e 8 8) (bitsAt e 16 16) r) b.rails }
  else if x.ty = 2 then
    let dies := (List.range 12).filter (fun d => (x.rd m 0 2).testBit d)
    { b with hbm := (x.entries m (x.rd m 2 2)).foldl (fun h e =>
        dies.foldl (fun h d => put (8 + d, bitsAt e 0 16) (bitsAt e 32 32) h) h) b.hbm }
  else if x.ty = 3 then { b with tthr := x.rd m 0 2, toff := x.rd m 2 2 }
  else if x.ty = 4 then
    { b with taps := (x.entries m (x.rd m 0 2)).foldl (fun t e =>
        put (bitsAt e 0 8, bitsAt e 8 8) (BitVec.ofNat 32 (bitsAt e 16 32)) t) b.taps }
  else if x.ty = 5 then
    { b with ports := put 20 (BitVec.ofNat 256 (x.rd m 0 32)) (put 21 (BitVec.ofNat 256 (x.rd m 32 32)) b.ports) }
  else if x.ty = 7 then { b with images := x.imageList m }
  else b

/-- The event routing table of section 0x0006 (R26). -/
def routesOf (m : List Host.Cell) (xs : List BlobSection) : List (Nat × BitVec 32) :=
  (ofType 6 xs).flatMap (fun x => (List.range 256).map (fun c => (c, BitVec.ofNat 32 (x.rd m (4 * c) 4 % 0x2000000 + 0x80000000 * (x.rd m (4 * c) 4 / 0x80000000)))))

end Sys2Proof.Machine
end

