-- ==== Sys2Proof/Machine/Boot.lean ====
section
/-! DEFINITION. Resets and bring-up (R28 to R33, R108), measured boot (R122), power and cooling (R15 to R17), and the PCIe ports' answers
(R30). -/

namespace Sys2Proof.Machine

/-! ## Resets (R29) -/

/-- What a reset of either kind leaves of bring-up: the carrier flash and its counter, and the stored owner key, now in force. -/
def Boot.afterReset (b : Boot) : Boot :=
  { Boot.reset with flash := b.flash, flashCounter := b.flashCounter, ownerStored := b.ownerStored, owner := b.ownerStored }

/-- The module after a reset: everything as right after power-on but the flash, the drives, the host's memory, and the steps to come. -/
def State.afterReset (s : State) (time : Nat) (b : Boot) : State :=
  { State.reset with time := time, boot := { b with since := time }, mgmt := { Mgmt.reset with hostMem := s.mgmt.hostMem }
                     service := { Service.reset with drives := s.service.drives }
                     agenda := s.agenda, pick := s.pick, fresh := s.fresh, openVals := s.openVals }

/-- COLD_RESET: bring-up from phase POWER; TIME starts anew (R29, R431). -/
def execColdReset (s : State) : Host.Outcome State Fault Refusal := .next (s.afterReset 0 s.boot.afterReset)

/-- A warm reset: bring-up from phase ROM; the rails stay as they are (R29). -/
def State.warmReset (s : State) : State :=
  s.afterReset s.time { s.boot.afterReset with phase := .rom, cold := false, rails := s.boot.rails }

/-- Whether a write of RSTCTL asks for a warm reset (R108). -/
def warmAsked (v : BitVec 32) : Bool := v.getLsbD 16 && v.extractLsb' 0 16 == 0x5E7A

/-- Whether a cold reset has come at this very TIME: a warm one beside it counts with it as that one cold reset (R30). -/
def State.coldNow (s : State) : Bool := s.boot.cold && decide (s.boot.phase = .power) && decide (s.time = s.boot.since)

/-- RSTCTL_WARM: only a cold reset leaves fault-off; resets that arrive together are one, cold if any of them is (R17, R30, R108). -/
def execRstctlWarm (v : BitVec 32) (s : State) : Host.Outcome State Fault Refusal :=
  if warmAsked v && !s.boot.faultOff && !s.coldNow then .next s.warmReset else .next s

/-! ## Phases (R29 to R32) -/

/-- The bound of a phase in CCLK cycles (R29). -/
def Phase.bound : Phase → Option Nat
  | .power => some (20000 * microsecond)
  | .rom => some (10000 * microsecond)
  | .config => some (50000 * microsecond)
  | .links => some (30000 * microsecond)
  | .memory => some (400000 * microsecond)
  | .managers => some (500000 * microsecond)
  | .ready => none
  | .recovery => none

/-- Whether bring-up is in a phase, within its bound. -/
def State.inPhase (s : State) (p : Phase) : Bool :=
  decide (s.boot.phase = p) && !s.boot.faultOff &&
  (match p.bound with | some n => decide (s.time ≤ s.boot.since + n) | none => true)

/-- Bring-up in the next phase. -/
def State.enterPhase (s : State) (p : Phase) : State := s.onBoot (fun b => { b with phase := p, since := s.time })

/-- Bring-up stopped in RECOVERY with an error code; the recovery registers and the staging buffer are zero on entry (R29, R32, R33). -/
def State.recover (s : State) (err : BitVec 8) (sock : Option Nat) : State :=
  s.onBoot (fun b => { b with
    phase := .recovery, since := s.time, err := err, sock := BitVec.ofNat 5 (sock.getD 0), sockv := sock.isSome
    page := 0, busy := false, res := 0, staging := [] })

/-- POWER_PHASE_DONE: every rail is at its default; or a rail (1) or a PLL (2) failed (R12, R21, R32). -/
def execPowerPhaseDone (err : BitVec 8) (_sock : Nat) (s : State) : Host.Outcome State Fault Refusal :=
  if !s.inPhase .power then .next s
  else if err = 1 ∨ err = 2 then .next (s.recover err none)
  else .next ((s.onBoot (fun b => { b with rails := defaultRails })).enterPhase .rom)

/-- A measurement register (R122). -/
def State.mrOf (s : State) (i : Nat) : BitVec 256 := lookupD i 0 s.mgmt.mr

/-- A measurement register extended (R122). -/
def State.extendMr (s : State) (i : Nat) (d : BitVec 256) : State :=
  s.onMgmt (fun m => { m with mr := put i (Config.sha3 (bytesOfNat 32 (lookupD i 0 m.mr).toNat ++ bytesOfNat 32 d.toNat)) m.mr })

/-- ROM_PHASE_DONE: MR0 takes the boot ROM; the identity key pair is derived, or bring-up stops (R28, R122). -/
def execRomPhaseDone (seedOk : Bool) (s : State) : Host.Outcome State Fault Refusal :=
  if !s.inPhase .rom then .next s
  else
    let s := s.extendMr 0 Config.romDigest
    if seedOk then .next ((s.onBoot (fun b => { b with idok := true })).enterPhase .config) else .next (s.recover 0x10 none)

/-- The settings of an accepted blob sent to the dies, over the defaults of what it leaves out (R20 to R26). -/
def State.takeBlob (s : State) (xs : List BlobSection) : State :=
  let m := s.boot.flash
  let s := s.onBoot (fun b => { xs.foldl (Boot.applySection m) b.defaults with cfgok := true, svn := BitVec.ofNat 32 (readNum 12 4 m) })
  s.onMgmt (fun g => { g with ert := routesOf m xs })

/-- CONFIG_PHASE_DONE: the blob of the flash is taken, or rejected (R19 to R27); a rail that does not reach the set-point
that the blob gives it stops bring-up (R21, R32). -/
def execConfigPhaseDone (s : State) : Host.Outcome State Fault Refusal :=
  if !s.inPhase .config then .next s
  else
    match checkBlob s.boot.flash s.boot.owner s.boot.flashCounter with
    | .error e => .next (s.recover e none)
    | .ok xs =>
      let s := s.extendMr 0 (Config.sha3 (blobBytes s.boot.flash))
      let s := s.takeBlob ((xs.map Prod.fst).filter (fun x => knownSection x.ty))
      .next (if s.boot.railBad then s.recover 0x01 none else s.enterPhase .links)

/-- LINKS_PHASE_DONE: all 22 ports trained, or one failed (R10, R11, R29). -/
def execLinksPhaseDone (failed : Option Nat) (s : State) : Host.Outcome State Fault Refusal :=
  if !s.inPhase .links then .next s
  else
    match failed with
    | some k => .next (s.recover 0x30 (some k))
    | none => .next (s.enterPhase .memory)

/-- Memory as phase MEMORY leaves it: every sector zero with its tokens at home, weight and shadow stores zero (R29). -/
def State.clearMemory (s : State) : State := { s with mem := [], weights := [], shadow := [], coh := Coherence.reset }

/-- MEMORY_PHASE_DONE (R29). -/
def execMemoryPhaseDone (failed : Option Nat) (s : State) : Host.Outcome State Fault Refusal :=
  if !s.inPhase .memory then .next s
  else
    match failed with
    | some k => .next (s.recover 0x40 (some k))
    | none => .next (s.clearMemory.enterPhase .managers)

/-- The digest of an image as the flash holds it. -/
def Boot.imageDigest (b : Boot) (k : Nat × Nat) : BitVec 256 :=
  match lookup? k b.images with
  | some e => Config.sha3 (readCells e.1 b.flash e.2.1)
  | none => 0

/-- Whether an image agrees with its digest. -/
def Boot.imageGood (b : Boot) (k : Nat × Nat) : Bool :=
  match lookup? k b.images with
  | some e => b.imageDigest k == e.2.2
  | none => false

/-- The socket that BOOTST names for an image: the die manager's, or the I/O die of the service core (R26, R115). -/
def imageSock (k : Nat × Nat) : Nat := if k.1 = 1 then k.2 else if k.2 < 8 then 20 else 21

/-- READY entered: the measurements of the images and the owner key, and the counter raised to the blob's SVN (R27, R29, R122). -/
def State.enterReady (s : State) : State :=
  let s := imageKeys.foldl (fun s k => s.extendMr k.1 (s.boot.imageDigest k)) s
  let s := s.extendMr 3 (s.boot.owner.getD 0)
  (s.onBoot (fun b => { b with flashCounter := if b.flashCounter.toNat < b.svn.toNat then b.svn else b.flashCounter })).enterPhase .ready

/-- MANAGERS_PHASE_DONE: firmware images checked against their digests (R26, R29, R122). -/
def execManagersPhaseDone (s : State) : Host.Outcome State Fault Refusal :=
  if !s.inPhase .managers then .next s
  else
    match imageKeys.find? (fun k => !s.boot.imageGood k) with
    | some k => .next (s.recover 0x50 (some (imageSock k)))
    | none => .next s.enterReady

/-- PHASE_BOUND_EXPIRY: a phase has not finished within its bound; `late` is the one die that is late, if it is one (R29, R32). -/
def execPhaseBoundExpiry (late : Option Nat) (s : State) : Host.Outcome State Fault Refusal :=
  match s.boot.phase.bound with
  | none => .next s
  | some n => if s.time ≤ s.boot.since + n ∨ s.boot.faultOff then .next s else .next (s.recover 0x60 late)

/-! ## Recovery (R33) -/

/-- RCVCTL_GO: the staged blob is submitted; ignored while BUSY is 1 and outside RECOVERY. -/
def execRcvctlGo (v : BitVec 32) (s : State) : Host.Outcome State Fault Refusal :=
  if v.getLsbD 0 && decide (s.boot.phase = .recovery) && !s.boot.faultOff && !s.boot.busy then
    .next (s.onBoot (fun b => { b with busy := true }))
  else .next s

/-- The carrier flash with a blob written at its start, where the model has it lie (log 132). -/
def Boot.writeFlash (b : Boot) (bs : List Byte) : Boot := { b with flash := writeCells 0 bs b.flash }

/-- RECOVERY_CHECK_DONE: the staged blob passes and is written to the flash, and a warm reset starts; or it fails. Where the identity seed
was not reconstructed the module stays in RECOVERY. The staging buffer is judged as it stands now (log 133). -/
def execRecoveryCheckDone (s : State) : Host.Outcome State Fault Refusal :=
  if !s.boot.busy || decide (s.boot.phase ≠ .recovery) || s.boot.faultOff then .next s
  else
    match checkBlob s.boot.staging s.boot.owner s.boot.flashCounter with
    | .error e => .next (s.onBoot (fun b => { b with busy := false, res := e }))
    | .ok _ =>
      let s := s.onBoot (fun b => { b.writeFlash (blobBytes b.staging) with busy := false, res := 1 })
      if s.boot.err = 0x10 then .next s else .next s.warmReset

/-! ## The PCIe ports (R25, R30) -/

/-- The settings of a port (R25). -/
def Boot.portEntry (b : Boot) (iod : Nat) : BitVec 256 := lookupD iod defaultPort b.ports

/-- MODE of a port: CXL allowed (R25). -/
def Boot.cxlAllowed (b : Boot) (iod : Nat) : Bool := (b.portEntry iod).getLsbD 0

/-- PCIE_LINK_UP: a port's link trains, as PCIe 6.x or, where its MODE allows, as CXL 3.1 (R25, R30). -/
def execPcieLinkUp (iod : Nat) (cxl : Bool) (s : State) : Host.Outcome State Fault Refusal :=
  if s.boot.faultOff || (iod != 20 && iod != 21) || (lookup? iod s.boot.linkUp).isSome then .next s
  else .next (s.onBoot (fun b => { b with linkUp := put iod (cxl && b.cxlAllowed iod) b.linkUp }))

/-- PCIE_CONFIG_REQUEST: once its link is up I/O die 20 answers normally in every phase, I/O die 21 with Request Retry Status until
READY (R30). -/
def execPcieConfigRequest (iod : Nat) (s : State) : Host.Outcome State Fault Refusal :=
  if (iod = 20 ∨ iod = 21) ∧ (lookup? iod s.boot.linkUp).isSome then
    .next (s.onBoot (fun b => { b with answer := some (iod, decide (iod = 20) || decide (b.phase = .ready)) }))
  else .next s

/-! ## Power and cooling (R15 to R17) -/

/-- What the I/O dies and the interposer hold of the transport through fault-off: routers, links, XERR, and what has reached an I/O die. -/
def Net.faultOff (n : Net) : Net := { n with inbox := n.inbox.filter (fun p => decide (20 ≤ p.1)) }

/-- What the far caches and the ports of the I/O dies hold through fault-off; the caches of the compute dies and the homes are lost. -/
def Coherence.faultOff (c : Coherence) : Coherence :=
  { Coherence.reset with
    lines := c.lines.filter (fun p => decide (20 ≤ p.1.1)), misses := c.misses.filter (fun p => decide (20 ≤ p.1))
    active := c.active.filter (fun a => decide (20 ≤ a.site)), mendNotes := c.mendNotes.filter (fun p => decide (20 ≤ p.1.1))
    lasting := c.lasting.filter (fun p => decide (20 ≤ p.1)), pred := c.pred.filter (fun p => decide (20 ≤ p.1.1))
    holdoff := c.holdoff.filter (fun p => decide (20 ≤ p.1.1)), heldReqs := c.heldReqs.filter (fun p => decide (20 ≤ p.1))
    accesses := c.accesses.filter (fun a => decide (20 ≤ a.site)), snoops := c.snoops, hostReads := c.hostReads
    hostRefused := c.hostRefused, cxlSent := c.cxlSent, farSnoop := c.farSnoop, nextTxn := c.nextTxn }

/-- The chit tables of the I/O dies, and the messages that they have sent. -/
def Chits.faultOff (c : Chits) : Chits :=
  { tables := c.tables.filter (fun p => decide (20 ≤ p.1.1)), reserves := c.reserves.filter (fun p => decide (20 ≤ p.1.1))
    msgs := c.msgs.filter (fun m => decide (20 ≤ m.ssock)), waiting := c.waiting.filter (fun m => decide (20 ≤ m.ssock))
    unacked := c.unacked.filter (fun p => decide (20 ≤ p.1)) }

/-- Fault-off: the compute and memory dies lose their rails, and what they hold is lost; the I/O dies and the interposer keep what they
hold, dispatcher 20 and the device barrier slots among it (R17). -/
def State.faultOff (s : State) : State :=
  { State.reset with
    time := s.time, boot := { s.boot with faultOff := true, rails := s.boot.rails.filter (fun r => decide (20 ≤ r.1.1)) }
    net := s.net.faultOff, coh := s.coh.faultOff, chits := s.chits.faultOff, mgmt := s.mgmt, fab := s.fab
    disp := s.disp.filter (fun p => decide (8 ≤ p.1)), grids := s.grids.filter (fun p => decide (8 ≤ p.2.disp))
    devBars := s.devBars, devRegs := s.devRegs, service := s.service
    agenda := s.agenda, pick := s.pick, fresh := s.fresh, openVals := s.openVals }

/-- UNDERVOLT_TIMEOUT: the input has stayed below 40 V for more than 1 ms (R17). -/
def execUndervoltTimeout (s : State) : Host.Outcome State Fault Refusal := if s.boot.faultOff then .next s else .next s.faultOff

/-- The duty of a partition in eighths (R16). -/
def State.dutyOf (s : State) (c : CoreId) (p : Nat) : Nat := lookupD p 8 (s.core c).duty

/-- The duty of a core's partitions changed. -/
def State.onDuties (s : State) (c : CoreId) (f : Nat → Nat) : State :=
  s.onCore c (fun k => { k with duty := (List.range 4).map (fun p => (p, f (lookupD p 8 k.duty))) })

/-- Whether a core of a die is to run at less duty: the module draws more than its limit, or the sensor of its group of four is above
TTHR (R15, R16, R23). -/
def State.coreOver (s : State) (c : CoreId) : Bool :=
  decide (s.boot.plim.toNat < s.boot.watts) || decide (s.boot.tthr < nth 0 (lookupD c.die [] s.boot.temps) (c.core / 4))

/-- The cores of a die. -/
def coresOf (die : Nat) : List CoreId := (List.range 192).map (fun c => ⟨die, c⟩)

/-- The time of a core's duty taken anew for the cores given (R16). -/
def State.dutyNow (s : State) (cs : List CoreId) : State :=
  s.onBoot (fun b => { b with dutyAt := cs.foldl (fun t c => put c s.time t) b.dutyAt })

/-- The duty of the affected cores a step of 1/8 lower, with the event where the limit engages (R16, R120). -/
def State.reduceDuty (s : State) (die : Nat) : State :=
  let hot := (coresOf die).filter (fun c => s.coreOver c)
  if hot.isEmpty then s.onBoot (fun b => { b with hot := b.hot.filter (fun d => decide (d ≠ die)) })
  else
    let s := if s.boot.hot.contains die then s else (s.onBoot (fun b => { b with hot := die :: b.hot })).report 8 die die
    (hot.foldl (fun s c => s.onDuties c (fun d => Nat.max 1 (d - 1))) s).dutyNow hot

/-- SENSOR_SAMPLE: a die's temperature and voltage-droop sensors and the module's input power; a compute die's placement weights follow
(R15 to R17, R23). -/
def execSensorSample (die : Nat) (read : SensorReading) (watts : Nat) (weights : List (Nat × BitVec 8)) (s : State) :
    Host.Outcome State Fault Refusal :=
  if 22 ≤ die ∨ s.boot.faultOff then .next s
  else
    let s := s.onBoot (fun b => { b with temps := put die read.temps b.temps, droops := put die read.droops b.droops, watts := watts })
    if read.temps.any (fun t => decide (s.boot.toff ≤ t)) then .next s.faultOff
    else if 8 ≤ die then .next s
    else .next ((s.onDisp die (fun d => { d with weights := weights })).reduceDuty die)

/-- Whether a core below full duty is due its next step upwards: its cause has cleared, and 100 µs have passed since its duty last changed
or a sample last showed the cause (R16). -/
def State.dutyDue (s : State) (c : CoreId) : Bool :=
  !s.coreOver c && (List.range 4).any (fun p => decide (s.dutyOf c p < 8)) &&
  decide (lookupD c 0 s.boot.dutyAt + 100 * microsecond ≤ s.time)

/-- DUTY_RESTORE_STEP: the cores of a die that are due their next step gain 1/8 (R16). -/
def execDutyRestoreStep (die : Nat) (s : State) : Host.Outcome State Fault Refusal :=
  if 8 ≤ die then .next s
  else
    let cs := (coresOf die).filter (fun c => s.dutyDue c)
    .next ((cs.foldl (fun s c => s.onDuties c (fun d => Nat.min 8 (d + 1))) s).dutyNow cs)

end Sys2Proof.Machine
end

