-- ==== Sys2Proof/Machine/HostCxl.lean ====
section
/-! DEFINITION. The host's CXL.mem and AtomicOp requests at the far caches (R100 to R104), and far memory: its decoders, the host's snoops of
it and the completions of the die caches' requests (R105, R106). -/

namespace Sys2Proof.Machine

/-! ## Requests of the host (R100 to R102) -/

/-- Whether a port serves CXL.mem: the module READY, and the port trained as CXL with its MODE allowing it (R25, R30, R100). -/
def State.cxlServed (s : State) (iod : Nat) : Bool :=
  s.moduleReady && (iod == 20 || iod == 21) && lookup? iod s.boot.linkUp == some true && s.boot.cxlAllowed iod

/-- A request of the host that the 7480 does not support is answered as an unsupported request or with a completer abort (R30, R101); a
port whose link is down has no request. -/
def State.refuseHost (s : State) (iod pa : Nat) : State :=
  if (lookup? iod s.boot.linkUp).isSome then s.onCoh (fun c => { c with hostRefused := c.hostRefused ++ [(iod, pa)] }) else s

/-- Whether a port serves AtomicOps: the module READY and the port up (R30, R100). -/
def State.atomicsServed (s : State) (iod : Nat) : Bool :=
  s.moduleReady && (iod == 20 || iod == 21) && (lookup? iod s.boot.linkUp).isSome

/-- An access of the host at the far cache of its port (R102). -/
def hostAccess (iod id pa size : Nat) (kind : AccKind) (data : BitVec 512) (mask : BitVec 64) (comp : BitVec 128) (mv : Nat) : Access :=
  { id := id, who := .host iod, site := iod, kind := kind, va := 0, pa := pa, size := size, wdata := data, wmask := mask, comp := comp
    dest := [], signed := false, cls := 2, rep := false, mark := mv, acq := 0 }

/-- HOST_MEM_READ of a sector with a meta value: 0 I, 1 S, 2 A. A request that is not supported is answered so, with no effect
(R101, R102). -/
def execHostMemRead (iod pa : Nat) (mv : BitVec 2) (s : State) : Host.Outcome State Fault Refusal :=
  if !s.cxlServed iod || decide (localEnd ≤ pa) || mv == 3 then .next (s.refuseHost iod pa)
  else .next (s.queueAccesses [hostAccess iod s.fresh (pa / 64 * 64) 64 .read 0 0 0 mv.toNat])

/-- HOST_MEM_WRITE of the masked bytes of a sector (R102). -/
def execHostMemWrite (iod pa : Nat) (data : BitVec 512) (mask : BitVec 64) (s : State) : Host.Outcome State Fault Refusal :=
  if !s.cxlServed iod || decide (localEnd ≤ pa) then .next (s.refuseHost iod pa)
  else .next (s.queueAccesses [hostAccess iod s.fresh (pa / 64 * 64) 64 .write data mask 0 0])

/-- The widths in bytes of an AtomicOp that the 7480 supports (R100). -/
def atomicWidth (op : BitVec 2) (width : Nat) : Bool :=
  width == 4 || width == 8 || (op == 2 && width == 16)

/-- HOST_ATOMICOP: 0 FetchAdd, 1 Swap, 2 CAS of `y` with `x` (R100, R102). -/
def execHostAtomicop (iod : Nat) (op : BitVec 2) (pa width : Nat) (x y : BitVec 128) (s : State) : Host.Outcome State Fault Refusal :=
  if !s.atomicsServed iod || decide (localEnd ≤ pa) || op == 3 || !atomicWidth op width || decide (pa % width ≠ 0) then
    .next (s.refuseHost iod pa)
  else
    let opn := if op = 0 then 0 else if op = 1 then 6 else 8
    .next (s.queueAccesses [hostAccess iod s.fresh pa width (.atom opn 0) (BitVec.setWidth 512 x) 0 y 0])

/-! ## Back-invalidate snoops (R103, R104) -/

/-- The snoop of a sector outstanding at a far cache. -/
def State.snoopOf (s : State) (iod sec : Nat) : Option Snoop :=
  s.coh.snoops.find? (fun x => decide (x.iod = iod) && decide (x.sector = sec) && x.sent)

/-- Whether a far cache still owes the MRET of a mending whose MDONE has come (R104). -/
def State.mendOverdue (s : State) (iod sec : Nat) : Bool :=
  s.coh.heldReqs.any (fun h => decide (h.1 = iod) && decide (h.2.sec = sec) && h.2.opc == 0x30 && s.mendNote iod sec != some h.2.ser)

/-- The line of a sector once the host has answered: its data written back, unless that comes too late, and its state settled (R103, R104). -/
def Line.answered (l : Line) (inval late : Bool) (wb : Option (BitVec 512)) : Line :=
  let l := { l with hs := if inval then .i else .s }
  match wb with
  | some d => if late then l else { l with data := d, dirty := true }
  | none => l

/-- What waited for a snoop goes on, the snoop's own demand first among what is held; without a demand, an eviction is completed. -/
def State.afterSnoop (s : State) (x : Snoop) : State :=
  match x.demand with
  | some _ => s.releaseHeld x.iod x.sector
  | none =>
    let s := if x.inval && (s.firstAccess x.iod x.sector).isNone then s.evict x.iod x.sector else s
    s.releaseHeld x.iod x.sector

/-- The demand of a snoop put before what else the far cache holds for the sector. -/
def State.holdFirst (s : State) (x : Snoop) : State :=
  match x.demand with
  | some p => s.onCoh (fun c => { c with heldReqs := (x.iod, p) :: c.heldReqs })
  | none => s

/-- BIRSP: the host's answer to a snoop, with the data that it wrote back before it; what comes too late for a mending is discarded, and the
MRET still sent (R103, R104). -/
def execBirsp (iod sector : Nat) (wb : Option (BitVec 512)) (s : State) : Host.Outcome State Fault Refusal :=
  match s.snoopOf iod sector with
  | none => .next s
  | some x =>
    let s := ((s.onCoh (fun c => { c with snoops := c.snoops.erase x })).holdFirst x).snoopNext iod
    .next ((s.setLine iod sector ((s.line iod sector).answered x.inval (s.mendOverdue iod sector) wb)).afterSnoop x)

/-- HOST_SNOOP_TIMEOUT: after 40 µs the host-unresponsive event, once; the far cache goes on waiting (R104). -/
def execHostSnoopTimeout (iod sector : Nat) (s : State) : Host.Outcome State Fault Refusal :=
  match s.snoopOf iod sector with
  | none => .next s
  | some x =>
    if x.raised ∨ s.time < x.since + 40 * microsecond then .next s
    else
      let s := s.onCoh (fun c => { c with snoops := c.snoops.map (fun y => if y = x then { y with raised := true } else y) })
      .next (s.report 6 iod sector)

/-! ## Far memory (R105, R106) -/

/-- Whether a window may be enabled at a decoder: in far memory, not empty, apart from every other enabled window (R105). -/
def State.windowOk (s : State) (n base limit : Nat) : Bool :=
  decide (0x400 ≤ base) && decide (base ≤ limit) &&
  (List.range 8).all (fun m =>
    let b := lookupD m 0 s.mgmt.fmb
    let l := (lookupD m 0 s.mgmt.fml).toNat % 2 ^ 14
    decide (m = n) || !b.getLsbD 31 || decide (l < base) || decide (limit < b.toNat % 2 ^ 14))

/-- FMB_WRITE: refused where it would enable a bad or overlapping window (R105). -/
def execFmbWrite (n : Nat) (v : BitVec 32) (s : State) : Host.Outcome State Fault Refusal :=
  if 8 ≤ n then .next s
  else if v.getLsbD 31 && !s.windowOk n (v.toNat % 2 ^ 14) ((lookupD n 0 s.mgmt.fml).toNat % 2 ^ 14) then .next s.writeError
  else .next (s.onMgmt (fun m => { m with fmb := put n (v &&& 0x80003FFF) m.fmb }))

/-- FMLn written: refused where the window is enabled and would become bad (R105). -/
def State.writeFml (s : State) (n : Nat) (v : BitVec 32) : State :=
  let b := lookupD n 0 s.mgmt.fmb
  if b.getLsbD 31 && !s.windowOk n (b.toNat % 2 ^ 14) (v.toNat % 2 ^ 14) then s.writeError
  else s.onMgmt (fun m => { m with fml := put n (v &&& 0x3FFF) m.fml })

/-- What a port sends the host. -/
def State.toHost (s : State) (iod pa : Nat) (d : BitVec 512) : State := s.onCoh (fun c => { c with hostReads := c.hostReads ++ [(iod, pa, d)] })

/-- A die cache answers a host snoop: 0 SnpInv, 1 SnpData, 2 SnpCur (R100, R106). -/
def State.answerSnoop (s : State) (iod site sec : Nat) (op : BitVec 2) : State :=
  let l := s.line site sec
  let s := if l.far && (l.dirty || op == 2) then s.toHost iod (sec * 64) l.data else s
  if op = 0 then
    (s.setLine site sec Line.reset).onCoh (fun c => { c with farSnoop := c.farSnoop.filter (fun p => decide (p ≠ (site, sec))) })
  else if op = 1 && l.far then s.setLine site sec { l with hs := .s, dirty := false }
  else s

/-- HOST_SNOOP: forwarded to the die caches that may hold the sector, and answered when all have answered (R106). -/
def execHostSnoop (iod sector : Nat) (op : BitVec 2) (s : State) : Host.Outcome State Fault Refusal :=
  if !s.cxlServed iod || !isFarSec sector || op == 3 || decide (s.farIod (sector * 64) ≠ iod) then
    .next (s.refuseHost iod (sector * 64))
  else .next (((s.coh.farSnoop.filter (fun p => decide (p.2 = sector))).map Prod.fst).foldl (fun s site => s.answerSnoop iod site sector op) s)

/-- The snoop filter's entries of one I/O die: 131,072 sectors; the oldest gives way (R106). -/
def State.noteFarCopy (s : State) (site sec : Nat) : State :=
  if s.coh.farSnoop.contains (site, sec) then s
  else
    let mine := ((s.coh.farSnoop.filter (fun p => decide (s.farIod (p.2 * 64) = s.farIod (sec * 64)))).map Prod.snd).eraseDups
    let s := match mine with
      | old :: _ => if 131072 ≤ mine.length ∧ !mine.contains sec then
          (s.coh.farSnoop.filter (fun (p : Nat × Nat) => decide (p.2 = old))).foldl (fun (t : State) (p : Nat × Nat) => t.evict p.1 p.2) s else s
      | [] => s
    s.onCoh (fun c => { c with farSnoop := c.farSnoop ++ [(site, sec)] })

/-- CXL_CACHE_COMPLETION: the host ends a die cache's request, with the sector or with an error status; a read brings a shared copy, a
write or an atomic an owned one (R106). -/
def execCxlCacheCompletion (k : Nat) (err : Bool) (data : BitVec 512) (s : State) : Host.Outcome State Fault Refusal :=
  match nth? s.coh.cxlReqs k with
  | none => .next s
  | some a =>
    let s := s.onCoh (fun c => { c with cxlReqs := removeNth c.cxlReqs k })
    if err then .next (s.failAccess a 0x46)
    else
      let sec := sectorOf a.pa
      let s := (s.makeRoom a.site sec).noteFarCopy a.site sec
      let l := s.line a.site sec
      let l' := { l with
        far := true, dv := true, data := if l.far && l.dirty then l.data else data, dirty := l.far && l.dirty
        hs := if a.reads then .s else .e, used := s.time }
      .next ((if l.far then s.setLine a.site sec l' else s.fillLine a.site sec a.cls l').performAll a)

end Sys2Proof.Machine
end

