-- ==== Sys2Proof/Machine/Regs.lean ====
section
/-! DEFINITION. The registers of the module as they are written and read (R4, R107): the management register block, the control spaces of
the die managers, and those of the dispatchers. Spaces are numbered: 0 to 7 the die manager of a compute die, 8 to 15 its dispatcher,
20 the global dispatcher, 32 the management register block. -/

namespace Sys2Proof.Machine

/-- The state that a step which goes on leaves. -/
def carried (o : Host.Outcome State Fault Refusal) (s : State) : State :=
  match o with
  | .next t => t
  | .fault _ => s
  | .refused _ => s

/-! ## The host message rings (R112) -/

/-- The entries of each ring. -/
def Mgmt.ringSize (m : Mgmt) : Nat := 2 ^ (m.hmbLog.toNat + 4)
/-- The host address of the request ring. -/
def Mgmt.ringBase (m : Mgmt) : Nat := (m.hmbhi ++ m.hmblo).toNat / 4096 * 4096
/-- The host address of the index block. -/
def Mgmt.indexAt (m : Mgmt) : Nat := m.ringBase + 512 * m.ringSize

/-- The index block rewritten after a change (R112). -/
def Mgmt.writeIndex (m : Mgmt) : Mgmt :=
  { m with hostMem := writeCells m.indexAt (bytesOfNat 4 m.hmbCons.toNat ++ bytesOfNat 4 m.hmbRprod.toNat ++ List.replicate 56 0) m.hostMem }

/-- A message from its bytes (R109). -/
def msgOf (bs : List Byte) : EpMsg :=
  let x := natOfBytes (bs.take 16)
  let len := bitsAt x 64 16
  { dsock := bitsAt x 0 8, dep := bitsAt x 8 8, ssock := bitsAt x 16 8, sep := bitsAt x 24 8, typ := BitVec.ofNat 16 (bitsAt x 32 16)
    seq := BitVec.ofNat 16 (bitsAt x 48 16), len := len, sts := BitVec.ofNat 16 (bitsAt x 80 16), arg := BitVec.ofNat 32 (bitsAt x 96 32)
    body := (bs.drop 16).take len }

/-- The bytes of a message (R109). -/
def EpMsg.bytes (m : EpMsg) : List Byte :=
  bytesOfNat 16 (packBits [(8, m.dsock), (8, m.dep), (8, m.ssock), (8, m.sep), (16, m.typ.toNat), (16, m.seq.toNat), (16, m.len),
    (16, m.sts.toNat), (32, m.arg.toNat)]) ++ m.body

/-- Flits of 32 bytes. -/
def flitsOf : Nat → List Byte → List (BitVec 256)
  | 0, _ => []
  | n + 1, bs => if bs.isEmpty then [] else BitVec.ofNat 256 (natOfBytes (bs.take 32)) :: flitsOf n (bs.drop 32)

/-- A message as an interposer packet, a request or a reply (R110). -/
def EpMsg.packet (m : EpMsg) (src dst : Nat) (reply : Bool) : Packet :=
  let fs := flitsOf 8 m.bytes
  { Packet.blank with
    opc := if reply then 0x61 else 0x60, vcl := if reply then 1 else 0, dlen := fs.length, src := src, dst := dst % 32, rsock := src, data := fs }

/-- The message that a packet carries. -/
def Packet.message (p : Packet) : EpMsg := msgOf (p.data.flatMap (fun f => bytesOfNat 32 f.toNat))

/-- A request at its die: for the control endpoint, or for one that firmware serves (R109). -/
def State.takeMessage (s : State) (m : EpMsg) : State :=
  if m.dep = 0 then s.onMgmt (fun g => { g with requests := g.requests ++ [m] })
  else s.onMgmt (fun g => { g with delivered := g.delivered ++ [m] })

/-- A request handed to its die: at once on I/O die 20 itself, else across the interposer. -/
def State.sendRequest (s : State) (src : Nat) (m : EpMsg) : State :=
  if m.dsock = src then s.takeMessage m else s.send (m.packet src m.dsock false)

/-- Whether the 7480 takes another request from the ring: one is published, and fewer replies wait than the ring holds. -/
def Mgmt.mayTake (m : Mgmt) : Bool := m.hmbEn && m.hmbProd != m.hmbCons && decide (m.replies.length < m.ringSize)

/-- Published requests taken in order; n bounds their number. -/
def takeRequests : Nat → State → State
  | 0, s => s
  | n + 1, s =>
    let m := s.mgmt
    if !m.mayTake then s
    else
      let r := msgOf (readCells (m.ringBase + 256 * (m.hmbCons.toNat % m.ringSize)) m.hostMem 256)
      takeRequests n ((s.onMgmt (fun g => { g with hmbCons := g.hmbCons + 1 })).sendRequest 20 { r with ssock := 255 })

/-- Requests taken, and the index block rewritten where CONS has moved. -/
def State.serveRing (s : State) : State :=
  let t := takeRequests (s.mgmt.hmbProd - s.mgmt.hmbCons).toNat s
  if t.mgmt.hmbCons = s.mgmt.hmbCons then t else t.onMgmt Mgmt.writeIndex

/-- HMBCTL written: a LOG above 0xC is refused, LOG is ignored while EN is 1, EN set anew sets CONS and RPROD (R112). -/
def State.writeHmbctl (s : State) (v : BitVec 32) : State :=
  if 0xC < v.toNat % 16 then s.writeError
  else
    let was := s.mgmt.hmbEn
    let s := s.onMgmt (fun m => { m with
      hmbLog := if was then m.hmbLog else v.extractLsb' 0 4, hmbEn := v.getLsbD 4, hmbProd := v.extractLsb' 16 16 })
    let s := if v.getLsbD 4 && !was then s.onMgmt (fun m => { m with hmbCons := m.hmbProd, hmbRprod := m.hmbRcons }.writeIndex) else s
    s.serveRing

/-- HMB_ENABLE (R112). -/
def execHmbEnable (v : BitVec 32) (s : State) : Host.Outcome State Fault Refusal :=
  if s.moduleReady && v.getLsbD 4 && !s.mgmt.hmbEn then .next (s.writeHmbctl v) else .next s

/-- HMB_DOORBELL: PROD written while the rings are active (R112). -/
def execHmbDoorbell (v : BitVec 32) (s : State) : Host.Outcome State Fault Refusal :=
  if s.moduleReady && v.getLsbD 4 && s.mgmt.hmbEn then .next (s.writeHmbctl v) else .next s

/-- HMBRC written: reply entries are freed (R112). -/
def State.writeHmbrc (s : State) (v : BitVec 32) : State := (s.onMgmt (fun m => { m with hmbRcons := v.extractLsb' 0 16 })).serveRing

/-- HMB_REPLY_CONSUME (R112). -/
def execHmbReplyConsume (v : BitVec 32) (s : State) : Host.Outcome State Fault Refusal :=
  if s.moduleReady then .next (s.writeHmbrc v) else .next s

/-! ## Events (R118, R119, R121) -/

/-- An entry of the routing table; without section 0x0006 the host owns every class (R26). -/
def State.route (s : State) (c : Nat) : BitVec 32 := lookupD c 1 s.mgmt.ert

/-- ERTDAT written: ignored where LOCK is set, refused unless bits [24:0] hold exactly one 1 (R118, R119). -/
def State.writeErtdat (s : State) (v : BitVec 32) : State :=
  let c := s.mgmt.ertidx.toNat
  if (s.route c).getLsbD 31 then s
  else if !oneOwner v.toNat then s.writeError
  else s.onMgmt (fun m => { m with ert := put c (v &&& 0x81FFFFFF) m.ert })

/-- ERTDAT_WRITE (R119). -/
def execErtdatWrite (v : BitVec 32) (s : State) : Host.Outcome State Fault Refusal :=
  if s.moduleReady then .next (s.writeErtdat v) else .next s

/-- EVRING_WRITE: a service core (owner 1 to 16) or a die manager (17 to 24) gives its ring's address (R121). -/
def execEvringWrite (owner : Nat) (v : BitVec 64) (s : State) : Host.Outcome State Fault Refusal :=
  if s.moduleReady ∧ 1 ≤ owner ∧ owner ≤ 24 then .next (s.onMgmt (fun m => { m with evring := put owner v m.evring })) else .next s

/-- EVSZ written: LOG outside 6 to 20 is refused; LOG is ignored while EN is 1 (R121). -/
def State.writeEvsz (s : State) (v : BitVec 32) : State :=
  let log := v.extractLsb' 0 5
  if log.toNat < 6 ∨ 20 < log.toNat then s.writeError
  else s.onMgmt (fun m => { m with evLog := if m.evEn then m.evLog else log, evEn := v.getLsbD 31 })

/-! ## The management register block (R107) -/

/-- The code of a phase in BOOTST (R29). -/
def Phase.code : Phase → Nat
  | .power => 0 | .rom => 1 | .config => 2 | .links => 3 | .memory => 4 | .managers => 5 | .ready => 6 | .recovery => 15

/-- BOOTST (R31). -/
def Boot.bootst (b : Boot) : BitVec 32 :=
  BitVec.ofNat 32 (packBits [(4, b.phase.code), (4, 0), (8, b.err.toNat), (5, b.sock.toNat), (1, bit b.sockv), (1, bit b.idok), (1, bit b.cfgok)])

/-- XERR as read (R43). -/
def Xerr.word (x : Xerr) : BitVec 32 := x.ldown ++ x.disc ++ x.rply ++ x.crce

/-- XERR written: the counters take the values written (R43). -/
def Xerr.write (x : Xerr) (v : BitVec 32) : Xerr :=
  { x with crce := v.extractLsb' 0 12, rply := v.extractLsb' 12 8, disc := v.extractLsb' 20 7 }

/-- NSTAT of a plane (R72). -/
def Fabric.nstat (f : Fabric) (p : Nat) : BitVec 32 :=
  BitVec.ofNat 32 (packBits [(1, bit (f.up.getLsbD p)), (1, bit (f.dup.getLsbD p)), (6, 0), (8, (lookupD p 0 f.spn).toNat), (16, (lookupD p 0 f.cmk).toNat)])

/-- Whether an offset of the block is in service in this phase (R30, R33). -/
def State.blockOpen (s : State) (off : Nat) : Bool :=
  let recovery := decide (s.boot.phase = .recovery)
  if 0x8000 ≤ off ∨ off = 0xA00 ∨ off = 0xA04 then recovery
  else s.moduleReady || decide (off = 0) || (decide (0x100 ≤ off) && decide (off < 0x158)) || decide (off = 0x600) ||
    (decide (0x800 ≤ off) && decide (off < 0x900))

/-- Whether an offset is one of n words from a base. -/
def inWords (off base n : Nat) : Bool := decide (base ≤ off) && decide (off < base + 4 * n)

/-- A 32-bit word of a 256-bit register. -/
def wordOf (x : BitVec 256) (i : Nat) : BitVec 32 := BitVec.ofNat 32 (bitsAt x.toNat (32 * i) 32)

/-- The staging buffer's offset that the recovery window shows (R33). -/
def Boot.stagingAt (b : Boot) (off : Nat) : Nat := 32768 * b.page.toNat + (off - 0x8000)

/-- A register of the block as read, where it is in service. -/
def State.blockRead (s : State) (off : Nat) : BitVec 32 :=
  let m := s.mgmt
  if off = 0 then s.boot.bootst
  else if inWords off 0x100 22 then (s.xerrOf ((off - 0x100) / 4)).word
  else if off = 0x200 then BitVec.ofNat 32 (s.fab.nmod.toNat + 256 * bit s.fab.lock)
  else if off = 0x204 then BitVec.ofNat 32 (bit s.fab.en)
  else if off = 0x208 then s.fab.live ++ s.fab.map
  else if inWords off 0x210 8 then s.fab.nstat ((off - 0x210) / 4)
  else if inWords off 0x300 16 then (if off % 8 = 0 then lookupD ((off - 0x300) / 8) 0 m.fmb else lookupD ((off - 0x300) / 8) 0 m.fml)
  else if off = 0x400 then m.hmblo
  else if off = 0x404 then m.hmbhi
  else if off = 0x408 then BitVec.ofNat 32 (packBits [(4, m.hmbLog.toNat), (1, bit m.hmbEn), (11, 0), (16, m.hmbProd.toNat)])
  else if off = 0x40C then BitVec.setWidth 32 m.hmbRcons
  else if off = 0x500 then BitVec.setWidth 32 m.ertidx
  else if off = 0x504 then s.route m.ertidx.toNat
  else if off = 0x510 then m.evbl
  else if off = 0x514 then m.evbh
  else if off = 0x518 then BitVec.ofNat 32 (m.evLog.toNat + 2 ^ 31 * bit m.evEn)
  else if off = 0x51C then m.evPi
  else if off = 0x520 then m.evCi
  else if inWords off 0x700 22 then BitVec.setWidth 32 (lookupD ((off - 0x700) / 4) 0 m.dieState)
  else if inWords off 0x800 64 then wordOf (s.mrOf ((off - 0x800) / 32)) ((off - 0x800) / 4 % 8)
  else if off = 0xA00 then BitVec.setWidth 32 s.boot.page
  else if off = 0xA04 then BitVec.ofNat 32 (packBits [(1, 0), (1, bit s.boot.busy), (6, 0), (8, s.boot.res.toNat)])
  else if inWords off 0x8000 8192 then BitVec.ofNat 32 (readNum (s.boot.stagingAt off) 4 s.boot.staging)
  else 0

/-- A register of the management register block as read; offsets not assigned or not in service read zero (R30, R107). -/
def State.readBlock (s : State) (off : Nat) : BitVec 32 := if s.blockOpen off && decide (off % 4 = 0) then s.blockRead off else 0

/-- NCTL written (R71). -/
def State.writeNctl (s : State) (v : BitVec 32) : State := carried (if v.getLsbD 0 then execNctlEnSet s else execNctlEnClear s) s

/-- A register of the block written, where it is in service; read-only ones and offsets not assigned ignore the write (R4, R107). -/
def State.blockWrite (s : State) (off : Nat) (v : BitVec 32) : State :=
  if inWords off 0x100 22 then s.onXerr ((off - 0x100) / 4) (fun x => x.write v)
  else if off = 0x200 then carried (execNmodWrite v s) s
  else if off = 0x204 then s.writeNctl v
  else if off = 0x208 then carried (execNpmapWrite v s) s
  else if inWords off 0x210 8 then s.onFab (fun f => { f with cmk := put ((off - 0x210) / 4) (v.extractLsb' 16 16) f.cmk })
  else if inWords off 0x300 16 then
    (if off % 8 = 0 then carried (execFmbWrite ((off - 0x300) / 8) v s) s else s.writeFml ((off - 0x300) / 8) v)
  else if off = 0x400 then s.onMgmt (fun m => if m.hmbEn then m else { m with hmblo := v &&& 0xFFFFF000 })
  else if off = 0x404 then s.onMgmt (fun m => if m.hmbEn then m else { m with hmbhi := v })
  else if off = 0x408 then s.writeHmbctl v
  else if off = 0x40C then s.writeHmbrc v
  else if off = 0x500 then s.onMgmt (fun m => { m with ertidx := v.extractLsb' 0 8 })
  else if off = 0x504 then s.writeErtdat v
  else if off = 0x510 then s.onMgmt (fun m => if m.evEn then m else { m with evbl := v &&& 0xFFFFF000 })
  else if off = 0x514 then s.onMgmt (fun m => if m.evEn then m else { m with evbh := v })
  else if off = 0x518 then s.writeEvsz v
  else if off = 0x520 then s.onMgmt (fun m => { m with evCi := v })
  else if off = 0x600 then carried (execRstctlWarm v s) s
  else if off = 0xA00 then s.onBoot (fun b => { b with page := v.extractLsb' 0 3 })
  else if off = 0xA04 then carried (execRcvctlGo v s) s
  else if inWords off 0x8000 8192 then s.onBoot (fun b => { b with staging := writeCells (b.stagingAt off) (bytesOfNat 4 v.toNat) b.staging })
  else s

/-- A write of the management register block (R30, R107). -/
def State.writeBlock (s : State) (off : Nat) (v : BitVec 32) : State :=
  if s.blockOpen off && decide (off % 4 = 0) && !s.boot.faultOff then s.blockWrite off v else s

/-! ## Die barrier slots (R229) -/

/-- Whether a slot of a die (0 to 7) or of the device (20) is busy. -/
def State.dbBusy (s : State) (die n : Nat) : Bool :=
  match s.slot? (diePlace die) (dbLevel die) n with
  | some b => b.busy
  | none => false

/-- DBE written: 0 is refused, and it is ignored while busy. -/
def State.writeDbe (s : State) (die n : Nat) (v : BitVec 32) : State :=
  if v.extractLsb' 0 24 = 0 then s.writeError
  else if s.dbBusy die n then s
  else s.setDbReg die n { s.dbReg (diePlace die) (dbLevel die) n with exp := v.extractLsb' 0 24 }

/-- DBA written: ignored while busy. -/
def State.writeDba (s : State) (die n : Nat) (v : BitVec 32) : State :=
  if s.dbBusy die n then s else s.setDbReg die n { s.dbReg (diePlace die) (dbLevel die) n with asid := v.extractLsb' 0 8 }

/-- A register of a slot written: DBC, DBE, DBA, DBS. -/
def State.writeDb (s : State) (die n reg : Nat) (v : BitVec 32) : State :=
  if dbSlots die ≤ n then s
  else if reg = 0 then carried (execDbcEnWrite die n v s) s
  else if reg = 1 then s.writeDbe die n v
  else if reg = 2 then s.writeDba die n v
  else if v.getLsbD 16 then carried (execDbsBrkClear die n s) s
  else s

/-- DBS of a slot (R229). -/
def BarSlot.status (b : BarSlot) : BitVec 32 := BitVec.ofNat 32 (packBits [(16, b.gen.toNat), (1, bit b.brk), (1, bit b.busy)])

/-- A register of a slot as read. -/
def State.readDb (s : State) (die n reg : Nat) : BitVec 32 :=
  let r := s.dbReg (diePlace die) (dbLevel die) n
  if dbSlots die ≤ n then 0
  else if reg = 0 then BitVec.ofNat 32 (bit r.en + 2 * r.cmask.toNat)
  else if reg = 1 then BitVec.setWidth 32 r.exp
  else if reg = 2 then BitVec.setWidth 32 r.asid
  else match s.slot? (diePlace die) (dbLevel die) n with
    | some b => b.status
    | none => 0

/-! ## The control space of a die manager -/

/-- FRES written: a free slot is ignored (R196). -/
def State.writeFres (s : State) (die : Nat) (v : BitVec 32) : State :=
  carried (if v.getLsbD 8 then execFresDeliver die (v.extractLsb' 0 8) s else execFresRetry die (v.extractLsb' 0 8) s) s

/-- SMPSZ written: outside 10 to 24 refused; ignored while sampling or stamps are on (R266). -/
def State.writeSmpsz (s : State) (die : Nat) (v : BitVec 32) : State :=
  let log := v.extractLsb' 0 5
  if log.toNat < 10 ∨ 24 < log.toNat then s.writeError
  else s.onObs die (fun o => if o.locked then o else { o with log := log })

/-- A register of a die manager's control space written. -/
def State.writeDieReg (s : State) (die off : Nat) (v : BitVec 32) : State :=
  if inWords off 0x2000 512 then
    carried (if off % 8 = 0 then execAsrlWrite die ((off - 0x2000) / 8) v s else execAsrhWrite die ((off - 0x2000) / 8) v s) s
  else if off = 0x3000 then s.writeFres die v
  else if off = 0x3100 then s.writeWsctl die v
  else if inWords off 0x3200 128 then s.writeDb die ((off - 0x3200) / 16) (off / 4 % 4) v
  else if off = 0x3400 then s.writeSmpctl die v
  else if off = 0x3404 then s.onObs die (fun o => if o.locked then o else { o with base := o.base.extractLsb' 32 12 ++ (v &&& 0xFFFFFFC0) })
  else if off = 0x3408 then s.onObs die (fun o => if o.locked then o else { o with base := v.extractLsb' 0 12 ++ o.base.extractLsb' 0 32 })
  else if off = 0x340C then s.writeSmpsz die v
  else if off = 0x3414 then s.onObs die (fun o => { o with ci := v })
  else if off = 0x3418 then s.onObs die (fun o => { o with lost := v })
  else if off = 0x3500 then s.onObs die (fun o => { o with trc := v.extractLsb' 0 25 })
  else if off = 0x3600 then s.writeDbgctl die v
  else if off = 0x3604 then s.onObs die (fun o => { o with bp := v })
  else s

/-- ASRL of an address space (R189). -/
def AsRoot.low (r : AsRoot) : BitVec 32 := BitVec.ofNat 32 (packBits [(1, bit r.en), (1, bit r.pfs), (12, 0), (18, bitsAt r.root.toNat 14 18)])

/-- SMPCTL as read (R266). -/
def Observe.smpctl (o : Observe) : BitVec 32 := BitVec.ofNat 32 (packBits [(1, bit o.en), (1, bit o.tsen), (5, o.per.toNat), (5, o.cur.toNat)])

/-- A register of a die manager's control space as read. -/
def State.readDieReg (s : State) (die off : Nat) : BitVec 32 :=
  let o := (s.die die).obs
  if inWords off 0x2000 512 then
    let r := lookupD ((off - 0x2000) / 8) AsRoot.reset (s.die die).roots
    if off % 8 = 0 then r.low else BitVec.setWidth 32 r.staged
  else if off = 0x3100 then s.readWsctl die
  else if inWords off 0x3200 128 then s.readDb die ((off - 0x3200) / 16) (off / 4 % 4)
  else if off = 0x3400 then o.smpctl
  else if off = 0x3404 then o.base.extractLsb' 0 32
  else if off = 0x3408 then BitVec.setWidth 32 (o.base.extractLsb' 32 12)
  else if off = 0x340C then BitVec.setWidth 32 o.log
  else if off = 0x3410 then o.pi
  else if off = 0x3414 then o.ci
  else if off = 0x3418 then o.lost
  else if off = 0x3500 then BitVec.setWidth 32 o.trc
  else if off = 0x3600 then BitVec.ofNat 32 (packBits [(1, bit o.stop), (1, bit o.bpen), (8, o.dbgAsid.toNat)])
  else if off = 0x3604 then o.bp
  else 0

/-- The code of a role in the segment map (R163). -/
def Role.code : Role → Nat
  | .reg => 0 | .cch => 1 | .mxs => 2 | .scr => 3

/-- An entry of a core's segment map, as the die manager reads it (R163). -/
def Segment.word (g : Segment) : BitVec 32 :=
  BitVec.ofNat 32 (packBits [(2, g.role.code), (1, bit g.wrg), (6, g.own.getD 0), (1, bit g.own.isSome), (5, g.idx)])

/-! ## The control space of a dispatcher -/

/-- Whether an area of device memory reaches into the empty row or far memory that no window claims, judged at its GiB units and its
end (R264). -/
def State.areaBad (s : State) (pa size : Nat) : Bool :=
  (List.range (size / 2 ^ 30 + 2)).any (fun i =>
    let a := Nat.min (pa + i * 2 ^ 30) (pa + size - 1)
    decide (0 < size) && (decide (2 ^ 44 ≤ a) || emptyRow a || (decide (farBase ≤ a) && (s.farWindow a).isNone)))

/-- A queue's dump area replaced, unless it would lie where none may (R264). -/
def State.setDumpArea (s : State) (disp n : Nat) (q : Queue) : State :=
  if s.areaBad q.dumpPa (q.dumpSize.toNat * 4096) then s.writeError else s.setQueue disp n q

/-- A register of a dump area written: QDL, QDH, QDS (R264). -/
def State.writeDump3 (s : State) (disp n reg : Nat) (v : BitVec 32) : State :=
  let q := s.queue disp n
  if !hasQueue disp n then s
  else if reg = 0 then s.setDumpArea disp n { q with dumpLo := v &&& 0xFFFFFF80 }
  else if reg = 1 then s.setDumpArea disp n { q with dumpHi := v.extractLsb' 0 12 }
  else if reg = 2 then s.setDumpArea disp n { q with dumpSize := v.extractLsb' 0 20 }
  else s

/-- A register of a queue written: QCFG, QBL, QBH, QAS; all but the first are ignored while the queue is enabled (R132, R189). -/
def State.writeQueueReg (s : State) (disp n reg : Nat) (v : BitVec 32) : State :=
  let q := s.queue disp n
  if !hasQueue disp n then s
  else if reg = 0 then s.writeQcfg disp n v
  else if q.en then s
  else if reg = 1 then s.setQueue disp n { q with base := q.base.extractLsb' 32 25 ++ (v &&& 0xFFFFFFC0) }
  else if reg = 2 then s.setQueue disp n { q with base := v.extractLsb' 0 25 ++ q.base.extractLsb' 0 32 }
  else s.setQueue disp n { q with asid := v.extractLsb' 0 8 }

/-- A register of a dispatcher's control space written; `disp` is 0 to 7, or 20. -/
def State.writeDispReg (s : State) (disp off : Nat) (v : BitVec 32) : State :=
  if off < 0x400 then s.writeQueueReg disp (off / 16) (off / 4 % 4) v
  else if disp < 8 ∧ off = 0x400 then carried (execPereqSubmit disp v s) s
  else if disp < 8 ∧ inWords off 0x500 48 then
    s.onDisp disp (fun d => { d with weights := (List.range 4).foldl (fun w i => put (off - 0x500 + i) (BitVec.ofNat 8 (bitsAt v.toNat (8 * i) 8)) w) d.weights })
  else if disp = 20 ∧ inWords off 0x600 64 then s.writeDb 20 ((off - 0x600) / 16) (off / 4 % 4) v
  else if 0x800 ≤ off then s.writeDump3 disp ((off - 0x800) / 16) (off / 4 % 4) v
  else s

/-- The code of a stage in PESTAT (R142). -/
def PeStage.code : PeStage → Nat
  | .idle => 0 | .queued => 1 | .halting => 2 | .saving => 3 | .done => 4 | .late => 5 | .none => 6

/-- PESTAT as read (R142). -/
def Pestat.word (p : Pestat) : BitVec 32 := BitVec.ofNat 32 (packBits [(3, p.st.code), (1, bit p.trim), (8, p.got.toNat)])

/-- QCFG as read (R132). -/
def Queue.qcfg (q : Queue) : BitVec 32 := BitVec.ofNat 32 (packBits [(1, bit q.en), (4, q.log.toNat), (1, bit q.thrm), (2, 0), (8, q.errc.toNat)])

/-- A register of a queue as read. -/
def Queue.reg (q : Queue) (reg : Nat) : BitVec 32 :=
  if reg = 0 then q.qcfg else if reg = 1 then q.base.extractLsb' 0 32 else if reg = 2 then BitVec.setWidth 32 (q.base.extractLsb' 32 25)
  else BitVec.setWidth 32 q.asid

/-- A register of a dump area as read. -/
def Queue.dumpReg (q : Queue) (reg : Nat) : BitVec 32 :=
  if reg = 0 then q.dumpLo else if reg = 1 then BitVec.setWidth 32 q.dumpHi else if reg = 2 then BitVec.setWidth 32 q.dumpSize else 0

/-- A register of a dispatcher's control space as read. -/
def State.readDispReg (s : State) (disp off : Nat) : BitVec 32 :=
  let d := s.dispatcher disp
  if off < 0x400 then (if hasQueue disp (off / 16) then (s.queue disp (off / 16)).reg (off / 4 % 4) else 0)
  else if disp < 8 ∧ inWords off 0x404 4 then (s.pestatOf disp ((off - 0x404) / 4)).word
  else if disp < 8 ∧ inWords off 0x500 48 then
    BitVec.ofNat 32 (packBits ((List.range 4).map (fun i => (8, (lookupD (off - 0x500 + i) 0 d.weights).toNat))))
  else if disp = 20 ∧ inWords off 0x600 64 then s.readDb 20 ((off - 0x600) / 16) (off / 4 % 4)
  else if 0x800 ≤ off then (if hasQueue disp ((off - 0x800) / 16) then (s.queue disp ((off - 0x800) / 16)).dumpReg (off / 4 % 4) else 0)
  else 0

/-! ## Any register -/

/-- A register written, by space and offset; control spaces are in service once the module is READY (R29). -/
def State.writeReg (s : State) (space off : Nat) (v : BitVec 32) : State :=
  if space = 32 then s.writeBlock off v
  else if !s.moduleReady || decide (off % 4 ≠ 0) then s
  else if space < 8 then s.writeDieReg space off v
  else if space < 16 then s.writeDispReg (space - 8) off v
  else if space = 20 then s.writeDispReg 20 off v
  else s

/-- A register of a core's block of its die manager's control space: entry s of the segment map at 0x1000 + 4 × s (R163). -/
def State.readCoreReg (s : State) (c : CoreId) (off : Nat) : BitVec 32 :=
  if inWords off 0x1000 40 then
    (match nth? (s.core c).segs ((off - 0x1000) / 4) with | some g => g.word | none => 0)
  else 0

/-- A register as read, by space and offset; the blocks of the cores of the dies follow as spaces from 64 (log 149). -/
def State.readReg (s : State) (space off : Nat) : BitVec 32 :=
  if space = 32 then s.readBlock off
  else if !s.moduleReady || decide (off % 4 ≠ 0) then 0
  else if space < 8 then s.readDieReg space off
  else if space < 16 then s.readDispReg (space - 8) off
  else if space = 20 then s.readDispReg 20 off
  else if 64 ≤ space ∧ space < 64 + 8 * 192 then s.readCoreReg ⟨(space - 64) / 192, (space - 64) % 192⟩ off
  else 0

/-- REG_WRITE: its RW fields take the value, W1C fields are cleared, or the write is refused (R4). -/
def execRegWrite (space off : Nat) (v : BitVec 32) (s : State) : Host.Outcome State Fault Refusal := .next (s.writeReg space off v)

end Sys2Proof.Machine
end

