-- ==== Sys2Proof/Machine/Mgmt.lean ====
section
/-! DEFINITION. Die endpoints and their messages (R109 to R112), unmapping (R193), die states (R113, R114, R148), events on their way to their
owners (R118 to R121), and attestation (R122 to R125). -/

namespace Sys2Proof.Machine

/-! ## Requests and replies (R109 to R111) -/

/-- Who sends a request. -/
inductive Sender where
  | host | dieManager | serviceCore | other
  deriving DecidableEq, Repr

/-- The sender of a message, by its source socket (R109, R111). -/
def EpMsg.sender (m : EpMsg) : Sender :=
  if m.ssock = 255 then .host else if m.ssock ≤ 7 then .dieManager else if m.ssock = 20 ∨ m.ssock = 21 then .serviceCore else .other

/-- The reply to a message: its status, ARG and body. -/
def EpMsg.answer (m : EpMsg) (sts : Nat) (arg : BitVec 32) (body : List Byte) : EpMsg :=
  { m with dsock := m.ssock, dep := m.sep, ssock := m.dsock, sep := m.dep, sts := BitVec.ofNat 16 sts, arg := arg, len := body.length, body := body }

/-- A reply that has reached the die of its destination: the host's on I/O die 20 wait for the reply ring. -/
def State.takeReply (s : State) (m : EpMsg) : State :=
  if m.dsock = 255 then s.onMgmt (fun g => { g with replies := g.replies ++ [m] })
  else s.onMgmt (fun g => { g with delivered := g.delivered ++ [m] })

/-- A reply sent from a die. -/
def State.sendReply (s : State) (m : EpMsg) : State :=
  let dst := if m.dsock = 255 then 20 else m.dsock
  if dst = m.ssock then s.takeReply m else s.send (m.packet m.ssock dst true)

/-- A reply of a status. -/
def State.reply (s : State) (m : EpMsg) (sts : Nat) (arg : BitVec 32 := 0) (body : List Byte := []) : State := s.sendReply (m.answer sts arg body)

/-- EPRQ: a request reaches its die, for the control endpoint or for one that firmware serves (R109, R110). -/
def execEprq (s : State) : Host.Outcome State Fault Refusal :=
  onPacket 0x60 (fun d p s => s.takeMessage { p.message with dsock := d }) s

/-- EPRS: a reply reaches its die (R110). -/
def execEprs (s : State) : Host.Outcome State Fault Refusal := onPacket 0x61 (fun _ p s => s.takeReply p.message) s

/-- The waiting request that `pick` names, where it is of a type. -/
def State.request? (s : State) (typ : BitVec 16) : Option EpMsg :=
  match nth? s.mgmt.requests s.pick with
  | some m => if m.typ = typ then some m else none
  | none => none

/-- The state without the waiting request that `pick` names. -/
def State.takeRequest (s : State) : State := s.onMgmt (fun g => { g with requests := removeNth g.requests s.pick })

/-- A request carried out, where its source is on the list of its type; else it is answered DENIED (R111). -/
def onRequest (typ : BitVec 16) (who : List Sender) (f : EpMsg → State → State) (s : State) : Host.Outcome State Fault Refusal :=
  match s.request? typ with
  | none => .next s
  | some m => if who.contains m.sender then .next (f m s) else .next (s.takeRequest.reply m 2)

/-- Every source. -/
def anyone : List Sender := [.host, .dieManager, .serviceCore, .other]

/-- PING (R111). -/
def execPing (s : State) : Host.Outcome State Fault Refusal := onRequest 0x0001 anyone (fun m s => s.takeRequest.reply m 0) s

/-- REGRD: the register's value is the reply's body (R111). -/
def execRegrd (s : State) : Host.Outcome State Fault Refusal :=
  onRequest 0x0010 [.host, .dieManager] (fun m s => s.takeRequest.reply m 0 m.arg (bytesOfNat 4 (s.readBlock m.arg.toNat).toNat)) s

/-- The first body word of a message. -/
def EpMsg.word0 (m : EpMsg) : BitVec 32 := BitVec.ofNat 32 (natOfBytes (m.body.take 4))

/-- REGWR (R111). -/
def execRegwr (s : State) : Host.Outcome State Fault Refusal :=
  onRequest 0x0011 [.host] (fun m s => (s.takeRequest.writeBlock m.arg.toNat m.word0).reply m 0 m.arg) s

/-- The types that R111 defines. -/
def knownTypes : List (BitVec 16) := [0x0001, 0x0010, 0x0011, 0x0020, 0x0021, 0x0022, 0x0030, 0x0031, 0x0040, 0x0050, 0x0051, 0x0052]

/-- ENDPOINT_BADTYPE (R111). -/
def execEndpointBadtype (s : State) : Host.Outcome State Fault Refusal :=
  match nth? s.mgmt.requests s.pick with
  | none => .next s
  | some m => if knownTypes.contains m.typ then .next s else .next (s.takeRequest.reply m 4)

/-- Whether the reply ring has room: at most 65,535 entries of a ring are in use (R112). -/
def Mgmt.replyRoom (m : Mgmt) : Bool := m.hmbEn && decide ((m.hmbRprod - m.hmbRcons).toNat < Nat.min m.ringSize 65535)

/-- REPLY_WRITE: the oldest reply for the host is written and RPROD published; then further requests may be taken (R112). -/
def execReplyWrite (s : State) : Host.Outcome State Fault Refusal :=
  match s.mgmt.replies with
  | [] => .next s
  | r :: rest =>
    if !s.mgmt.replyRoom then .next s
    else
      let s := s.onMgmt (fun m =>
        let at' := m.ringBase + 256 * m.ringSize + 256 * (m.hmbRprod.toNat % m.ringSize)
        { m with replies := rest, hostMem := writeCells at' r.bytes m.hostMem, hmbRprod := m.hmbRprod + 1 }.writeIndex)
      .next s.serveRing

/-! ## Pages named by messages (R66, R111, R193) -/

/-- The virtual address of a message's body. -/
def EpMsg.va (m : EpMsg) : Nat := natOfBytes (m.body.take 8)
/-- The address space of a message's body. -/
def EpMsg.asid (m : EpMsg) : BitVec 8 := BitVec.ofNat 8 (natOfBytes ((m.body.drop 8).take 1))

/-- A leaf as its table holds it: the address of the table, the level, the entry; V may have been cleared already. -/
structure LeafAt where
  table : Nat
  level : Nat
  entry : Nat
  deriving DecidableEq, Repr

/-- The leaf of an address; none where the tables have none, or the sector that must come to rest first. -/
def leafFrom (s : State) (site va : Nat) : Nat → Nat → Except Nat (Option LeafAt)
  | 0, _ => .ok none
  | n + 1, table =>
    let level := 3 - n
    match s.readPte site (table + 8 * (va / 2 ^ (45 - 11 * level) % 2048)) with
    | .error (.wait sec) => .error sec
    | .error _ => .ok none
    | .ok e =>
      if pteLeaf e then (if sizeSuits level (pteSize e) then .ok (some ⟨table, level, e⟩) else .ok none)
      else if !pteValid e then .ok none
      else leafFrom s site va n (pteOut e % 2 ^ 44)

/-- The leaf of an address in an address space, under the roots of a die. -/
def State.leafOf (s : State) (die : Nat) (asid : BitVec 8) (va : Nat) : Except Nat (Option LeafAt) :=
  leafFrom s die va 4 (s.asRoot die asid).root.toNat

/-- The addresses of the entries of a leaf's page, that of the address named last (R190). -/
def LeafAt.entries (l : LeafAt) (va : Nat) : List Nat :=
  let cover := 2 ^ (45 - 11 * l.level)
  let n := Nat.max 1 (pageBytes l.entry / cover)
  let own := va / cover % 2048
  let first := own / n * n
  ((List.range n).map (fun i => first + i)).filter (fun i => decide (i ≠ own)) |>.map (fun i => l.table + 8 * i) |> (· ++ [l.table + 8 * own])

/-- V cleared in entries, one after another; or the sector that must come to rest first, with what has been cleared. -/
def State.clearEntries (s : State) (site : Nat) : List Nat → Except (Nat × State) State
  | [] => .ok s
  | a :: t =>
    match s.physRead site 0 a 1 with
    | .error (.wait sec _) => .error (sec, s)
    | .error (.fault _) => s.clearEntries site t
    | .ok bs =>
      match s.physWrite site 0 a (bs.map (fun (b : Byte) => b &&& 0xFE)) with
      | .error (.wait sec _) => .error (sec, s)
      | .error (.fault _) => s.clearEntries site t
      | .ok u => u.clearEntries site t

/-- The page removed from every TLB and walk cache of the module (R193). -/
def State.shootDown (s : State) (asid : BitVec 8) (va : Nat) : State :=
  let keep (e : TlbEntry) : Bool := !e.covers asid va
  let keys := (List.range 4).map (fun l => walkKey l va)
  { s with
    cores := s.cores.map (fun (c : CoreId × Core) => (c.1, { c.2 with tlb := c.2.tlb.filter keep }))
    clusters := s.clusters.map (fun (c : (Nat × Nat) × Cluster) => (c.1, { c.2 with tlb := c.2.tlb.filter keep }))
    dies := s.dies.map (fun (d : Nat × Die) => (d.1, { d.2 with walkCache := d.2.walkCache.filter (fun w => !(w.1 == asid && keys.contains w.2.1)) })) }

/-- The part of a page's 52-bit address that local accesses name; none where another module holds the page. -/
def State.ownPage (s : State) (base : Nat) : Option Nat := if base / 2 ^ 44 = s.nmod then some (base % 2 ^ 44) else none

/-- Whether a physical address lies in a page. -/
def inPage (base size pa : Nat) : Bool := decide (base ≤ pa) && decide (pa < base + size)

/-- The accesses in flight that may be to a page: at the caches and the host to one of this module's, at the remote access units to another
module's. -/
def State.inFlight (s : State) (base : Nat) : List Access :=
  if (s.ownPage base).isSome then (s.coh.accesses ++ s.coh.cxlReqs).map (fun a => { a with pa := a.pa + 2 ^ 44 * s.nmod })
  else s.fab.raus.flatMap (fun (r : Nat × Rau) => r.2.txns.flatMap (fun t => t.accs) ++ r.2.held.flatMap (fun h => h.accs))

/-- The first-level lines that hold stores of a page not yet performed at the die cache, by core. -/
def State.dirtyIn (s : State) (base size : Nat) : List (CoreId × L1Line) :=
  match s.ownPage base with
  | none => []
  | some own => s.cores.flatMap (fun c => (c.2.l1.filter (fun l => l.dirty != 0 && inPage own size (l.pa * 128))).map (fun l => (c.1, l)))

/-- Whether an access to a page is still to be performed at DEV scope, by whatever translation and for whomever: a thread, a fetch, an
engine, a store that a first-level cache holds (R193). -/
def State.pageBusy (s : State) (base size : Nat) : Bool :=
  (s.inFlight base).any (fun a => inPage base size a.pa) || !(s.dirtyIn base size).isEmpty

/-- What the first-level caches hold of a page written back. -/
def State.cleanPage (s : State) (base size : Nat) : State := (s.dirtyIn base size).foldl (fun s p => s.l1Clean p.1 p.2) s

/-- Unmaps whose last old access has been performed are answered; what first-level caches still hold for the others is written back. -/
def State.finishUnmaps (s : State) : State :=
  let done := s.mgmt.unmaps.filter (fun (u : EpMsg × Nat × Nat) => !s.pageBusy u.2.1 u.2.2)
  let s := s.onMgmt (fun m => { m with unmaps := m.unmaps.filter (fun u => !done.contains u) })
  let s := s.mgmt.unmaps.foldl (fun s u => s.cleanPage u.2.1 u.2.2) s
  done.foldl (fun s u => s.reply u.1 0) s

/-- What an unmap does once its page has been found: the entries cleared, the caches of translations rid of it, the answer due. -/
def State.unmapAt (s : State) (die : Nat) (m : EpMsg) (l : Option LeafAt) : State :=
  match l with
  | none => (s.takeRequest.shootDown m.asid m.va).reply m 0
  | some l =>
    match s.clearEntries die (l.entries m.va) with
    | .error e => e.2.await die e.1 true
    | .ok t =>
      let size := pageBytes l.entry
      let t := t.takeRequest.shootDown m.asid m.va
      t.onMgmt (fun g => { g with unmaps := g.unmaps ++ [(m, pteOut l.entry, size)] })

/-- UNMAP: V cleared in every entry of the page, and the page removed from every TLB and walk cache; answered once every access that used the
old translation has been performed (R193). -/
def execUnmap (s : State) : Host.Outcome State Fault Refusal :=
  match s.request? 0x0020 with
  | none => .next s.finishUnmaps
  | some _ =>
    onRequest 0x0020 [.host, .dieManager, .serviceCore] (fun m s =>
      let die := if m.dsock < 8 then m.dsock else 0
      match s.leafOf die m.asid m.va with
      | .error sec => s.await die sec false
      | .ok l => (s.unmapAt die m l).finishUnmaps) s

/-- The replica lines of a physical range dropped at a die cache (R66). -/
def State.dropReplicas (s : State) (die pa size : Nat) : State :=
  s.onCoh (fun c => { c with lines := c.lines.filter (fun (p : (Nat × Nat) × Line) =>
    !(decide (p.1.1 = die) && p.2.rep && decide (pa ≤ p.1.2 * 64) && decide (p.1.2 * 64 < pa + size))) })

/-- RDROP: the replica lines of the page go from the die's cache (R66, R111). -/
def execRdrop (s : State) : Host.Outcome State Fault Refusal :=
  onRequest 0x0021 [.host] (fun m s =>
    let die := if m.dsock < 8 then m.dsock else 0
    match s.leafOf die m.asid m.va with
    | .error sec => s.await die sec false
    | .ok none => s.takeRequest.reply m 0
    | .ok (some l) => (s.takeRequest.dropReplicas m.dsock (pteOut l.entry % 2 ^ 44) (pageBytes l.entry)).reply m 0) s

/-- The sector at an offset of a memory die's stack (R186). -/
def sectorAt (die off : Nat) : Option Nat :=
  ((List.range 12).map (fun k => (12 * (off / 256) + k) * 256 + off % 256)).find? (fun pa => decide (homeOf pa = die)) |>.map sectorOf

/-- LOSTCLR: LOSTB of a sector of the memory die's stack cleared (R64, R111). -/
def execLostclr (s : State) : Host.Outcome State Fault Refusal :=
  onRequest 0x0022 [.dieManager] (fun m s =>
    match sectorAt m.dsock (m.arg.toNat % 2 ^ 30 * 64) with
    | some sec => (s.takeRequest.setHome sec { s.homeEntry sec with lostb := false }).reply m 0
    | none => s.takeRequest.reply m 4) s

/-! ## Die states (R113, R114, R148) -/

/-- STATE of a socket: 0 ONLINE, 1 DRAIN, 2 OFFLINE. -/
def State.stateOf (s : State) (sock : Nat) : BitVec 2 := lookupD sock 0 s.mgmt.dieState

/-- A die's state changed, with its event (R114). -/
def State.setDieState (s : State) (sock : Nat) (v : BitVec 2) : State :=
  (s.onMgmt (fun m => { m with dieState := put sock v m.dieState })).report 9 sock (sock + 32 * v.toNat)

/-- Whether a memory die other than this one is in DRAIN or OFFLINE. -/
def State.otherMemoryOut (s : State) (sock : Nat) : Bool := (List.range 12).any (fun i => decide (8 + i ≠ sock) && s.stateOf (8 + i) != 0)

/-- A compute die in DRAIN: its unplaced work moves, and the arbiter takes the request for all its clusters (R135, R148). -/
def State.drainDie (s : State) (die : Nat) : State :=
  (s.drainItems die).onDisp die (fun d => { d with reqs := d.reqs ++ [dieoffReq] })

/-- DIEOFF (R113): an I/O die never; one in DRAIN is BUSY, as is a memory die while another is out. -/
def State.dieOff (s : State) (m : EpMsg) : State :=
  let k := m.dsock
  if 20 ≤ k then s.reply m 3 3
  else if s.stateOf k = 1 then s.reply m 1
  else if s.stateOf k = 2 then s.reply m 0
  else if 8 ≤ k ∧ s.otherMemoryOut k then s.reply m 1
  else
    let s := (s.setDieState k 1).onMgmt (fun g => { g with draining := g.draining ++ [(k, m)] })
    if k < 8 then s.drainDie k else s

/-- DIEOFF (R113). -/
def execDieoff (s : State) : Host.Outcome State Fault Refusal := onRequest 0x0030 [.host] (fun m s => s.takeRequest.dieOff m) s

/-- Requests about a die that have not been answered are answered, and go. -/
def State.answerDraining (s : State) (sock sts : Nat) (arg : BitVec 32) : State :=
  let ms := s.mgmt.draining.filter (fun (d : Nat × EpMsg) => decide (d.1 = sock))
  let s := s.onMgmt (fun g => { g with draining := g.draining.filter (fun d => decide (d.1 ≠ sock)) })
  ms.foldl (fun s d => s.reply d.2 sts arg) s

/-- DIEON: a die in DRAIN is ONLINE at once, and so is a compute die; an OFFLINE memory die is retrained first (R114). -/
def State.dieOn (s : State) (m : EpMsg) : State :=
  let k := m.dsock
  if s.stateOf k = 0 then s.reply m 0
  else if s.stateOf k = 2 ∧ 8 ≤ k then s.onMgmt (fun g => { g with draining := g.draining ++ [(k, m)] })
  else
    let s := (s.answerDraining k 3 0).setDieState k 0
    let s := s.onDisp k (fun d => { d with reqs := d.reqs.filter (fun r => !r.dieoff || r.begun) })
    s.reply m 0

/-- DIEON (R114). -/
def execDieon (s : State) : Host.Outcome State Fault Refusal := onRequest 0x0031 [.host] (fun m s => s.takeRequest.dieOn m) s

/-- The location entries that stand on a die, each with the chit that names it (R148). -/
def State.locationsOn (s : State) (die : Nat) : List (BitVec 64 × ChitEntry) :=
  s.chits.tables.filterMap (fun (p : (Nat × Nat) × ChitEntry) =>
    let l := mkChit s.fab.nmod die p.1.2 p.2.gen.toNat
    if p.1.1 = die ∧ p.2.state ≠ .free ∧ p.2.loc = some l then some (l, p.2) else none)

/-- The die that takes a producer: one where its bundles stand or are to be placed; none while the global dispatcher has still to send
them; else the lowest that takes work. -/
def State.takerDie (s : State) (die gid : Nat) : Option Nat :=
  let has (k : Nat) : Bool :=
    s.cores.any (fun c => decide (c.1.die = k) && c.2.bundles.any (fun b => decide (b.2.grid = gid))) ||
    (s.dispatcher k).ready.any (fun i => decide (i.grid = gid))
  match (List.range 8).find? (fun k => decide (k ≠ die) && has k) with
  | some k => some k
  | none => if (s.dispatcher 20).ready.any (fun i => decide (i.grid = gid)) then none else s.otherDie die

/-- Where a location entry of a draining die goes: to the die that takes its producer; one whose producer has ended to the lowest die that
takes work (R148, log 150). -/
def State.locationDest (s : State) (die : Nat) (l : BitVec 64) : Option Nat :=
  match s.grids.find? (fun g => !g.2.gone && g.2.loc == some l) with
  | some g => s.takerDie die g.1
  | none => s.otherDie die

/-- A location entry on a draining die moved, with CLOC sent again (R148); a home entry that was its own location stays as the home. -/
def State.moveLocation (s : State) (dest : Nat) (l : BitVec 64) (e : ChitEntry) : State :=
  match s.freeChit dest with
  | none => s
  | some i =>
    let home := if e.locOnly then e.home else l
    let p := s.issueChit dest i e.state
    let s := p.2.setEntry dest i { p.2.chitEntry dest i with
      loc := some p.1, locOnly := true, home := home, result := e.result, queue := e.queue, spill := e.spill }
    let s := if e.locOnly then s.freeEntry l else s.setChit l { e.emptied with loc := some p.1 }
    let s := s.postChit { s.chitMsg 0x22 dest home with other := p.1 }
    { s with grids := s.grids.map (fun (g : Nat × Grid) => if g.2.loc = some l then (g.1, { g.2 with loc := some p.1 }) else g) }

/-- The first sectors and lines of a die that still hold something: its cores' dirty lines, then its cache. -/
def State.flushDie (s : State) (die : Nat) : State :=
  let s := (s.cores.filter (fun c => decide (c.1.die = die))).foldl (fun s c =>
    ((s.core c.1).l1.filter (fun l => l.dirty != 0)).foldl (fun s l => s.l1Clean c.1 l) s) s
  if s.coh.accesses.any (fun a => decide (a.site = die)) || s.coh.misses.any (fun m => decide (m.1 = die)) then s
  else (s.coh.lines.filter (fun (p : (Nat × Nat) × Line) => decide (p.1.1 = die))).foldl (fun s p => s.evict die p.1.2) s

/-- Whether a die's caches hold nothing and nothing is on its way to them. -/
def State.dieEmpty (s : State) (die : Nat) : Bool :=
  s.cores.all (fun c => decide (c.1.die ≠ die) || (c.2.bundles.isEmpty && c.2.l1.all (fun l => l.dirty == 0))) &&
  !(s.coh.lines.any (fun p => decide (p.1.1 = die))) && !(s.coh.accesses.any (fun a => decide (a.site = die))) &&
  !(s.coh.misses.any (fun m => decide (m.1 = die))) && !(s.coh.cxlReqs.any (fun a => decide (a.site = die)))

/-- A compute die in DRAIN brought nearer its end: locations move, then its caches empty, then it is OFFLINE (R113, R148). -/
def State.drainStep (s : State) (die : Nat) : State :=
  if (s.cores.any (fun c => decide (c.1.die = die) && !c.2.bundles.isEmpty)) || !(s.dispatcher die).reqs.isEmpty then s
  else
    match s.locationsOn die with
    | [] =>
      if !s.dieEmpty die then s.flushDie die
      else (s.setDieState die 2).answerDraining die 0 0
    | ls =>
      match ls.find? (fun x => (s.locationDest die x.1).isSome) with
      | some x => s.moveLocation ((s.locationDest die x.1).getD die) x.1 x.2
      | none => s

/-! ## Emptying local memory (R113) -/

/-- The address spaces that are enabled, each with its root and the die that holds it. -/
def State.spaces (s : State) : List (Nat × BitVec 8 × Nat) :=
  s.dies.flatMap (fun (d : Nat × Die) =>
    (d.2.roots.filter (fun r => r.2.en)).map (fun r => (d.1, BitVec.ofNat 8 r.1, r.2.root.toNat)))

/-- What the page tables hold: the valid leaves, and the tables themselves. -/
structure Mapped where
  leaves : List MappedLeaf
  tables : List Nat
  deriving DecidableEq, Repr

/-- What a table and the tables under it hold, n levels of them; or the sector that must come to the site first. -/
def mappedFrom (s : State) (site : Nat) (asid : BitVec 8) : Nat → Nat → Nat → Mapped → Except Nat Mapped
  | 0, _, _, m => .ok m
  | n + 1, va, table, m =>
    let cover := 2 ^ (45 - 11 * (3 - n))
    (List.range 2048).foldl (fun r i =>
      match r with
      | .error sec => .error sec
      | .ok m =>
        match s.readPte site (table + 8 * i) with
        | .error (.wait sec) => .error sec
        | .error _ => .ok m
        | .ok e =>
          if !pteValid e then .ok m
          else if pteLeaf e then .ok { m with leaves := m.leaves ++ [⟨asid, va + i * cover, table + 8 * i, e⟩] }
          else mappedFrom s site asid n (va + i * cover) (pteOut e % 2 ^ 44) m)
      (.ok { m with tables := m.tables ++ [table] })

/-- What the page tables of every enabled address space hold, read at a site. -/
def State.mapped (s : State) (site : Nat) : Except Nat Mapped :=
  s.spaces.foldl (fun r x =>
    match r with
    | .error sec => .error sec
    | .ok m => mappedFrom s site x.2.1 4 0 x.2.2 m) (.ok ⟨[], []⟩)

/-- Whether a leaf maps local memory of this module. -/
def State.mapsLocal (s : State) (l : MappedLeaf) : Bool :=
  decide (pteOut l.entry / 2 ^ 44 = s.nmod) && decide (pteOut l.entry % 2 ^ 44 < localEnd)

/-- Whether bytes at a virtual address lie in local memory, as the leaves have it. -/
def State.lieLocal (s : State) (m : Mapped) (asid : BitVec 8) (va n : Nat) : Bool :=
  m.leaves.any (fun l => l.asid == asid && s.mapsLocal l && decide (l.va < va + n) && decide (va < l.va + pageBytes l.entry))

/-- Whether a structure that the machine reads or writes on its own lies in local memory: a page table, a task queue, a join block, a
dump area, a sampling ring, an event ring, a request or completion ring (R113, log 116). -/
def State.localStructure (s : State) (m : Mapped) : Bool :=
  let here (pa : Nat) : Bool := decide (pa < localEnd)
  s.spaces.any (fun x => here x.2.2) || m.tables.any here ||
  s.dies.any (fun (d : Nat × Die) => d.2.obs.locked && here d.2.obs.base.toNat) ||
  s.disp.any (fun (d : Nat × Dispatcher) => d.2.queues.any (fun q =>
    (q.2.dumpSize != 0 && here q.2.dumpPa) || (q.2.en && s.lieLocal m q.2.asid q.2.base.toNat (64 + 64 * 2 ^ q.2.log.toNat)))) ||
  s.grids.any (fun (g : Nat × Grid) => !g.2.gone && recDonea g.2.record != 0 && s.lieLocal m g.2.asid (recDonea g.2.record).toNat 128) ||
  s.mgmt.evring.any (fun e => here e.2.toNat) ||
  s.service.requests.any (fun r => here (Config.requestRing r.1.1 r.1.2) || here (Config.completionRing r.1.1 r.1.2))

/-- The far memory that is taken: the pages mapped there and the tables that lie there, as address and size. -/
def State.farTaken (s : State) (m : Mapped) : List (Nat × Nat) :=
  (m.leaves.filter (fun l => decide (pteOut l.entry / 2 ^ 44 = s.nmod) && decide (farBase ≤ pteOut l.entry % 2 ^ 44))).map
    (fun l => (pteOut l.entry % 2 ^ 44, pageBytes l.entry)) ++ m.tables.map (fun t => (t, 16384)) ++
  s.disp.flatMap (fun (d : Nat × Dispatcher) => d.2.queues.map (fun q => (q.2.dumpPa, q.2.dumpSize.toNat * 4096))) ++
  s.mgmt.evring.map (fun e => (e.2.toNat, 64 + 32 * 2 ^ 20)) ++
  s.dies.map (fun d => (d.2.obs.base.toNat, 32 * 2 ^ 24))

/-- Free far memory for a page: the lowest aligned address of a window, or after what is taken (R113, log 116). -/
def State.farRoom (s : State) (m : Mapped) (size : Nat) : Option Nat :=
  let taken := s.farTaken m
  let up (a : Nat) : Nat := (a + size - 1) / size * size
  let fits (a : Nat) : Bool :=
    (s.farWindow a).isSome && s.farWindow a == s.farWindow (a + size - 1) && taken.all (fun t => decide (t.1 + t.2 ≤ a) || decide (a + size ≤ t.1))
  let starts := (List.range 8).map (fun n => up ((lookupD n 0 s.mgmt.fmb).toNat % 2 ^ 14 * 2 ^ 30)) ++ taken.map (fun t => up (t.1 + t.2))
  leastBy (fun a => (a, 0)) (starts.filter fits)

/-- The migration of the page that a leaf maps, begun: every leaf that maps it takes part. -/
def State.beginMigration (s : State) (m : Mapped) (l : MappedLeaf) (dest : Nat) : State :=
  let ls := m.leaves.filter (fun x => decide (pteOut x.entry = pteOut l.entry))
  s.onMgmt (fun g => { g with
    migration := some ⟨pteOut l.entry, pageBytes l.entry, dest, ls, (ls.map (fun x => x.place)).eraseDups, 0, ls⟩ })

/-- An entry that maps the page at its new place. -/
def Migration.renewed (x : Migration) (s : State) (e : Nat) : Nat := e - pteOut e + (2 ^ 44 * s.nmod + x.dest)

/-- The state with a migration replaced. -/
def State.setMigration (s : State) (x : Option Migration) : State := s.onMgmt (fun g => { g with migration := x })

/-- The next thing a migration does: V cleared in the next entry, and after the last one the page removed from the caches of translations;
then, once no access to it is in flight, its next 64 bytes moved; then the next entry written anew (R113, R193). -/
def State.migrateStep (s : State) (site : Nat) (x : Migration) : Except (Nat × Bool) State :=
  match x.clear with
  | a :: t =>
    (match s.physRead site 0 a 1 with
      | .error (.wait sec _) => .error (sec, false)
      | .error (.fault _) => .ok (s.setMigration (some { x with clear := t }))
      | .ok bs =>
        match s.physWrite site 0 a (bs.map (fun (b : Byte) => b &&& 0xFE)) with
        | .error (.wait sec _) => .error (sec, true)
        | .error (.fault _) => .ok (s.setMigration (some { x with clear := t }))
        | .ok u =>
          let u := u.setMigration (some { x with clear := t })
          .ok (if t.isEmpty then x.leaves.foldl (fun s l => s.shootDown l.asid l.va) u else u))
  | [] =>
    if x.moved < x.size then
      if s.pageBusy x.src x.size then .ok (s.cleanPage x.src x.size)
      else
        match s.physRead site 0 (x.src % 2 ^ 44 + x.moved) 64 with
        | .error (.wait sec _) => .error (sec, false)
        | .error (.fault _) => .ok (s.setMigration (some { x with moved := x.moved + 64 }))
        | .ok bs =>
          match s.physWrite site 0 (x.dest + x.moved) bs with
          | .error (.wait sec _) => .error (sec, true)
          | .error (.fault _) => .ok (s.setMigration (some { x with moved := x.moved + 64 }))
          | .ok u => .ok (u.setMigration (some { x with moved := x.moved + 64 }))
    else
      match x.renew with
      | [] => .ok (s.setMigration none)
      | l :: t =>
        match s.physWrite site 0 l.place (bytesOfNat 8 (x.renewed s l.entry)) with
        | .error (.wait sec _) => .error (sec, true)
        | .error (.fault _) => .ok (s.setMigration (some { x with renew := t }))
        | .ok u => .ok (u.setMigration (some { x with renew := t }))

/-- The die whose manager empties local memory: the lowest that takes work. -/
def State.movingDie (s : State) : Nat := ((List.range 8).find? (fun d => s.takesWork d)).getD 0

/-- A memory die in DRAIN brought nearer its end: where no structure of the machine's own lies in local memory, the die managers migrate its
pages to far memory one after another; once no leaf maps local memory it is OFFLINE. Else it is REFUSED with the reason and stays in DRAIN
(R113). `why` is a reason that the firmware has found. -/
def State.memoryDrained (s : State) (sock why : Nat) : State :=
  if why = 1 ∨ why = 2 ∨ why = 4 then s.answerDraining sock 3 (BitVec.ofNat 32 why)
  else if why ≠ 0 then s
  else
    match s.mapped s.movingDie with
    | .error sec => s.await s.movingDie sec false
    | .ok m =>
      if s.localStructure m then s.answerDraining sock 3 4
      else
        match m.leaves.find? s.mapsLocal with
        | none => (s.setDieState sock 2).answerDraining sock 0 0
        | some l =>
          match s.farRoom m (pageBytes l.entry) with
          | none => s.answerDraining sock 3 2
          | some d => s.beginMigration m l d

/-- A page on its way to far memory goes on. -/
def State.migrateOn (s : State) (x : Migration) : State :=
  match s.migrateStep s.movingDie x with
  | .error e => s.await s.movingDie e.1 e.2
  | .ok t => t

/-- DIE_DRAIN_DONE: a die in DRAIN, or a page on its way out of local memory; `why` is 0, or the reason for which a memory die cannot be emptied (R113, R148). -/
def execDieDrainDone (sock : Nat) (why : BitVec 3) (s : State) : Host.Outcome State Fault Refusal :=
  if 8 ≤ sock ∧ sock < 20 ∧ s.mgmt.migration.isSome then .next (s.mgmt.migration.elim s s.migrateOn)
  else if s.stateOf sock ≠ 1 ∨ 20 ≤ sock ∨ !s.mgmt.draining.any (fun d => decide (d.1 = sock)) then .next s
  else if sock < 8 then .next (s.drainStep sock)
  else .next (s.memoryDrained sock why.toNat)

/-- A stack as phase MEMORY leaves it: zero data, all tokens at the home, SER 0 (R114). -/
def State.clearStack (s : State) (sock : Nat) : State :=
  { s with
    mem := s.mem.filter (fun c => decide (localEnd ≤ c.1) || decide (homeOf c.1 ≠ sock))
    coh := { s.coh with
      homes := s.coh.homes.filter (fun (h : Nat × HomeEntry) => decide (homeSock h.1 ≠ sock))
      lines := s.coh.lines.filter (fun (p : (Nat × Nat) × Line) => isFarSec p.1.2 || decide (homeSock p.1.2 ≠ sock)) } }

/-- MEMORY_DIE_RESTORE_DONE: an OFFLINE memory die for which DIEON has been asked is retrained and zeroed, and is ONLINE (R114). -/
def execMemoryDieRestoreDone (sock : Nat) (s : State) : Host.Outcome State Fault Refusal :=
  if sock < 8 ∨ 20 ≤ sock ∨ s.stateOf sock ≠ 2 ∨ !s.mgmt.draining.any (fun d => decide (d.1 = sock)) then .next s
  else .next (((s.clearStack sock).setDieState sock 0).answerDraining sock 0 0)

/-! ## Events (R118 to R121) -/

/-- EVPOST: a software class is raised; DENIED below 0x40 (R120). -/
def execEvpost (s : State) : Host.Outcome State Fault Refusal :=
  onRequest 0x0040 [.dieManager, .serviceCore] (fun m s =>
    let c := m.arg.toNat % 256
    if c < 0x40 then s.takeRequest.reply m 2 else (s.takeRequest.report c m.ssock (natOfBytes m.body)).reply m 0) s

/-- The owner that a routing entry names: the place of its one 1 (R118). -/
def ownerOf (v : BitVec 32) : Nat := ((List.range 25).find? (fun i => v.getLsbD i)).getD 0

/-- EVNT: the arbiter takes a record that has reached it, numbers it and holds it for the owner of its class (R121). -/
def execEvnt (s : State) : Host.Outcome State Fault Refusal :=
  onPacket 0x66 (fun d p s =>
    if d ≠ 20 then s
    else
      let e := EventRec.ofNum (nth 0 p.data 0).toNat
      let e := { e with seq := s.mgmt.evSeq, owner := some (ownerOf (s.route e.cls.toNat)) }
      s.onMgmt (fun m => { m with evSeq := m.evSeq + 1, events := m.events ++ [e] })) s

/-- A record's 32 bytes (R121). -/
def EventRec.bytes (e : EventRec) : List Byte := bytesOfNat 32 e.num

/-- A record written into the host's ring, if that is set up and has room. -/
def State.deliverHost (s : State) (e : EventRec) : Option State :=
  let m := s.mgmt
  if !m.evEn || decide (2 ^ m.evLog.toNat ≤ (m.evPi - m.evCi).toNat) then none
  else
    let at' := (m.evbh ++ m.evbl).toNat / 4096 * 4096 + 32 * (m.evPi.toNat % 2 ^ m.evLog.toNat)
    some (s.onMgmt (fun m => { m with evPi := m.evPi + 1, hostMem := writeCells at' e.bytes m.hostMem }))

/-- A record written into a core's ring in device memory: none while there is no ring or no room; or the sector that must come to rest
first. -/
def State.deliverCore (s : State) (owner : Nat) (e : EventRec) : Except Nat (Option State) :=
  match lookup? owner s.mgmt.evring with
  | none => .ok none
  | some ring =>
    let a := ring.toNat % 2 ^ 44 / 64 * 64
    match s.physRead 20 0 a 16 with
    | .error (.wait sec _) => .error sec
    | .error (.fault _) => .ok none
    | .ok h =>
      let x := natOfBytes h
      let log := bitsAt x 96 8
      let p := bitsAt x 0 32
      if log < 6 ∨ 20 < log ∨ 2 ^ log ≤ (p + 2 ^ 32 - bitsAt x 64 32) % 2 ^ 32 then .ok none
      else
        match s.physWrite 20 0 (a + 64 + 32 * (p % 2 ^ log)) e.bytes with
        | .error (.wait sec _) => .error sec
        | .error (.fault _) => .ok none
        | .ok t =>
          match t.physWrite 20 0 a (bytesOfNat 4 (p + 1)) with
          | .error (.wait sec _) => .error sec
          | .error (.fault _) => .ok none
          | .ok t => .ok (some t)

/-- EVENT_DELIVER: the oldest record held for an owner goes into its ring (R121). -/
def execEventDeliver (owner : Nat) (s : State) : Host.Outcome State Fault Refusal :=
  match s.mgmt.events.find? (fun e => decide (e.owner = some owner)) with
  | none => .next s
  | some e =>
    let gone (s : State) : State := s.onMgmt (fun m => { m with events := m.events.erase e })
    if owner = 0 then .next (match s.deliverHost e with | some t => gone t | none => s)
    else
      match s.deliverCore owner e with
      | .error sec => .next (s.await 20 sec true)
      | .ok none => .next s
      | .ok (some t) => .next (gone t)

/-! ## Measured boot and attestation (R122 to R125) -/

/-- A body as a 32-byte digest. -/
def EpMsg.digest (m : EpMsg) : BitVec 256 := BitVec.ofNat 256 (natOfBytes (m.body.take 32))

/-- MEXT (R123). -/
def execMext (s : State) : Host.Outcome State Fault Refusal :=
  onRequest 0x0050 [.host] (fun m s =>
    let i := m.arg.toNat
    if 4 ≤ i ∧ i ≤ 7 then (s.takeRequest.extendMr i m.digest).reply m 0 m.arg else s.takeRequest.reply m 2) s

/-- Bytes cut or filled with zeros to a length. -/
def fitTo (n : Nat) (bs : List Byte) : List Byte := (bs ++ List.replicate n 0).take n

/-- Bytes 0 to 300 of an attestation report (R124). -/
def State.reportHead (s : State) (nonce : List Byte) : List Byte :=
  bytesOfNat 4 0x54415453 ++ bytesOfNat 4 s.boot.svn.toNat ++ fitTo 32 nonce ++
  (List.range 8).flatMap (fun i => bytesOfNat 32 (s.mrOf i).toNat) ++ bytesOfNat 4 s.boot.bootst.toNat ++ bytesOfNat 1 s.fab.nmod.toNat

/-- An attestation report of 2,721 bytes (R124). -/
def State.attestation (s : State) (nonce : List Byte) : List Byte :=
  let h := s.reportHead nonce
  h ++ fitTo 2420 (Config.identitySign (Config.sha3 h))

/-- ATTEST: the report in 12 replies, ARG the offset of each (R124). -/
def execAttest (s : State) : Host.Outcome State Fault Refusal :=
  onRequest 0x0051 [.host] (fun m s =>
    let r := s.attestation m.body
    (List.range 12).foldl (fun s i => s.reply m 0 (BitVec.ofNat 32 (240 * i)) ((r.drop (240 * i)).take 240)) s.takeRequest) s

/-- Whether an owner key is admitted: digest, SVN and signature in the body; the signature by the configuration root's key (R125). -/
def State.ownerAdmitted (s : State) (m : EpMsg) : Bool :=
  let svn := natOfBytes ((m.body.drop 32).take 4)
  Config.mldsaVerify Config.configRootKey (Config.sha3 (m.body.take 36)) (m.body.drop 36) && decide (s.boot.flashCounter.toNat ≤ svn)

/-- OWNKEY: stored for the next reset, and the counter raised, or REFUSED (R125). -/
def execOwnkey (s : State) : Host.Outcome State Fault Refusal :=
  onRequest 0x0052 [.host] (fun m s =>
    if s.ownerAdmitted m then
      (s.takeRequest.onBoot (fun b => { b with
        ownerStored := some m.digest, flashCounter := BitVec.ofNat 32 (natOfBytes ((m.body.drop 32).take 4)) })).reply m 0
    else s.takeRequest.reply m 3) s

end Sys2Proof.Machine
end

