-- ==== Sys2Proof/Machine/Service.lean ====
section
/-! DEFINITION. Service cores, die managers and ports: request and completion rings (R115), the harts' accesses to device memory (R222), the
byte-stream transport's rings (R116, R117), and what the NVMe drives move (R117). -/

namespace Sys2Proof.Machine

/-! ## Request and completion rings (R115) -/

/-- The I/O die of a service core (R115). -/
def serviceDie (svc : Nat) : Nat := if svc < 8 then 20 else 21

/-- The indices of a ring as its header holds them, in the form of R121: PIDX, CIDX and its number of entries. -/
structure RingHead where
  pidx : Nat
  cidx : Nat
  size : Nat
  deriving DecidableEq, Repr

/-- Entries published and not consumed. -/
def RingHead.fill (h : RingHead) : Nat := (h.pidx + 2 ^ 32 - h.cidx) % 2 ^ 32

/-- A ring's header read; none where it cannot be reached or states no size. -/
def State.ringHead (s : State) (site a : Nat) : Except Nat (Option RingHead) :=
  match s.physRead site 0 a 16 with
  | .error (.wait sec _) => .error sec
  | .error (.fault _) => .ok none
  | .ok bs =>
    let x := natOfBytes bs
    let log := bitsAt x 96 8
    if log < 6 ∨ 20 < log then .ok none else .ok (some ⟨bitsAt x 0 32, bitsAt x 64 32, 2 ^ log⟩)

/-- Bytes written at places of device memory, in order; or the sector that must come to rest first. -/
def State.writeAll (s : State) (site : Nat) : List (Nat × List Byte) → Except Nat State
  | [] => .ok s
  | w :: t =>
    match s.physWrite site 0 w.1 w.2 with
    | .error (.wait sec _) => .error sec
    | .error (.fault _) => s.writeAll site t
    | .ok u => u.writeAll site t

/-- A completion of 64 bytes, whose form the manual leaves to firmware. -/
def openCompletion (n : Nat) : List Byte := (List.range 8).flatMap (fun i => bytesOfNat 8 (Config.freeBits (n + i)).toNat)

/-- The descriptor that a service core has taken from a compute die's ring and not completed. -/
def State.taken (s : State) (die svc : Nat) : Option (BitVec 512) := lookup? (die, svc) s.service.requests

/-- The service side changed. -/
def State.onService (s : State) (f : Service → Service) : State := { s with service := f s.service }

/-- The next descriptor taken from a request ring, where one is published: its 64 bytes go to the service core, and CIDX rises (R115). -/
def State.takeOne (s : State) (die svc : Nat) : Except (Nat × Bool) State :=
  let a := Config.requestRing die svc
  match s.ringHead (serviceDie svc) a with
  | .error sec => .error (sec, false)
  | .ok none => .ok s
  | .ok (some h) =>
    if h.fill = 0 ∨ h.size < h.fill then .ok s
    else
      match s.physRead (serviceDie svc) 0 (a + 64 + 64 * (h.cidx % h.size)) 64 with
      | .error (.wait sec _) => .error (sec, false)
      | .error (.fault _) => .ok s
      | .ok bs =>
        match s.writeAll (serviceDie svc) [(a + 8, bytesOfNat 4 (h.cidx + 1))] with
        | .error sec => .error (sec, true)
        | .ok t => .ok (t.onService (fun v => { v with requests := put (die, svc) (BitVec.ofNat 512 (natOfBytes bs)) v.requests }))

/-- The completion of the descriptor taken, returned where the completion ring has room (R115). -/
def State.completeOne (s : State) (die svc : Nat) : Except (Nat × Bool) State :=
  let b := Config.completionRing die svc
  match s.ringHead (serviceDie svc) b with
  | .error sec => .error (sec, false)
  | .ok none => .ok s
  | .ok (some k) =>
    if k.size ≤ k.fill then .ok s
    else
      match ({ s with openVals := s.openVals + 8 }).writeAll (serviceDie svc)
          [(b + 64 + 64 * (k.pidx % k.size), openCompletion s.openVals), (b, bytesOfNat 4 (k.pidx + 1))] with
      | .error sec => .error (sec, true)
      | .ok t => .ok (t.onService (fun v => { v with requests := drop (die, svc) v.requests }))

/-- SERVICE_REQUEST: a service core takes the next descriptor of a compute die's ring; with one taken, which its firmware serves by the
accesses, transfers and messages that it makes (R222, R116, R117), it returns the completion (R115). -/
def execServiceRequest (die svc : Nat) (s : State) : Host.Outcome State Fault Refusal :=
  if 8 ≤ die ∨ 16 ≤ svc ∨ !s.moduleReady then .next s
  else
    match (if (s.taken die svc).isNone then s.takeOne die svc else s.completeOne die svc) with
    | .error e => .next (s.await (serviceDie svc) e.1 e.2)
    | .ok t => .next t

/-! ## The harts' accesses to device memory (R222) -/

/-- The site through which a hart reaches device memory: a service core's I/O die, a die manager's compute die. -/
def hartSite (n : Nat) : Nat := if n < 16 then serviceDie n else n - 16

/-- An access of a hart as the caches see it. -/
def hartAccess (n id : Nat) (kind : AccKind) (pa size : Nat) (data : BitVec 64) (aq : Bool) (mark : Nat) : Access :=
  { id := id, who := .hart n, site := hartSite n, kind := kind, va := 0, pa := pa, size := size, wdata := BitVec.setWidth 512 data
    wmask := if kind = .read then 0 else BitVec.ofNat 64 (2 ^ size - 1), comp := 0, dest := [], signed := false, cls := 2, rep := false
    mark := mark, acq := if aq then 3 else 0 }

/-- The access that an operation makes, with its aq and rl; none for a FENCE. -/
def HartOp.access (n id : Nat) : HartOp → Option (Access × Bool × Bool)
  | .load pa size aq rl => some (hartAccess n id .read pa size 0 aq 0, aq, rl)
  | .store pa size data aq rl => some (hartAccess n id .write pa size data aq 0, aq, rl)
  | .amo opn kind pa size data aq rl => some (hartAccess n id (.atom opn kind) pa size data aq 0, aq, rl)
  | .lr pa size aq rl => some (hartAccess n id .read pa size 0 aq 1, aq, rl)
  | .sc pa size data aq rl => some (hartAccess n id .write pa size data aq 2, aq, rl)
  | .fence => none

/-- The accesses of a hart still to be performed. -/
def State.hartFlight (s : State) (n : Nat) : List Access :=
  (s.coh.accesses ++ s.coh.cxlReqs).filter (fun a => decide (a.who = .hart n))

/-- An access that a hart can make: 1, 2, 4 or 8 aligned bytes of device memory that there is. -/
def State.hartMay (s : State) (a : Access) : Bool :=
  [1, 2, 4, 8].contains a.size && decide (a.pa % a.size = 0) && s.reachable a.site a.pa

/-- The next access of a hart issued: a FENCE, and what has rl, waits for all before it; nothing passes an access with aq; else accesses of
different sectors may be performed in any order (R222, log 151). -/
def State.hartNext (s : State) (n : Nat) : State :=
  match (s.hart n).queue with
  | [] => s
  | op :: t =>
    let out := s.hartFlight n
    let went := s.onHart n (fun h => { h with queue := t })
    if out.any (fun a => decide (a.acq ≠ 0)) then s
    else
      match op.access n s.fresh with
      | none => if out.isEmpty then went else s
      | some (a, _, rl) =>
        if rl && !out.isEmpty then s
        else if s.hartMay a then went.queueAccesses [a] else went

/-! ## The Ethernet ports and RX rings (R25, R116, R117) -/

/-- `n` bytes of a port's settings, from byte i (R25). -/
def State.portByte (s : State) (iod i n : Nat) : Nat := bitsAt (s.boot.portEntry iod).toNat (8 * i) (8 * n)

/-- The header of a connection's ring: PIDX, CIDX, SIZE, STATE. -/
structure StreamHead where
  pidx : Nat
  cidx : Nat
  size : Nat
  state : Nat
  deriving DecidableEq, Repr

/-- Bytes that stand in the ring. -/
def StreamHead.fill (h : StreamHead) : Nat := (h.pidx + 2 ^ 32 - h.cidx) % 2 ^ 32

/-- Whether a header breaks R116: more bytes than SIZE, or a SIZE that is no power of two in range. -/
def StreamHead.bad (h : StreamHead) : Bool :=
  decide (h.size < h.fill) || !((List.range 15).any (fun i => decide (h.size = 2 ^ (12 + i))))

/-- A connection's header read. -/
def State.streamHead (s : State) (iod a : Nat) : Except Nat (Option StreamHead) :=
  match s.physRead iod 0 a 17 with
  | .error (.wait sec _) => .error sec
  | .error (.fault _) => .ok none
  | .ok bs =>
    let x := natOfBytes bs
    .ok (some ⟨bitsAt x 0 32, bitsAt x 64 32, bitsAt x 96 32, bitsAt x 128 8⟩)

/-- Bytes of a stream as writes of the data area, one byte each, from a position on. -/
def streamWrites (base size : Nat) : Nat → List Byte → List (Nat × List Byte)
  | _, [] => []
  | p, b :: t => (base + p % size, [b]) :: streamWrites base size (p + 1) t

/-- The priorities of a port that flow control holds back, one set or cleared. -/
def State.setPaused (s : State) (iod prio : Nat) (on : Bool) : State :=
  let m := lookupD iod 0 s.service.paused
  let b : BitVec 8 := 1#8 <<< prio
  { s with service := { s.service with paused := put iod (if on then m ||| b else m &&& ~~~ b) s.service.paused } }

/-- A connection closed: nothing more goes through its rings. -/
def State.close (s : State) (conn : Nat) : State := s.onService (fun v => { v with closed := conn :: v.closed })

/-- A frame's data placed in its connection's RX ring; a ring that breaks R116 is reset; without room a priority under flow control is
held back, and another frame is dropped. -/
def State.receiveData (s : State) (iod conn prio a : Nat) (payload : List Byte) (h : StreamHead) : Except Nat State :=
  if h.bad then (s.writeAll iod [(a + 16, [3])]).map (fun t => t.close conn)
  else if h.state ≠ 0 then .ok s
  else if h.size < h.fill + payload.length then
    .ok (if (s.portByte iod 11 1).testBit prio then s.setPaused iod prio true else s)
  else
    (s.writeAll iod (streamWrites (a + 64) h.size h.pidx payload ++ [(a, bytesOfNat 4 (h.pidx + payload.length))])).map
      (fun t => t.setPaused iod prio false)

/-- ETHERNET_FRAME_RECEIVE: a frame for a connection, where the port is enabled and the frame no longer than MTU (R25, R116, R117). -/
def execEthernetFrameReceive (iod conn prio : Nat) (payload : List Byte) (s : State) : Host.Outcome State Fault Refusal :=
  if !s.moduleReady || !(iod == 20 || iod == 21) || decide (8 ≤ prio) || decide (65536 ≤ conn) || decide (s.portByte iod 10 1 = 0) ||
      decide (s.portByte iod 12 2 < payload.length) || s.service.closed.contains conn then .next s
  else
    let a := Config.rxRing conn
    match s.streamHead iod a with
    | .error sec => .next (s.await iod sec true)
    | .ok none => .next s
    | .ok (some h) =>
      match s.receiveData iod conn prio a payload h with
      | .error sec => .next (s.await iod sec true)
      | .ok t => .next t

/-! ## TX rings, and the end of a connection (R116) -/

/-- Whether an I/O die's port may work for a connection that is not closed. -/
def State.portServes (s : State) (iod conn : Nat) : Bool :=
  s.moduleReady && (iod == 20 || iod == 21) && decide (conn < 65536) && decide (s.portByte iod 10 1 ≠ 0) && !s.service.closed.contains conn

/-- The bytes of a stream at positions of a ring's data area; or the sector that must come first. -/
def State.streamBytes (s : State) (iod base size : Nat) : Nat → Nat → Except Nat (List Byte)
  | _, 0 => .ok []
  | p, n + 1 =>
    match s.physRead iod 0 (base + p % size) 1, s.streamBytes iod base size (p + 1) n with
    | .error (.wait sec _), _ => .error sec
    | _, .error sec => .error sec
    | .ok bs, .ok t => .ok (bs ++ t)
    | .error (.fault _), .ok t => .ok (0 :: t)

/-- Up to n bytes of a connection's TX ring given to the network, and CIDX advanced; a ring that breaks R116 is reset, and one whose
producer writes no more is CLOSED once it is empty. -/
def State.sendData (s : State) (iod conn a n : Nat) (h : StreamHead) : Except (Nat × Bool) State :=
  let m := Nat.min n (Nat.min h.fill (s.portByte iod 12 2))
  let wr (x : Except Nat State) (f : State → State) : Except (Nat × Bool) State :=
    match x with | .error sec => .error (sec, true) | .ok t => .ok (f t)
  if h.bad then wr (s.writeAll iod [(a + 16, [3])]) (fun t => t.close conn)
  else if 1 < h.state then .ok s
  else if h.fill = 0 then
    if h.state = 1 then wr (s.writeAll iod [(a + 16, [2])]) id else .ok s
  else
    match s.streamBytes iod (a + 64) h.size h.cidx m with
    | .error sec => .error (sec, false)
    | .ok bs =>
      wr (s.writeAll iod [(a + 8, bytesOfNat 4 (h.cidx + m))])
        (fun t => t.onService (fun v => { v with sent := v.sent ++ [(iod, conn, bs)] }))

/-- Data of a connection's TX ring sent, unless the other end holds its priority back (R116, R117). -/
def State.transmit' (s : State) (iod conn prio n : Nat) : State :=
  if !s.portServes iod conn || decide (8 ≤ prio) || (lookupD iod 0 s.service.heldTx).getLsbD prio then s
  else
    let a := Config.txRing conn
    match s.streamHead iod a with
    | .error sec => s.await iod sec false
    | .ok none => s
    | .ok (some h) =>
      match s.sendData iod conn a n h with
      | .error e => s.await iod e.1 e.2
      | .ok t => t

/-- The other end closes a connection, and its RX ring's producer writes no more; or resets it, and both rings say so (R116). -/
def State.peerCloses (s : State) (iod conn : Nat) (reset : Bool) : State :=
  if !s.portServes iod conn then s
  else
    let ws := if reset then [(Config.rxRing conn + 16, [3]), (Config.txRing conn + 16, [3])] else [(Config.rxRing conn + 16, [1])]
    match s.writeAll iod ws with
    | .error sec => s.await iod sec true
    | .ok t => if reset then t.close conn else t

/-- A pause frame from the other end: a priority under flow control is held back, or let go (R117). -/
def State.pauseFrame (s : State) (iod prio : Nat) (on : Bool) : State :=
  if 8 ≤ prio ∨ !(s.portByte iod 11 1).testBit prio then s
  else
    let m := lookupD iod 0 s.service.heldTx
    let b : BitVec 8 := 1#8 <<< prio
    s.onService (fun v => { v with heldTx := put iod (if on then m ||| b else m &&& ~~~ b) v.heldTx })

/-! ## NVMe drives (R117) -/

/-- What a drive holds in n bytes from a place; what has never been written is open (log 126). -/
def State.driveBytes (s : State) (iod drive place n : Nat) : List Byte :=
  (List.range n).map (fun i =>
    match (lookupD (iod, drive) [] s.service.drives).find? (fun c => decide (c.1 = place + i)) with
    | some c => c.2
    | none => Config.driveByte iod drive (place + i))

/-- Bytes of a drive written. -/
def State.driveWrite (s : State) (iod drive place : Nat) (bs : List Byte) : State :=
  s.onService (fun v => { v with
    drives := put (iod, drive) (bs.zipIdx.foldl (fun m b => put (place + b.2) b.1 m) (lookupD (iod, drive) [] v.drives)) v.drives })

/-- Up to 64 bytes of a command of an I/O queue pair moved between a drive and one sector of device memory (R117). -/
def State.driveMoves (s : State) (iod drive qp : Nat) (write : Bool) (place pa n : Nat) : State :=
  if !s.moduleReady || !(iod == 20 || iod == 21) || decide (4 ≤ drive) || decide (64 ≤ qp) || decide (n = 0) || decide (64 < pa % 64 + n) then s
  else if write then
    match s.physRead iod 0 pa n with
    | .error (.wait sec _) => s.await iod sec false
    | .error (.fault _) => s
    | .ok bs => s.driveWrite iod drive place bs
  else
    match s.physWrite iod 0 pa (s.driveBytes iod drive place n) with
    | .error (.wait sec _) => s.await iod sec true
    | .error (.fault _) => s
    | .ok t => t

/-- What firmware, the network or a drive does, carried out. -/
def State.serve' (s : State) (o : ServiceOp) : State :=
  match o with
  | .hartOp n op => if n < 24 then s.onHart n (fun h => { h with queue := h.queue ++ [op] }) else s
  | .hartNext n => s.hartNext n
  | .transmit iod conn prio n => s.transmit' iod conn prio n
  | .peerClose iod conn reset => s.peerCloses iod conn reset
  | .pauseFrame iod prio on => s.pauseFrame iod prio on
  | .connect conn => s.onService (fun v => { v with closed := v.closed.filter (fun c => decide (c ≠ conn)) })
  | .drive iod drive qp write place pa n => s.driveMoves iod drive qp write place pa n

end Sys2Proof.Machine
end

