-- ==== Sys2Proof/Machine/Transcendental.lean ====
section
/-! DEFINITION. The bound of R361: the functions of the special-function unit computed in whole numbers to far more places than
any format has, and the values of a format that lie within so many units in the last place of them. -/

namespace Sys2Proof.Machine

/-! ## Fixed point: a number n at p stands for n / 2^p -/

/-- The terms of the exponential series of r from a term on. -/
def expTerms (p r : Nat) : Nat → Nat → Nat → Nat
  | 0, _, _ => 0
  | k + 1, n, t => if t = 0 then 0 else t + expTerms p r k (n + 1) (t * r / (2 ^ p * n))

/-- e^r for r at p, 0 ≤ r < 1. -/
def fixExp (p r : Nat) : Nat := expTerms p r p 1 (2 ^ p)

/-- Terms that alternate in sign, each the one before times r2 / (n (n + 1)). -/
def altTerms (p r2 : Nat) : Nat → Nat → Nat → Int
  | 0, _, _ => 0
  | k + 1, n, t => if t = 0 then 0 else (t : Int) - altTerms p r2 k (n + 2) (t * r2 / (2 ^ p * (n * (n + 1))))

/-- sin r for r at p, 0 ≤ r < 1. -/
def fixSin (p r : Nat) : Nat := (altTerms p (r * r / 2 ^ p) p 2 r).toNat

/-- cos r for r at p, 0 ≤ r < 1. -/
def fixCos (p r : Nat) : Nat := (altTerms p (r * r / 2 ^ p) p 1 (2 ^ p)).toNat

/-- The series z + z^3/3 + z^5/5 + …, or the one whose signs alternate. -/
def oddTerms (alt : Bool) (p z2 : Nat) : Nat → Nat → Nat → Int
  | 0, _, _ => 0
  | k + 1, n, z =>
    if z = 0 then 0
    else
      let rest := oddTerms alt p z2 k (n + 2) (z * z2 / 2 ^ p)
      ((z / n : Nat) : Int) + (if alt then -rest else rest)

/-- artanh z for z at p, |z| well below 1. -/
def fixArtanh (p z : Nat) : Nat := (oddTerms false p (z * z / 2 ^ p) p 1 z).toNat

/-- arctan (1/n) at p. -/
def fixArctanInv (p n : Nat) : Nat :=
  let z := 2 ^ p / n
  (oddTerms true p (z * z / 2 ^ p) p 1 z).toNat

/-- The natural logarithm of 2 at p. -/
def fixLn2 (p : Nat) : Nat := 2 * fixArtanh p (2 ^ p / 3)

/-- π at p: 16 arctan (1/5) − 4 arctan (1/239). -/
def fixPi (p : Nat) : Nat := 16 * fixArctanInv p 5 - 4 * fixArctanInv p 239

/-! ## The functions: a finite non-zero operand ± m × 2^e gives the sign, the count and the exponent of the result -/

/-- The place of the highest bit of m × 2^e. -/
def topBit (m : Nat) (e : Int) : Int := (Nat.log2 m : Int) + e

/-- Places after the point that leave some 300 after the highest bit of the cube of an operand. -/
def placesFor (m : Nat) (e : Int) : Nat := 320 + 3 * (-topBit m e).toNat

/-- m × 2^e at p, rounded down. -/
def fixOf (p : Nat) (m : Nat) (e : Int) : Nat :=
  if 0 ≤ e + p then m * 2 ^ (e + p).toNat else m / 2 ^ (-(e + p)).toNat

/-- 2^x. -/
def realEx2 (neg : Bool) (m : Nat) (e : Int) : Bool × Nat × Int :=
  if 12 ≤ topBit m e then (false, 1, if neg then -8192 else 8192)
  else
    let p := placesFor m e
    let x : Int := if neg then -(fixOf p m e : Int) else fixOf p m e
    let k := x / (2 : Int) ^ p
    let r := (x % (2 : Int) ^ p).toNat
    (false, fixExp p (r * fixLn2 p / 2 ^ p), k - p)

/-- log2 x of a positive x that is no power of two: x is 2^k times a number between 3/4 and 3/2. -/
def realLg2 (m : Nat) (e : Int) : Bool × Nat × Int :=
  let p := 400
  let l := Nat.log2 m
  let high := decide (3 * 2 ^ l ≤ 2 * m)
  let den := if high then 2 ^ (l + 1) else 2 ^ l
  let k : Int := (l : Int) + e + (if high then 1 else 0)
  let below := decide (m < den)
  let z := (if below then den - m else m - den) * 2 ^ p / (m + den)
  let g := 2 * fixArtanh p z * 2 ^ p / fixLn2 p
  let v : Int := k * (2 : Int) ^ p + (if below then -(g : Int) else g)
  (decide (v < 0), v.natAbs, -(p : Int))

/-- The nearest whole number of quarter turns and what is left, at the places returned: the argument is reduced exactly (R361). -/
def quarterTurns (m : Nat) (e : Int) : Nat × Int × Nat :=
  let p := placesFor m e + (topBit m e).toNat
  let q := fixPi p / 2
  let x := fixOf p m e
  let n := (x + q / 2) / q
  (n, (x : Int) - (n : Int) * q, p)

/-- sin x, or cos x. -/
def realTrig (isCos neg : Bool) (m : Nat) (e : Int) : Bool × Nat × Int :=
  let t := quarterTurns m e
  let n := if isCos then t.1 + 1 else t.1
  let r := t.2.1.natAbs
  let p := t.2.2
  let useCos := n % 2 == 1
  let flip := (decide (2 ≤ n % 4) != (!useCos && decide (t.2.1 < 0))) != (!isCos && neg)
  (flip, if useCos then fixCos p r else fixSin p r, -(p : Int))

/-- e^−y for y at p, at p; never zero. -/
def fixExpNeg (p y : Nat) : Nat :=
  let l := fixLn2 p
  let k := y / l + 1
  Nat.max 1 (fixExp p (k * l - y) / 2 ^ k)

/-- tanh x. -/
def realTanh (neg : Bool) (m : Nat) (e : Int) : Bool × Nat × Int :=
  let p := placesFor m e
  let t := if 10 ≤ topBit m e then 1 else fixExpNeg p (2 * fixOf p m e)
  (neg, (2 ^ p - t) * 2 ^ p / (2 ^ p + t), -(p : Int))

/-- 1 / (1 + e^−x). -/
def realSigm (neg : Bool) (m : Nat) (e : Int) : Bool × Nat × Int :=
  let p := placesFor m e + 1200
  let t := if 11 ≤ topBit m e then 1 else fixExpNeg p (fixOf p m e)
  (false, (if neg then t else 2 ^ p) * 2 ^ p / (2 ^ p + t), -(p : Int))

/-! ## What lies within a bound -/

/-- The magnitude of a format's element, an infinity standing for the value next above the largest. -/
def Ieee.magnitude (f : Ieee) (b : Nat) : Nat × Int :=
  match f.value b with
  | .num _ m e => (m, e)
  | _ => (1, (f.bias : Int) + 1)

/-- Whether two magnitudes are no more than k × 2^u apart. -/
def nearTo (k : Nat) (u : Int) (a b : Nat × Int) : Bool :=
  let e0 := Min.min u (Min.min a.2 b.2)
  let x := scaleTo a.1 a.2 e0
  let y := scaleTo b.1 b.2 e0
  decide ((x - y) + (y - x) ≤ scaleTo k u e0)

/-- The elements of a format nearTo k units in the last place of ± m × 2^e, a value known to lie strictly between that count and the
next (R361). -/
def Ieee.around (f : Ieee) (k : Nat) (neg : Bool) (m : Nat) (e : Int) : List Nat :=
  let y : Nat × Int := (2 * m + 1, e - 1)
  if (f.bias : Int) + 2 ≤ topBit y.1 y.2 then [f.infBits neg]
  else
    let base := (f.round .rz false (.num false y.1 y.2)).1
    let u : Int := Max.max (topBit y.1 y.2 - (f.frac : Int)) f.qmin
    let bs := (List.range (3 * k + 3)).map (fun i => base + k + 1 - i)
    (bs.eraseDups.filter (fun b => decide (b ≤ f.infBits false) && nearTo k u (f.magnitude b) y)).map (fun b => f.signBit neg + b)

end Sys2Proof.Machine
end

