-- ==== Sys2Proof/Machine/Sfu.lean ====
section
/-! DEFINITION. The special-function unit (R360 to R362). RCP and SQRT, and RSQ on 16-bit formats, are correctly rounded; the
exact points and the special operands are as the tables give them; every other result is the device's own (log 3). -/

namespace Sys2Proof.Machine

/-- The integer square root, bit by bit from 2^k down. -/
def isqrtBits (n : Nat) : Nat → Nat → Nat
  | 0, r => r
  | k + 1, r =>
    let t := r + 2 ^ k
    isqrtBits n k (if t * t ≤ n then t else r)

/-- The integer square root. -/
def isqrt (n : Nat) : Nat := isqrtBits n (Nat.log2 n / 2 + 1) 0

/-- A count with a half unit below it where something was cut off, so that one rounding of it is the rounding of the exact
value. -/
def sticky (q : Nat) (exact : Bool) (e : Int) : Nat × Int := if exact then (q, e) else (2 * q + 1, e - 1)

/-- 1 / (m × 2^e) to 128 bits and a sticky bit. -/
def recipExact (m : Nat) (e : Int) : Nat × Int :=
  let k := Nat.log2 m + 128
  sticky (2 ^ k / m) (2 ^ k % m == 0) (-(k : Int) - e)

/-- √(m × 2^e) to at least 64 bits and a sticky bit. -/
def sqrtExact (m : Nat) (e : Int) : Nat × Int :=
  let odd := e % 2
  let n := m * 2 ^ odd.toNat * 2 ^ 256
  let r := isqrt n
  sticky r (r * r == n) ((e - odd) / 2 - 128)

/-- 1 / √(m × 2^e) to at least 64 bits and a sticky bit. -/
def rsqrtExact (m : Nat) (e : Int) : Nat × Int :=
  let odd := e % 2
  let d := m * 2 ^ odd.toNat
  let k := Nat.log2 d + 256
  let k := k + k % 2
  let r := isqrt (2 ^ k / d)
  sticky r (r * r * d == 2 ^ k) (-((k : Int) / 2) - (e - odd) / 2)

/-- Functions of SFU in the order of R314. -/
inductive SfuFn where
  | rcp | rsq | sqrt | ex2 | lg2 | sin | cos | tanh | sigm
  deriving DecidableEq, Repr

/-- The function of a code 0 to 8 (R314). -/
def sfuFn (n : BitVec 4) : SfuFn :=
  match n.toNat with
  | 0 => .rcp | 1 => .rsq | 2 => .sqrt | 3 => .ex2 | 4 => .lg2 | 5 => .sin | 6 => .cos | 7 => .tanh | _ => .sigm

/-- The device's own choice among the values that a bound allows (R361, log 3). -/
def sfuChoice (fn tag : BitVec 4) (x : Nat) (l : List Nat) : Nat :=
  nth 0 l ((Config.sfu fn tag (BitVec.ofNat 64 x)).toNat % l.length)

/-- The bound of a function on a format, in units in the last place (R361). -/
def sfuBound (fn : SfuFn) (tag : BitVec 4) : Nat :=
  if tag = 3 then (if fn = .rsq then 1 else 2)
  else if tag = 4 ∧ (fn = .tanh ∨ fn = .sigm) then 2
  else 1

/-- f(x) of a finite non-zero operand, for the functions that are not correctly rounded (R361). -/
def sfuReal (fn : SfuFn) (neg : Bool) (m : Nat) (e : Int) : Bool × Nat × Int :=
  match fn with
  | .ex2 => realEx2 neg m e
  | .lg2 => realLg2 m e
  | .sin => realTrig false neg m e
  | .cos => realTrig true neg m e
  | .tanh => realTanh neg m e
  | .sigm => realSigm neg m e
  | _ => (neg, m, e)

/-- Flags of the device's own result of a finite operand: NX always, since no such f(x) is representable, OF for an infinity,
UF for a result below the smallest normal (R362). -/
def sfuOwnFlags (f : Ieee) (r : Nat) : Flags :=
  match f.value r with
  | .inf _ => flagOF ||| flagNX
  | .num _ 0 _ => flagUF ||| flagNX
  | .num _ _ _ => flagNX ||| flagIf (f.isSubnormal r) flagUF
  | .nan _ => flagNX

/-- 1/√x on F32 and F64: the device's own choice among the values within 1 ulp (R361): the neighbours of the exact value, or,
where it is representable, also the next ones. -/
def rsqOwn (f : Ieee) (fn tag : BitVec 4) (x m : Nat) (e : Int) : Nat × Flags :=
  let y := rsqrtExact m e
  let lo := f.round .rz false (.num false y.1 y.2)
  if lo.2 &&& flagNX = 0 then
    let r := sfuChoice fn tag x [lo.1, lo.1 + 1, lo.1 - 1]
    (r, flagIf (r != lo.1) flagNX)
  else (sfuChoice fn tag x [lo.1, lo.1 + 1], flagNX)

/-- Whether a finite non-zero value is a power of two, and its exponent. -/
def log2Exact (m : Nat) (e : Int) : Option Int := if m = 2 ^ Nat.log2 m then some ((Nat.log2 m : Int) + e) else none

/-- Whether a finite value is an integer, and which. -/
def intExact (neg : Bool) (m : Nat) (e : Int) : Option Int :=
  let r := roundAt .rz neg m e 0
  if r.2 then none else some (if neg then -(r.1 : Int) else r.1)

/-- 2^k rounded to a format (R361: every representable result is exact). -/
def ex2Int (f : Ieee) (k : Int) : Nat × Flags := f.round .rne false (.num false 1 k)

/-- The value 1 in a format. -/
def oneBits (f : Ieee) (neg : Bool) : Nat := (f.round .rne false (.num neg 1 0)).1

/-- One element of SFU (R361, R362): the special operands first, then the exact points and the rounded functions. -/
def sfuElem (fn tag : BitVec 4) (x : Nat) : Nat × Flags :=
  let f := ieeeOf tag
  let nv : Nat × Flags := (f.canonicalNan, flagNV)
  let none0 : Nat := 0
  match f.value x with
  | .nan s => (f.canonicalNan, flagIf s flagNV)
  | .inf neg =>
    match sfuFn fn with
    | .rcp => (f.signBit neg, 0)
    | .rsq => if neg then nv else (none0, 0)
    | .sqrt => if neg then nv else (f.infBits false, 0)
    | .ex2 => if neg then (none0, 0) else (f.infBits false, 0)
    | .lg2 => if neg then nv else (f.infBits false, 0)
    | .sin | .cos => nv
    | .tanh => (oneBits f neg, 0)
    | .sigm => if neg then (none0, 0) else (oneBits f false, 0)
  | .num neg 0 _ =>
    match sfuFn fn with
    | .rcp => (f.infBits neg, flagDZ)
    | .rsq => (f.infBits neg, flagDZ)
    | .sqrt => (f.signBit neg, 0)
    | .ex2 => (oneBits f false, 0)
    | .lg2 => (f.infBits true, flagDZ)
    | .sin | .tanh => (f.signBit neg, 0)
    | .cos => (oneBits f false, 0)
    | .sigm => ((f.round .rne false (.num false 1 (-1))).1, 0)
  | .num neg m e =>
    let own : Unit → Nat × Flags := fun _ =>
      let r := sfuReal (sfuFn fn) neg m e
      let v := sfuChoice fn tag x (f.around (sfuBound (sfuFn fn) tag) r.1 r.2.1 r.2.2)
      (v, sfuOwnFlags f v)
    match sfuFn fn with
    | .rcp =>
      let y := recipExact m e
      f.round .rne false (.num neg y.1 y.2)
    | .rsq =>
      if neg then nv
      else if f.width = 16 then
        let y := rsqrtExact m e
        f.round .rne false (.num false y.1 y.2)
      else rsqOwn f fn tag x m e
    | .sqrt =>
      if neg then nv
      else
        let y := sqrtExact m e
        f.round .rne false (.num false y.1 y.2)
    | .ex2 =>
      match intExact neg m e with
      | some k => ex2Int f k
      | none => own ()
    | .lg2 =>
      if neg then nv
      else
        match log2Exact m e with
        | some k => f.round .rne false (Ext.ofInt k)
        | none => own ()
    | .sin | .cos | .tanh | .sigm => own ()

/-- The whole result of SFU under FZ, with the union of the flags (R277, R360). -/
def sfuValue (fn tag : BitVec 4) (fz : Bool) (arg : BitVec 64) : Val × Flags :=
  packWith tag ((Val.elems ⟨arg, tag⟩).map (fun x =>
    let x := if fz && tag == 3 && ieee32.isSubnormal x then x / 2 ^ 31 * 2 ^ 31 else x
    writeFz tag fz (sfuElem fn tag x)))

/-- The least number of cycles until D is written (R360). -/
def sfuLatency (fn tag : BitVec 4) : Nat :=
  if tag = 3 then 14 else if tag = 4 then (if fn.toNat ≤ 2 then 40 else 60) else 16

/-- SFU in a lane: D becomes pending, and the operation is on its way; the flags it raises take their place in the warp's order of issue,
unless one of them is enabled, which is class 06 as the result is written (R285, R360, R362). -/
def laneSfu (fn : BitVec 4) (d a : BitVec 7) (c : LaneCtx) : LaneOut :=
  match c.sources [fld a] with
  | .error t => .error t
  | .ok vs =>
    let v := val0 vs
    if !isIeeeTag v.tag then .error (tagTrap 2 (fld a))
    else
      match c.dest (fld d) (isPairTag v.tag) with
      | .error t => .error t
      | .ok _ =>
        let n := if isPairTag v.tag then 2 else 1
        .ok (fun s =>
          let m := s.fresh
          let s := { s with fresh := m + 1 }
          let op : SfuOp := ⟨c.tid, fn, v.tag, v.bits, (c.physical (fld d) n).head?, m, c.fz, c.ten, s.time + sfuLatency fn v.tag⟩
          let flags := (sfuValue fn v.tag c.fz v.bits).2
          let s := if (arithTrap c.ten flags).isSome then s else raiseFlags c.tid.warp flags s
          { (c.markPending (fld d) n m s) with sfu := s.sfu ++ [op] })

/-- RCP (R360 to R362). -/
def execRcp (g : BitVec 4) (h : BitVec 1) (d a : BitVec 7) (s : State) : Host.Outcome State Fault Refusal :=
  .next (runLanes (.rcp g h d a) (laneSfu 0 d a) s)

/-- RSQ (R360 to R362). -/
def execRsq (g : BitVec 4) (h : BitVec 1) (d a : BitVec 7) (s : State) : Host.Outcome State Fault Refusal :=
  .next (runLanes (.rsq g h d a) (laneSfu 1 d a) s)

/-- SQRT (R360 to R362). -/
def execSqrt (g : BitVec 4) (h : BitVec 1) (d a : BitVec 7) (s : State) : Host.Outcome State Fault Refusal :=
  .next (runLanes (.sqrt g h d a) (laneSfu 2 d a) s)

/-- EX2 (R360 to R362). -/
def execEx2 (g : BitVec 4) (h : BitVec 1) (d a : BitVec 7) (s : State) : Host.Outcome State Fault Refusal :=
  .next (runLanes (.ex2 g h d a) (laneSfu 3 d a) s)

/-- LG2 (R360 to R362). -/
def execLg2 (g : BitVec 4) (h : BitVec 1) (d a : BitVec 7) (s : State) : Host.Outcome State Fault Refusal :=
  .next (runLanes (.lg2 g h d a) (laneSfu 4 d a) s)

/-- SIN (R360 to R362). -/
def execSin (g : BitVec 4) (h : BitVec 1) (d a : BitVec 7) (s : State) : Host.Outcome State Fault Refusal :=
  .next (runLanes (.sin g h d a) (laneSfu 5 d a) s)

/-- COS (R360 to R362). -/
def execCos (g : BitVec 4) (h : BitVec 1) (d a : BitVec 7) (s : State) : Host.Outcome State Fault Refusal :=
  .next (runLanes (.cos g h d a) (laneSfu 6 d a) s)

/-- TANH (R360 to R362). -/
def execTanh (g : BitVec 4) (h : BitVec 1) (d a : BitVec 7) (s : State) : Host.Outcome State Fault Refusal :=
  .next (runLanes (.tanh g h d a) (laneSfu 7 d a) s)

/-- SIGM (R360 to R362). -/
def execSigm (g : BitVec 4) (h : BitVec 1) (d a : BitVec 7) (s : State) : Host.Outcome State Fault Refusal :=
  .next (runLanes (.sigm g h d a) (laneSfu 8 d a) s)

/-- A special-function result written: an enabled flag is class 06 at this moment, D keeps its value and stops being pending;
otherwise the value where D still waits for it (R362, R287). -/
def writeSfu (op : SfuOp) (s : State) : State :=
  let r := sfuValue op.fn op.tag op.fz op.arg
  match arithTrap op.ten r.2 with
  | some t => takeTrap t op.thread (s.setThread op.thread ((s.thread op.thread).release op.mark))
  | none =>
    match op.dest with
    | none => s
    | some p =>
      let lo : Nat × Reg := (p, ⟨r.1.bits.extractLsb' 0 32, op.tag⟩)
      let hi : Nat × Reg := (p + 1, ⟨r.1.bits.extractLsb' 32 32, op.tag⟩)
      s.deliver op.thread op.mark (if isPairTag op.tag then [lo, hi] else [lo])

/-- Whether two operations are lanes of one instruction that met one tag: they end together (R360). -/
def SfuOp.sameAs (a b : SfuOp) : Bool :=
  decide (a.thread.warp.coreId = b.thread.warp.coreId) && decide (a.thread.warp.part = b.thread.warp.part) && a.fn == b.fn &&
  a.tag == b.tag && decide (a.due = b.due)

/-- SFU_RESULT: one of the instructions on their way ends in the lanes of one tag, no sooner than its latency (R360). -/
def execSfuResult (s : State) : Host.Outcome State Fault Refusal :=
  match nth? s.sfu s.pick with
  | none => .next s
  | some op =>
    .next (if op.due ≤ s.time then
      (s.sfu.filter op.sameAs).foldl (fun s o => writeSfu o s) { s with sfu := s.sfu.filter (fun o => !op.sameAs o) }
    else s)

end Sys2Proof.Machine
end

