-- ==== Sys2Proof/Machine/Walks.lean ====
section
/-! DEFINITION. The end of a page walk: the pages it found in the caches of every core that waited, or its fault in everything that
waited, each with its own address (R192 to R196, R233, R397). -/

namespace Sys2Proof.Machine

/-- The operations that commit with a matrix operation. -/
def State.commitsWith (s : State) (j : MatrixJob) : List MatrixJob :=
  match j.firing with
  | some f => (s.firingJobs f).getD [j]
  | none => [j]

/-- A walk's fault for one access that waited; one whose thread has left its group, or whose operation has ended, is none. -/
def State.walkFault (s : State) (asid : BitVec 8) (sub : Nat) (parks : Bool) (a : WalkAsk) : State :=
  match a.who with
  | .thread x =>
    if (s.thread x).st = .grouped ∨ (s.thread x).st = .fetchWait then s.translationFault x asid a.va sub a.kind parks else s
  | .engine id =>
    match s.job? id with
    | some j => s.stopJob id (s.unitDenied j.warp sub a.kind parks a.va)
    | none => s
  | .matrix id =>
    match s.matrix.find? (fun j => decide (j.id = id)) with
    | some j => s.mtxStop (s.unitDenied j.warp sub a.kind parks a.va) (s.commitsWith j)
    | none => s

/-- A machine event that ends a walk, for one access that waited (R64, R106, R114). -/
def State.walkEvent (s : State) (t : Trap) (a : WalkAsk) : State :=
  match a.who with
  | .thread x => if (s.thread x).st = .grouped ∨ (s.thread x).st = .fetchWait then takeTrap t x s else s
  | .engine id => s.stopJob id (.fault t)
  | .matrix id =>
    match s.matrix.find? (fun j => decide (j.id = id)) with
    | some j => s.mtxStop (.fault t) (s.commitsWith j)
    | none => s

/-- WALK_DONE: walk k of a die, one of the first 64, ends in the TLBs or in a fault, or waits for a table's sector (R190 to
R196). -/
def execWalkDone (die k : Nat) (s : State) : Host.Outcome State Fault Refusal :=
  match nth? (s.die die).walks k with
  | none => .next s
  | some w =>
    if 64 ≤ k then .next s
    else
      let done := s.onDie die (fun v => { v with walks := removeNth v.walks k })
      match s.walk die w.asid w.va.toNat with
      | .wait sec => .next (s.wantSector die sec false)
      | .page e seen => .next (((w.asks.map (fun a => a.core)).eraseDups).foldl (fun s c => s.tlbFill c e) (done.walkFill die seen))
      | .fault sub parks => .next (w.asks.foldl (fun s a => s.walkFault w.asid sub parks a) done)
      | .event sub pa => .next (w.asks.foldl (fun s a => s.walkEvent (eventTrap sub (pa + 2 ^ 44 * s.nmod) false) a) done)

end Sys2Proof.Machine
end

