-- ==== Sys2Proof/Machine/Dispatch.lean ====
section
/-! DEFINITION. The dispatcher: one arm for each step of the opcode table. -/

namespace Sys2Proof.Machine

/-- The meaning of an instruction, or of a step of the part. -/
def exec (i : Instr) (s : State) : Host.Outcome State Fault Refusal :=
  match i with
  | .rstctlWarm v => Sys2Proof.Machine.execRstctlWarm v s
  | .powerPhaseDone err sock => Sys2Proof.Machine.execPowerPhaseDone err sock s
  | .romPhaseDone seedOk => Sys2Proof.Machine.execRomPhaseDone seedOk s
  | .linksPhaseDone failed => Sys2Proof.Machine.execLinksPhaseDone failed s
  | .memoryPhaseDone failed => Sys2Proof.Machine.execMemoryPhaseDone failed s
  | .phaseBoundExpiry late => Sys2Proof.Machine.execPhaseBoundExpiry late s
  | .pcieConfigRequest iod => Sys2Proof.Machine.execPcieConfigRequest iod s
  | .rcvctlGo v => Sys2Proof.Machine.execRcvctlGo v s
  | .sensorSample die read watts weights => Sys2Proof.Machine.execSensorSample die read watts weights s
  | .dutyRestoreStep die => Sys2Proof.Machine.execDutyRestoreStep die s
  | .routerForward k next => Sys2Proof.Machine.execRouterForward k next s
  | .linkPacketReceive k flip => Sys2Proof.Machine.execLinkPacketReceive k flip s
  | .lackTimer link => Sys2Proof.Machine.execLackTimer link s
  | .replayTimeout link => Sys2Proof.Machine.execReplayTimeout link s
  | .linkRetrained link => Sys2Proof.Machine.execLinkRetrained link s
  | .retrainTimeout link => Sys2Proof.Machine.execRetrainTimeout link s
  | .holdoffExpiry site sector => Sys2Proof.Machine.execHoldoffExpiry site sector s
  | .missReissue site k => Sys2Proof.Machine.execMissReissue site k s
  | .preqRaise site k => Sys2Proof.Machine.execPreqRaise site k s
  | .mendStartTimeout sector => Sys2Proof.Machine.execMendStartTimeout sector s
  | .mendWindowTimeout sector => Sys2Proof.Machine.execMendWindowTimeout sector s
  | .eventDeliver owner => Sys2Proof.Machine.execEventDeliver owner s
  | .nmodWrite v => Sys2Proof.Machine.execNmodWrite v s
  | .npmapWrite v => Sys2Proof.Machine.execNpmapWrite v s
  | .nimcorPortTrained plane dup spines => Sys2Proof.Machine.execNimcorPortTrained plane dup spines s
  | .planeFail plane => Sys2Proof.Machine.execPlaneFail plane s
  | .npmapAdopt sock => Sys2Proof.Machine.execNpmapAdopt sock s
  | .rsynResend sock dmod => Sys2Proof.Machine.execRsynResend sock dmod s
  | .rauSend sock k => Sys2Proof.Machine.execRauSend sock k s
  | .remoteTimeout sock k => Sys2Proof.Machine.execRemoteTimeout sock k s
  | .rrd iod k => Sys2Proof.Machine.execRrd iod k s
  | .rwr iod k => Sys2Proof.Machine.execRwr iod k s
  | .ratm iod k => Sys2Proof.Machine.execRatm iod k s
  | .rcas iod k => Sys2Proof.Machine.execRcas iod k s
  | .rflg iod k => Sys2Proof.Machine.execRflg iod k s
  | .rnfl iod k => Sys2Proof.Machine.execRnfl iod k s
  | .rsyn iod k => Sys2Proof.Machine.execRsyn iod k s
  | .rrsp sock k => Sys2Proof.Machine.execRrsp sock k s
  | .rack sock k => Sys2Proof.Machine.execRack sock k s
  | .rars sock k => Sys2Proof.Machine.execRars sock k s
  | .rfak sock k => Sys2Proof.Machine.execRfak sock k s
  | .rnak sock k => Sys2Proof.Machine.execRnak sock k s
  | .flagResend sock k => Sys2Proof.Machine.execFlagResend sock k s
  | .cinv sock k => Sys2Proof.Machine.execCinv sock k s
  | .ctsk sock k => Sys2Proof.Machine.execCtsk sock k s
  | .cloc sock k => Sys2Proof.Machine.execCloc sock k s
  | .cres sock k => Sys2Proof.Machine.execCres sock k s
  | .cfre sock k => Sys2Proof.Machine.execCfre sock k s
  | .cack sock k => Sys2Proof.Machine.execCack sock k s
  | .chitReserveRefill die iod => Sys2Proof.Machine.execChitReserveRefill die iod s
  | .hostMemRead iod pa mv => Sys2Proof.Machine.execHostMemRead iod pa mv s
  | .hostMemWrite iod pa data mask => Sys2Proof.Machine.execHostMemWrite iod pa data mask s
  | .hostAtomicop iod op pa width x y => Sys2Proof.Machine.execHostAtomicop iod op pa width x y s
  | .birsp iod sector wb => Sys2Proof.Machine.execBirsp iod sector wb s
  | .hostSnoopTimeout iod sector => Sys2Proof.Machine.execHostSnoopTimeout iod sector s
  | .hostSnoop iod sector op => Sys2Proof.Machine.execHostSnoop iod sector op s
  | .cxlCacheCompletion k err data => Sys2Proof.Machine.execCxlCacheCompletion k err data s
  | .fmbWrite n v => Sys2Proof.Machine.execFmbWrite n v s
  | .hmbEnable v => Sys2Proof.Machine.execHmbEnable v s
  | .hmbDoorbell v => Sys2Proof.Machine.execHmbDoorbell v s
  | .hmbReplyConsume v => Sys2Proof.Machine.execHmbReplyConsume v s
  | .dieDrainDone sock why => Sys2Proof.Machine.execDieDrainDone sock why s
  | .memoryDieRestoreDone sock => Sys2Proof.Machine.execMemoryDieRestoreDone sock s
  | .ertdatWrite v => Sys2Proof.Machine.execErtdatWrite v s
  | .evringWrite owner v => Sys2Proof.Machine.execEvringWrite owner v s
  | .queueEnable disp n v => Sys2Proof.Machine.execQueueEnable disp n v s
  | .queueDisable disp n v => Sys2Proof.Machine.execQueueDisable disp n v s
  | .qcfgErrcClear disp n v => Sys2Proof.Machine.execQcfgErrcClear disp n v s
  | .recordAccept disp n => Sys2Proof.Machine.execRecordAccept disp n s
  | .hwPush disp k => Sys2Proof.Machine.execHwPush disp k s
  | .freeReport die => Sys2Proof.Machine.execFreeReport die s
  | .placeItem die => Sys2Proof.Machine.execPlaceItem die s
  | .priorityPromote disp k => Sys2Proof.Machine.execPriorityPromote disp k s
  | .pereqSubmit die v => Sys2Proof.Machine.execPereqSubmit die v s
  | .preemptStart die => Sys2Proof.Machine.execPreemptStart die s
  | .bundleSave die k => Sys2Proof.Machine.execBundleSave die k s
  | .saveDone die k => Sys2Proof.Machine.execSaveDone die k s
  | .preemptTimeout die => Sys2Proof.Machine.execPreemptTimeout die s
  | .reservationLapse die core => Sys2Proof.Machine.execReservationLapse die core s
  | .groupForm die core part port => Sys2Proof.Machine.execGroupForm die core part port s
  | .runFetchDone die core part port buf => Sys2Proof.Machine.execRunFetchDone die core part port buf s
  | .runEnd die core part port buf => Sys2Proof.Machine.execRunEnd die core part port buf s
  | .haltBroadcast die grid => Sys2Proof.Machine.execHaltBroadcast die grid s
  | .haltForceTimeout die grid => Sys2Proof.Machine.execHaltForceTimeout die grid s
  | .dumpWrite grid => Sys2Proof.Machine.execDumpWrite grid s
  | .wringDone die core => Sys2Proof.Machine.execWringDone die core s
  | .walkDone die k => Sys2Proof.Machine.execWalkDone die k s
  | .fresRetry die slot => Sys2Proof.Machine.execFresRetry die slot s
  | .fresDeliver die slot => Sys2Proof.Machine.execFresDeliver die slot s
  | .wsctlWreqSet die => Sys2Proof.Machine.execWsctlWreqSet die s
  | .wsctlWreqClear die => Sys2Proof.Machine.execWsctlWreqClear die s
  | .weightStoreFill die off pa len => Sys2Proof.Machine.execWeightStoreFill die off pa len s
  | .refreshWindowEnd die bank => Sys2Proof.Machine.execRefreshWindowEnd die bank s
  | .asrhWrite die n v => Sys2Proof.Machine.execAsrhWrite die n v s
  | .asrlWrite die n v => Sys2Proof.Machine.execAsrlWrite die n v s
  | .dbcEnWrite die n v => Sys2Proof.Machine.execDbcEnWrite die n v s
  | .dbsBrkClear die n => Sys2Proof.Machine.execDbsBrkClear die n s
  | .copyFault k e => Sys2Proof.Machine.execCopyFault k e s
  | .gangArrive die core part slot => Sys2Proof.Machine.execGangArrive die core part slot s
  | .multicastWindow die cluster k => Sys2Proof.Machine.execMulticastWindow die cluster k s
  | .joinReleaseTimeout die core part slot addr => Sys2Proof.Machine.execJoinReleaseTimeout die core part slot addr s
  | .watchdogExpiry die core part slot lane => Sys2Proof.Machine.execWatchdogExpiry die core part slot lane s
  | .debugStopSet die v => Sys2Proof.Machine.execDebugStopSet die v s
  | .smpctlWrite die v => Sys2Proof.Machine.execSmpctlWrite die v s
  | .sampleTick die core => Sys2Proof.Machine.execSampleTick die core s
  | .periodLogWrite die => Sys2Proof.Machine.execPeriodLogWrite die s
  | .tileStampWrite die core part slot => Sys2Proof.Machine.execTileStampWrite die core part slot s
  | .regWrite space off v => Sys2Proof.Machine.execRegWrite space off v s
  | .ill x => Sys2Proof.Machine.execIll x s
  | .opReserved o x => Sys2Proof.Machine.execOpReserved o x s
  | .add pfx g h d a b => Sys2Proof.Machine.execAdd pfx g h d a b s
  | .sub pfx g h d a b => Sys2Proof.Machine.execSub pfx g h d a b s
  | .mul pfx g h d a b => Sys2Proof.Machine.execMul pfx g h d a b s
  | .mulh pfx g h d a b => Sys2Proof.Machine.execMulh pfx g h d a b s
  | .fma pfx g h d a b => Sys2Proof.Machine.execFma pfx g h d a b s
  | .fms pfx g h d a b => Sys2Proof.Machine.execFms pfx g h d a b s
  | .dot pfx g h d a b => Sys2Proof.Machine.execDot pfx g h d a b s
  | .min g h d a b => Sys2Proof.Machine.execMin g h d a b s
  | .max g h d a b => Sys2Proof.Machine.execMax g h d a b s
  | .and g h d a b => Sys2Proof.Machine.execAnd g h d a b s
  | .or g h d a b => Sys2Proof.Machine.execOr g h d a b s
  | .xor g h d a b => Sys2Proof.Machine.execXor g h d a b s
  | .andn g h d a b => Sys2Proof.Machine.execAndn g h d a b s
  | .shl g h d a b => Sys2Proof.Machine.execShl g h d a b s
  | .shr g h d a b => Sys2Proof.Machine.execShr g h d a b s
  | .addi pfx g h d a x => Sys2Proof.Machine.execAddi pfx g h d a x s
  | .shli g h d a x => Sys2Proof.Machine.execShli g h d a x s
  | .shri g h d a x => Sys2Proof.Machine.execShri g h d a x s
  | .andi g h d a x => Sys2Proof.Machine.execAndi g h d a x s
  | .movi d x => Sys2Proof.Machine.execMovi d x s
  | .movh d x => Sys2Proof.Machine.execMovh d x s
  | .cmp g h x c a b => Sys2Proof.Machine.execCmp g h x c a b s
  | .cmpi g h x c a m => Sys2Proof.Machine.execCmpi g h x c a m s
  | .mov g h d a => Sys2Proof.Machine.execMov g h d a s
  | .not g h d a => Sys2Proof.Machine.execNot g h d a s
  | .neg g h d a => Sys2Proof.Machine.execNeg g h d a s
  | .abs g h d a => Sys2Proof.Machine.execAbs g h d a s
  | .clz g h d a => Sys2Proof.Machine.execClz g h d a s
  | .popc g h d a => Sys2Proof.Machine.execPopc g h d a s
  | .brev g h d a => Sys2Proof.Machine.execBrev g h d a s
  | .bswap g h d a => Sys2Proof.Machine.execBswap g h d a s
  | .cls g h d a => Sys2Proof.Machine.execCls g h d a s
  | .ctz g h d a => Sys2Proof.Machine.execCtz g h d a s
  | .tagof g h d a => Sys2Proof.Machine.execTagof g h d a s
  | .retag g h d a t => Sys2Proof.Machine.execRetag g h d a t s
  | .cvt pfx g h d a t r => Sys2Proof.Machine.execCvt pfx g h d a t r s
  | .rcp g h d a => Sys2Proof.Machine.execRcp g h d a s
  | .rsq g h d a => Sys2Proof.Machine.execRsq g h d a s
  | .sqrt g h d a => Sys2Proof.Machine.execSqrt g h d a s
  | .ex2 g h d a => Sys2Proof.Machine.execEx2 g h d a s
  | .lg2 g h d a => Sys2Proof.Machine.execLg2 g h d a s
  | .sin g h d a => Sys2Proof.Machine.execSin g h d a s
  | .cos g h d a => Sys2Proof.Machine.execCos g h d a s
  | .tanh g h d a => Sys2Proof.Machine.execTanh g h d a s
  | .sigm g h d a => Sys2Proof.Machine.execSigm g h d a s
  | .pand g p q r => Sys2Proof.Machine.execPand g p q r s
  | .por g p q r => Sys2Proof.Machine.execPor g p q r s
  | .pxor g p q r => Sys2Proof.Machine.execPxor g p q r s
  | .pandn g p q r => Sys2Proof.Machine.execPandn g p q r s
  | .vany g p a => Sys2Proof.Machine.execVany g p a s
  | .vall g p a => Sys2Proof.Machine.execVall g p a s
  | .vbal g d a => Sys2Proof.Machine.execVbal g d a s
  | .vuni g p a => Sys2Proof.Machine.execVuni g p a s
  | .p2r g d => Sys2Proof.Machine.execP2r g d s
  | .setp g h a => Sys2Proof.Machine.execSetp g h a s
  | .shfl g h d a b => Sys2Proof.Machine.execShfl g h d a b s
  | .shfi g h d a x => Sys2Proof.Machine.execShfi g h d a x s
  | .redAdd g h d a => Sys2Proof.Machine.execRedAdd g h d a s
  | .redMin g h d a => Sys2Proof.Machine.execRedMin g h d a s
  | .redMax g h d a => Sys2Proof.Machine.execRedMax g h d a s
  | .redAnd g h d a => Sys2Proof.Machine.execRedAnd g h d a s
  | .redOr g h d a => Sys2Proof.Machine.execRedOr g h d a s
  | .redXor g h d a => Sys2Proof.Machine.execRedXor g h d a s
  | .redScani g h d a => Sys2Proof.Machine.execRedScani g h d a s
  | .redScanx g h d a => Sys2Proof.Machine.execRedScanx g h d a s
  | .sel g h d a b => Sys2Proof.Machine.execSel g h d a b s
  | .bra g d => Sys2Proof.Machine.execBra g d s
  | .call g d => Sys2Proof.Machine.execCall g d s
  | .jr g h a => Sys2Proof.Machine.execJr g h a s
  | .jalr g h a => Sys2Proof.Machine.execJalr g h a s
  | .ret g h => Sys2Proof.Machine.execRet g h s
  | .join g d => Sys2Proof.Machine.execJoin g d s
  | .rdy g h => Sys2Proof.Machine.execRdy g h s
  | .rdyW g h => Sys2Proof.Machine.execRdyW g h s
  | .wnd g h a x => Sys2Proof.Machine.execWnd g h a x s
  | .mcall x d a b => Sys2Proof.Machine.execMcall x d a b s
  | .ld pfx g f d a s2 o c => Sys2Proof.Machine.execLd pfx g f d a s2 o c s
  | .st pfx g f d a s2 o c => Sys2Proof.Machine.execSt pfx g f d a s2 o c s
  | .atom pfx g h d a b => Sys2Proof.Machine.execAtom pfx g h d a b s
  | .cas pfx g h d a b => Sys2Proof.Machine.execCas pfx g h d a b s
  | .fence g h o c => Sys2Proof.Machine.execFence g h o c s
  | .mma pfx g h d a b => Sys2Proof.Machine.execMma pfx g h d a b s
  | .mtxZero g d a => Sys2Proof.Machine.execMtxZero g d a s
  | .mtxLd g h d a => Sys2Proof.Machine.execMtxLd g h d a s
  | .mtxSt g h d a => Sys2Proof.Machine.execMtxSt g h d a s
  | .mtxRd g h d a => Sys2Proof.Machine.execMtxRd g h d a s
  | .mtxRel g d => Sys2Proof.Machine.execMtxRel g d s
  | .cpy pfx g h d a b => Sys2Proof.Machine.execCpy pfx g h d a b s
  | .gth pfx g h d a b => Sys2Proof.Machine.execGth pfx g h d a b s
  | .trayCfg g h d a => Sys2Proof.Machine.execTrayCfg g h d a s
  | .trayRel g h d a => Sys2Proof.Machine.execTrayRel g h d a s
  | .trayRsv g h d a => Sys2Proof.Machine.execTrayRsv g h d a s
  | .trayCommit g a => Sys2Proof.Machine.execTrayCommit g a s
  | .trayPop g h d a => Sys2Proof.Machine.execTrayPop g h d a s
  | .trayDone g a => Sys2Proof.Machine.execTrayDone g a s
  | .trayCnt g h d a => Sys2Proof.Machine.execTrayCnt g h d a s
  | .barInit g f a l => Sys2Proof.Machine.execBarInit g f a l s
  | .barArv g f l => Sys2Proof.Machine.execBarArv g f l s
  | .barArvb g h f a l => Sys2Proof.Machine.execBarArvb g h f a l s
  | .barWait g h f l => Sys2Proof.Machine.execBarWait g h f l s
  | .barRel g f l => Sys2Proof.Machine.execBarRel g f l s
  | .wait g k n => Sys2Proof.Machine.execWait g k n s
  | .invk pfx g h d a b => Sys2Proof.Machine.execInvk pfx g h d a b s
  | .chitAwait g a => Sys2Proof.Machine.execChitAwait g a s
  | .chitTest g h d a => Sys2Proof.Machine.execChitTest g h d a s
  | .chitFree g a => Sys2Proof.Machine.execChitFree g a s
  | .chitSlot g h d a => Sys2Proof.Machine.execChitSlot g h d a s
  | .poolScr g h d a => Sys2Proof.Machine.execPoolScr g h d a s
  | .poolMxs g h d a => Sys2Proof.Machine.execPoolMxs g h d a s
  | .wmonCfg g h d a => Sys2Proof.Machine.execWmonCfg g h d a s
  | .wmonRel g h d a => Sys2Proof.Machine.execWmonRel g h d a s
  | .wmonRdlo g h d a => Sys2Proof.Machine.execWmonRdlo g h d a s
  | .wmonRdhi g h d a => Sys2Proof.Machine.execWmonRdhi g h d a s
  | .mfs g n d n2 => Sys2Proof.Machine.execMfs g n d n2 s
  | .mts g n a n2 => Sys2Proof.Machine.execMts g n a n2 s
  | .trap g c => Sys2Proof.Machine.execTrap g c s
  | .exit g h => Sys2Proof.Machine.execExit g h s
  | .brk g h a => Sys2Proof.Machine.execBrk g h a s
  | .resume g h => Sys2Proof.Machine.execResume g h s
  | .fail g h => Sys2Proof.Machine.execFail g h s
  | .refq g h d a => Sys2Proof.Machine.execRefq g h d a s
  | .locq g h d a => Sys2Proof.Machine.execLocq g h d a s
  | .time g h d => Sys2Proof.Machine.execTime g h d s
  | .place g h d a => Sys2Proof.Machine.execPlace g h d a s
  | .mload g h d a => Sys2Proof.Machine.execMload g h d a s
  | .tsrOpen g h a => Sys2Proof.Machine.execTsrOpen g h a s
  | .tsrClose g h a => Sys2Proof.Machine.execTsrClose g h a s
  | .contextRestoreDone die k => Sys2Proof.Machine.execContextRestoreDone die k s
  | .pcieLinkUp iod cxl => Sys2Proof.Machine.execPcieLinkUp iod cxl s
  | .serviceRequest die svc => Sys2Proof.Machine.execServiceRequest die svc s
  | .ethernetFrameReceive iod conn prio payload => Sys2Proof.Machine.execEthernetFrameReceive iod conn prio payload s
  | .coldReset => Sys2Proof.Machine.execColdReset s
  | .configPhaseDone => Sys2Proof.Machine.execConfigPhaseDone s
  | .managersPhaseDone => Sys2Proof.Machine.execManagersPhaseDone s
  | .recoveryCheckDone => Sys2Proof.Machine.execRecoveryCheckDone s
  | .undervoltTimeout => Sys2Proof.Machine.execUndervoltTimeout s
  | .lack => Sys2Proof.Machine.execLack s
  | .lnak => Sys2Proof.Machine.execLnak s
  | .dieCacheAccess => Sys2Proof.Machine.execDieCacheAccess s
  | .gets => Sys2Proof.Machine.execGets s
  | .getx => Sys2Proof.Machine.execGetx s
  | .getr => Sys2Proof.Machine.execGetr s
  | .tokd => Sys2Proof.Machine.execTokd s
  | .tokn => Sys2Proof.Machine.execTokn s
  | .datr => Sys2Proof.Machine.execDatr s
  | .rmis => Sys2Proof.Machine.execRmis s
  | .dloss => Sys2Proof.Machine.execDloss s
  | .preq => Sys2Proof.Machine.execPreq s
  | .pact => Sys2Proof.Machine.execPact s
  | .pdone => Sys2Proof.Machine.execPdone s
  | .pdeact => Sys2Proof.Machine.execPdeact s
  | .pack => Sys2Proof.Machine.execPack s
  | .lost => Sys2Proof.Machine.execLost s
  | .mend => Sys2Proof.Machine.execMend s
  | .mret => Sys2Proof.Machine.execMret s
  | .mdone => Sys2Proof.Machine.execMdone s
  | .brdq => Sys2Proof.Machine.execBrdq s
  | .brdr => Sys2Proof.Machine.execBrdr s
  | .eprq => Sys2Proof.Machine.execEprq s
  | .eprs => Sys2Proof.Machine.execEprs s
  | .nxrq => Sys2Proof.Machine.execNxrq s
  | .nxrs => Sys2Proof.Machine.execNxrs s
  | .ochk => Sys2Proof.Machine.execOchk s
  | .ocnf => Sys2Proof.Machine.execOcnf s
  | .evnt => Sys2Proof.Machine.execEvnt s
  | .nctlEnSet => Sys2Proof.Machine.execNctlEnSet s
  | .nctlEnClear => Sys2Proof.Machine.execNctlEnClear s
  | .replyWrite => Sys2Proof.Machine.execReplyWrite s
  | .ping => Sys2Proof.Machine.execPing s
  | .regrd => Sys2Proof.Machine.execRegrd s
  | .regwr => Sys2Proof.Machine.execRegwr s
  | .unmap => Sys2Proof.Machine.execUnmap s
  | .rdrop => Sys2Proof.Machine.execRdrop s
  | .lostclr => Sys2Proof.Machine.execLostclr s
  | .dieoff => Sys2Proof.Machine.execDieoff s
  | .dieon => Sys2Proof.Machine.execDieon s
  | .evpost => Sys2Proof.Machine.execEvpost s
  | .mext => Sys2Proof.Machine.execMext s
  | .attest => Sys2Proof.Machine.execAttest s
  | .ownkey => Sys2Proof.Machine.execOwnkey s
  | .endpointBadtype => Sys2Proof.Machine.execEndpointBadtype s
  | .batchSend => Sys2Proof.Machine.execBatchSend s
  | .copyDone => Sys2Proof.Machine.execCopyDone s
  | .gatherDone => Sys2Proof.Machine.execGatherDone s
  | .engineSlotCommit => Sys2Proof.Machine.execEngineSlotCommit s
  | .sfuResult => Sys2Proof.Machine.execSfuResult s
  | .mmaCommit => Sys2Proof.Machine.execMmaCommit s
  | .mtxTransferDone => Sys2Proof.Machine.execMtxTransferDone s
  | .pendingRegisterWrite => Sys2Proof.Machine.execPendingRegisterWrite s

end Sys2Proof.Machine
end

