-- ==== Sys2Proof/Machine/Sched.lean ====
section
/-! DEFINITION. What moves next where the agenda does not say: the work that stands ready in the machine, in one order, and
taken in rotation (log 7). A candidate whose conditions do not hold yet has no effect. -/

namespace Sys2Proof.Machine

/-- What a formed group does next: its fetch, its next instruction, or its end. -/
def groupMove (p : GroupKey × Group) : Move :=
  if !p.2.fetched then .event (.runFetchDone p.1.die p.1.core p.1.part p.1.port p.1.buf) 0
  else if p.2.len ≤ p.2.next then .event (.runEnd p.1.die p.1.core p.1.part p.1.port p.1.buf) 0
  else .issue p.1

/-- The partitions that have a READY thread. -/
def readyParts (s : State) : List (Nat × Nat × Nat) :=
  (s.threads.filterMap (fun p =>
    if p.2.st = .ready then some (p.1.warp.die, p.1.warp.core, p.1.warp.part) else none)).eraseDups

/-- A list's places, each turned into a move. -/
def eachPlace {α : Type} (l : List α) (f : α → Nat → Move) : List Move := l.zipIdx.map (fun p => f p.1 p.2)

/-- The cores' own work: results, group formation and issue, matrix units, engines (R154, R305, R360, R388, R234). -/
def coreMoves (s : State) : List Move :=
  (if s.returns.isEmpty then [] else [.event .pendingRegisterWrite 0]) ++
  (if s.sfu.isEmpty then [] else [.event .sfuResult 0]) ++
  s.groups.map groupMove ++
  (readyParts s).flatMap (fun p => [.event (.groupForm p.1 p.2.1 p.2.2 0) 0, .event (.groupForm p.1 p.2.1 p.2.2 1) 0]) ++
  eachPlace s.matrix (fun j k => .event (if j.fn = 5 then .mmaCommit else .mtxTransferDone) k) ++
  eachPlace s.jobs (fun j k => .event (if j.gather then .gatherDone else .copyDone) k) ++
  (s.jobs.zipIdx.flatMap (fun p => (List.range p.1.fills.length).map (fun f => .event .engineSlotCommit (p.2 + 65536 * f)))) ++
  (s.cores.flatMap (fun p => if p.2.wring.isSome then [.event (.wringDone p.1.die p.1.core) 0] else [])) ++
  (s.clusters.flatMap (fun p => eachPlace p.2.fetches (fun _ k => .event (.multicastWindow p.1.1 p.1.2 k) 0)))

/-- What a warp may be due: its arrival at a gang's latch (R402), a closed tile record (R269). -/
def warpMoves (s : State) : List Move :=
  s.warps.flatMap (fun p =>
    (if p.2.gang = 0 then [] else [.event (.gangArrive p.1.die p.1.core p.1.part p.1.slot) 0]) ++
    (if p.2.stamps.isEmpty then [] else [.event (.tileStampWrite p.1.die p.1.core p.1.part p.1.slot) 0]))

/-- What a thread may be due: the release of a JOIN, its watchdog (R261, R347). -/
def threadMoves (s : State) : List Move :=
  s.threads.flatMap (fun p =>
    let w := p.1.warp
    (match p.2.wait with
      | some (.join a t) => if t + 256 ≤ s.time then [.event (.joinReleaseTimeout w.die w.core w.part w.slot a) 0] else []
      | _ => []) ++
    (if s.watchdogDue p.1 then [.event (.watchdogExpiry w.die w.core w.part w.slot p.1.lane) 0] else []))

/-- The caches: accesses, misses, hold-offs, mends, snoops, walks (R50, R56, R57, R60, R62, R104, R190). -/
def cacheMoves (s : State) : List Move :=
  eachPlace s.coh.accesses (fun _ k => .event .dieCacheAccess k) ++
  (s.coh.misses.flatMap (fun p =>
    let k := (s.coh.misses.filter (fun q => decide (q.1 = p.1))).findIdx (fun q => decide (q = p))
    [.event (.missReissue p.1 k) 0, .event (.preqRaise p.1 k) 0])) ++
  s.coh.holdoff.map (fun p => .event (.holdoffExpiry p.1.1 p.1.2) 0) ++
  s.coh.mends.flatMap (fun m => [.event (.mendStartTimeout m.sector) 0, .event (.mendWindowTimeout m.sector) 0]) ++
  s.coh.preqs.map (fun e => .event (.mendStartTimeout e.sector) 0) ++
  s.coh.snoops.flatMap (fun x => if x.raised then [] else [.event (.hostSnoopTimeout x.iod x.sector) 0]) ++
  s.dies.flatMap (fun p =>
    eachPlace (p.2.walks.take 64) (fun _ k => .event (.walkDone p.1 k) 0) ++
    (p.2.refreshWaits.map Prod.fst).eraseDups.map (fun b => .event (.refreshWindowEnd p.1 b) 0))

/-- What a packet at its die does, by its OPC (R38). -/
def packetStep (p : Packet) : Option Instr :=
  match p.opc.toNat with
  | 0x01 => some .gets | 0x02 => some .getx | 0x03 => some .getr
  | 0x10 => some .tokd | 0x11 => some .tokn | 0x12 => some .datr | 0x13 => some .rmis | 0x14 => some .dloss
  | 0x20 => some .preq | 0x21 => some .pact | 0x22 => some .pdone | 0x23 => some .pdeact | 0x24 => some .pack
  | 0x30 => some .mend | 0x31 => some .mret | 0x32 => some .mdone | 0x33 => some .lost
  | 0x50 => some .brdq | 0x51 => some .brdr
  | 0x60 => some .eprq | 0x61 => some .eprs | 0x62 => some .nxrq | 0x63 => some .nxrs | 0x64 => some .ochk | 0x65 => some .ocnf | 0x66 => some .evnt
  | _ => none

/-- The routers to which the packet in a place may go, the one at its end standing for its own die (R40). -/
def hopMoves (s : State) (b : Buffered) (k : Nat) : List Move :=
  if b.packet.dst = b.router then [.event (.routerForward k b.router) 0]
  else (s.hops b.router b.packet).map (fun n => .event (.routerForward k n.1) 0)

/-- The transport (R34 to R45). -/
def netMoves (s : State) : List Move :=
  eachPlace s.net.wire (fun _ k => .event (.linkPacketReceive k 0) 0) ++
  eachPlace s.net.msgs (fun m k => .event (if m.nak then .lnak else .lack) k) ++
  s.net.routers.zipIdx.flatMap (fun p => hopMoves s p.1 p.2) ++
  s.net.inbox.zipIdx.flatMap (fun p => match packetStep p.1.2 with | some i => [.event i p.2] | none => []) ++
  s.net.links.flatMap (fun p =>
    (if p.2.lackDue && decide (p.2.lackAt + 64 ≤ s.time) then [.event (.lackTimer p.1) 0] else []) ++
    (if p.2.replay.isEmpty then [] else [.event (.replayTimeout p.1) 0]) ++
    (if p.2.retrainAt.isSome then [.event (.linkRetrained p.1) 0, .event (.retrainTimeout p.1) 0] else []))

/-- A response in the inbox of a remote access unit (R76). -/
def responseStep (sock k : Nat) (n : NPacket) : Option Instr :=
  match n.nopc.toNat with
  | 0x10 => some (.rrsp sock k) | 0x11 => some (.rack sock k) | 0x12 => some (.rars sock k)
  | 0x13 => some (.rfak sock k) | 0x14 => some (.rnak sock k)
  | _ => none

/-- A request that has arrived at a port (R76). -/
def requestStep (iod k : Nat) (n : NPacket) : Option Instr :=
  match n.nopc.toNat with
  | 1 => some (.rrd iod k) | 2 => some (.rwr iod k) | 3 => some (.ratm iod k) | 4 => some (.rcas iod k)
  | 5 => some (.rflg iod k) | 6 => some (.rnfl iod k) | 7 => some (.rsyn iod k)
  | _ => none

/-- A chit message at its die (R95). -/
def chitStep (m : ChitMsg) (k : Nat) : Option Instr :=
  match m.nopc.toNat with
  | 0x20 => some (.cinv m.dsock k) | 0x21 => some (.ctsk m.dsock k) | 0x22 => some (.cloc m.dsock k)
  | 0x23 => some (.cres m.dsock k) | 0x24 => some (.cfre m.dsock k) | 0x25 => some (.cack m.dsock k)
  | _ => none

/-- A step, where there is one. -/
def moveOf : Option Instr → List Move
  | some i => [.event i 0]
  | none => []

/-- The fabric and the chits (R72, R78 to R90, R94, R95). -/
def fabricMoves (s : State) : List Move :=
  s.fab.raus.flatMap (fun p =>
    let r := p.2
    (List.range (r.held.length + r.flags.length)).map (fun k => .event (.rauSend p.1 k) 0) ++
    r.inbox.zipIdx.flatMap (fun n => moveOf (responseStep p.1 n.2 n.1)) ++
    eachPlace r.txns (fun _ k => .event (.flagResend p.1 k) 0) ++
    (List.range (r.txns.length + r.held.length)).map (fun k => .event (.remoteTimeout p.1 k) 0) ++
    (r.flags.flatMap (fun f => if f.2.shold then [.event (.rsynResend p.1 f.1) 0] else [])) ++
    (if r.map = s.fab.map then [] else [.event (.npmapAdopt p.1) 0])) ++
  s.fab.ports.flatMap (fun p =>
    p.2.arrivals.zipIdx.flatMap (fun n => moveOf (requestStep p.1 n.2 n.1)) ++
    eachPlace (p.2.flags.filter (fun f => f.confirmed)) (fun _ k => .event (.rflg p.1 (p.2.arrivals.length + k)) 0)) ++
  s.chits.msgs.zipIdx.flatMap (fun m => moveOf (chitStep m.1 m.2)) ++
  (if s.moduleReady then
    (List.range 8).flatMap (fun d => [20, 21].flatMap (fun i =>
      if (lookupD (d, i) [] s.chits.reserves).length < 64 then [.event (.chitReserveRefill d i) 0] else []))
  else [])

/-- What an endpoint request asks for (R111). -/
def messageStep (m : EpMsg) : Instr :=
  match m.typ.toNat with
  | 0x01 => .ping | 0x10 => .regrd | 0x11 => .regwr | 0x20 => .unmap | 0x21 => .rdrop | 0x22 => .lostclr
  | 0x30 => .dieoff | 0x31 => .dieon | 0x40 => .evpost | 0x50 => .mext | 0x51 => .attest | 0x52 => .ownkey
  | _ => .endpointBadtype

/-- Management: requests, replies, events, dies on their way out, the service cores' rings (R109 to R121). -/
def mgmtMoves (s : State) : List Move :=
  eachPlace s.mgmt.requests (fun m k => .event (messageStep m) k) ++
  (if s.mgmt.replies.isEmpty then [] else [.event .replyWrite 0]) ++
  s.mgmt.events.flatMap (fun e => match e.owner with | none => [] | some o => [.event (.eventDeliver o) 0]) ++
  s.mgmt.draining.map (fun d => .event (.dieDrainDone d.1 0) 0) ++
  (if s.mgmt.migration.isSome then [.event (.dieDrainDone 8 0) 0] else []) ++
  (if s.mgmt.unmaps.isEmpty then [] else [.event .unmap s.mgmt.requests.length]) ++
  s.service.harts.flatMap (fun h => if h.2.queue.isEmpty then [] else [.service (.hartNext h.1)]) ++
  (if s.moduleReady then
    (List.range 8).flatMap (fun d => (List.range 16).map (fun v => .event (.serviceRequest d v) 0))
  else [])

/-- A dispatcher's work (R131 to R147). -/
def dispatcherMoves (s : State) (p : Nat × Dispatcher) : List Move :=
  let d := p.2
  d.queues.flatMap (fun q => if q.2.en then [.event (.recordAccept p.1 q.1) 0] else []) ++
  eachPlace d.hold (fun _ k => .event (.hwPush p.1 k) 0) ++
  (d.ready.zipIdx.flatMap (fun i => if i.1.prio < 7 && decide (i.1.since + 110000 * (i.1.prio + 1 - i.1.base) ≤ s.time) then
    [.event (.priorityPromote p.1 i.2) 0] else [])) ++
  (if d.ready.isEmpty then [] else [.event (if p.1 = 20 then .batchSend else .placeItem p.1) 0]) ++
  (if (s.nextRequest p.1).isSome then [.event (.preemptStart p.1) 0] else []) ++
  (match s.inService p.1 with
    | some r => (List.range r.victims.length).flatMap (fun k => [.event (.bundleSave p.1 k) 0, .event (.saveDone p.1 k) 0]) ++
        [.event (.preemptTimeout p.1) 0]
    | none => []) ++
  (d.reserved.filterMap (fun (x : Nat × Nat × Option Nat) => match x.2.2 with
    | some t => if t + 110000 ≤ s.time then some (.event (.reservationLapse p.1 x.1) 0) else none
    | none => none))

/-- Launch, pre-emption, and grids that stop (R131 to R147, R263). -/
def launchMoves (s : State) : List Move :=
  s.disp.flatMap (dispatcherMoves s) ++
  (if s.moduleReady then (List.range 8).map (fun d => .event (.freeReport d) 0) else []) ++
  s.shadow.zipIdx.flatMap (fun x => if x.1.restoring.isSome then [.event (.contextRestoreDone x.1.die x.2) 0] else []) ++
  s.grids.flatMap (fun g =>
    match g.2.fatal with
    | none => []
    | some f =>
      if g.2.gone then []
      else (List.range 8).flatMap (fun d =>
        if f.reached.any (fun (r : Nat × Nat) => decide (r.1 = d)) then [.event (.haltForceTimeout d g.1) 0]
        else [.event (.haltBroadcast d g.1) 0]) ++ [.event (.dumpWrite g.1) 0])

/-- Sampling, the duty, and the bounds of bring-up (R16, R29, R267, R268). -/
def watchMoves (s : State) : List Move :=
  s.dies.flatMap (fun p =>
    (if p.2.obs.en then (List.range 192).flatMap (fun c =>
      if (s.core ⟨p.1, c⟩).sampledAt + 2 ^ p.2.obs.cur.toNat ≤ s.time then [.event (.sampleTick p.1 c) 0] else []) else []) ++
    (if p.2.obs.pendingLog.isEmpty then [] else [.event (.periodLogWrite p.1) 0])) ++
  (s.boot.dutyAt.map (fun p => p.1.die)).eraseDups.flatMap (fun d =>
    if (coresOf d).any (fun c => s.dutyDue c) then [.event (.dutyRestoreStep d) 0] else []) ++
  [.event (.phaseBoundExpiry none) 0]

/-- Everything that could move. -/
def candidates (s : State) : List Move :=
  coreMoves s ++ warpMoves s ++ threadMoves s ++ cacheMoves s ++ netMoves s ++ fabricMoves s ++ mgmtMoves s ++ launchMoves s ++
  watchMoves s

/-- The move of an empty agenda: one of the candidates in rotation, and otherwise the clock. -/
def defaultMove (s : State) : Move :=
  let l := candidates s
  match nth? l (s.time % (l.length + 1)) with
  | some m => m
  | none => .tick 0

end Sys2Proof.Machine
end

