-- ==== Sys2Proof/Machine/Moves.lean ====
section
/-! DEFINITION. Moves carried out: a step of the part, a group's next instruction, the clock, and what comes from outside. -/

namespace Sys2Proof.Machine

/-- Time passes, and threads that stand at what they waited for go on (R152). -/
def State.tick (s : State) (n : Nat) : State := { s with time := s.time + n }.standUp

/-- A Nimcor packet arriving from another module, on its way to a port of a plane that is up (R70, R74). -/
def State.arrive (s : State) (p : NPacket) : State :=
  if s.fab.up.getLsbD p.plane then s.sendFlits (nimRx p.plane) p else s

/-- A byte that the host writes in its own memory (R112). -/
def State.hostWrites (s : State) (a : Nat) (b : Byte) : State :=
  { s with mgmt := { s.mgmt with hostMem := writeCell a b s.mgmt.hostMem } }

/-- A request of the firmware of a die or service core, on its way to its endpoint (R109). -/
def State.endpointSends (s : State) (m : EpMsg) : State :=
  if m.ssock ≤ 21 then s.sendRequest m.ssock m else s

/-- What the rails do: whether one of them does not reach the set-point given to it (R21, R32). -/
def State.railsReach (s : State) (bad : Bool) : State := s.onBoot (fun b => { b with railBad := bad })

/-- A step of the part, where it is no instruction of a program: those are issued by groups. -/
def State.event (s : State) (i : Instr) (pick : Nat) : Host.Outcome State Fault Refusal :=
  if (encode i).isEmpty then exec i { s with pick := pick } else .next s

/-- The next instruction of a group (R303). -/
def State.issue (s : State) (k : GroupKey) : Host.Outcome State Fault Refusal :=
  match nextIssue k s with
  | .run i t => exec i t
  | .done t => .next t

/-- One move carried out. -/
def move (m : Move) (s : State) : Host.Outcome State Fault Refusal :=
  match m with
  | .event i pick => s.event i pick
  | .issue k => s.issue k
  | .tick n => .next (s.tick n)
  | .arrive p => .next (s.arrive p)
  | .hostStore a b => .next (s.hostWrites a b)
  | .element j e => .next (s.oneElement j e)
  | .endpoint m => .next (s.endpointSends m)
  | .service o => .next (s.serve' o)
  | .rails bad => .next (s.railsReach bad)

/-- The state of a step whose move the machine chooses: a cycle passes. -/
def State.idle (s : State) : State := s.tick 1

end Sys2Proof.Machine
end

