-- ==== Sys2Proof/Machine/Step.lean ====
section
/-! DEFINITION. One step of the machine: the next move of the agenda, or of the machine's own work where the agenda is
empty. -/

namespace Sys2Proof.Machine

/-- One step. -/
def step (s : State) : Host.Outcome State Fault Refusal :=
  match s.agenda with
  | m :: rest => move m { s with agenda := rest }
  | [] => move (defaultMove s.idle) s.idle

/-- The group in which `withFetchWord` places an instruction: slot 0 of partition 0 of core 0 of CD 0, its main port. -/
def fetchKey : GroupKey := ⟨0, 0, 0, 0, 0⟩

/-- The warp of that group. -/
def fetchWarp : WarpId := ⟨0, 0, 0, 0⟩

/-- The run that holds one instruction of `n` words: its trailer marks a region entry (R300). -/
def fetchGroup (ws : List Word) : Group :=
  { members := List.replicate 32 (some 0), addr := 0x1000, words := ws,
    trailerA := 0xFC080000 + BitVec.ofNat 32 (ws.length * 2 ^ 21), trailerB := 0, fetched := true, here := 0, next := 0,
    cycle := 0, temps := [], hazards := [], latch := [], targets := [], varDests := [], entered := false, seed := 0, formedAt := 0, dueAt := 0, held := false }

/-- The state with an instruction in the run buffer of a formed group of 32 threads of a started bundle of one warp with
REGS 32, its operand cycles passed (R159), and that group's issue next on the agenda (log 8). -/
def State.withFetchWord (s : State) (nbits w : Nat) : State :=
  let v : BitVec 64 := BitVec.ofNat 64 (w % 2 ^ nbits)
  let ws := if nbits ≤ 32 then [v.extractLsb' 0 32] else [v.extractLsb' 0 32, v.extractLsb' 32 32]
  let b : Bundle := { Bundle.reset with regs := 32, ready := true, begun := true }
  let s := s.setBundle ⟨0, 0⟩ 0 b
  let s := s.setWarp fetchWarp Warp.reset
  let s := fetchWarp.threads.foldl (fun s t =>
    s.setThread t { Thread.reset with st := .grouped, pc := 0x1000, repc := 0x1000 }) s
  { (s.setGroup fetchKey (fetchGroup ws)) with time := s.time + 32, agenda := [.issue fetchKey] }

end Sys2Proof.Machine
end

