-- ==== Sys2Proof/WellFormed.lean ====
section
/-! DEFINITION. Which instructions are well formed: those whose own fields raise no class 00 (R319), and steps of the part
whose arguments name something the module has (R2, R126, R150). -/

namespace Sys2Proof

open Sys2Proof.Machine

/-- A compute die: CD 0 to 7 (R5). -/
def isDie (d : Nat) : Bool := decide (d < 8)
/-- An I/O die: socket 20 or 21 (R5). -/
def isIod (d : Nat) : Bool := d == 20 || d == 21
/-- A dispatcher: of a die, or the global one numbered 20 (R133). -/
def isDispatcher (d : Nat) : Bool := isDie d || d == 20
/-- A core of a die: 0 to 191 (R126). -/
def isCore (d c : Nat) : Bool := isDie d && decide (c < 192)
/-- A partition of a core: 0 to 3 (R150). -/
def isPart (d c p : Nat) : Bool := isCore d c && decide (p < 4)
/-- A warp slot of a partition: 0 to 15 (R150). -/
def isSlot (d c p w : Nat) : Bool := isPart d c p && decide (w < 16)
/-- A site of tokens: a die cache 0 to 7 or a far cache 20, 21 (R47). -/
def isSite (d : Nat) : Bool := isDie d || isIod d
/-- A memory die: socket 8 to 19 (R5). -/
def isMemoryDie (d : Nat) : Bool := decide (8 ≤ d) && decide (d ≤ 19)
/-- A socket: 0 to 21 (R5). -/
def isSocket (d : Nat) : Bool := decide (d < 22)

/-- Well-formedness of an instruction. -/
def wellFormed (i : Instr) : Bool :=
  (match guardOf i with
    | some g => decide (g.toNat ≤ 12)
    | none => true) && (encodingFault i).isNone &&
  match i with
  | .ill _ => false
  | .opReserved _ _ => false
  | .sel g _ _ _ _ => decide (g.toNat ≤ 12)
  | .pcieConfigRequest iod => isIod iod
  | .dutyRestoreStep d => isDie d
  | .sensorSample d _ _ _ => isSocket d
  | .holdoffExpiry st _ => isSite st
  | .missReissue st _ => isSite st
  | .preqRaise st _ => isSite st
  | .planeFail p => decide (p < 8)
  | .npmapAdopt d => isSite d
  | .rauSend d _ => isSite d
  | .remoteTimeout d _ => isSite d
  | .rsynResend d _ => isSite d
  | .flagResend d _ => isSite d
  | .rrd d _ => isIod d
  | .rwr d _ => isIod d
  | .ratm d _ => isIod d
  | .rcas d _ => isIod d
  | .rflg d _ => isIod d
  | .rnfl d _ => isIod d
  | .rsyn d _ => isIod d
  | .chitReserveRefill d iod => isDie d && isIod iod
  | .hostMemRead iod _ _ => isIod iod
  | .hostMemWrite iod _ _ _ => isIod iod
  | .hostAtomicop iod _ _ _ _ _ => isIod iod
  | .birsp iod _ _ => isIod iod
  | .hostSnoopTimeout iod _ => isIod iod
  | .hostSnoop iod _ _ => isIod iod
  | .dieDrainDone d _ => isSocket d
  | .memoryDieRestoreDone d => isMemoryDie d
  | .queueEnable d n _ => isDispatcher d && decide (n < 64)
  | .queueDisable d n _ => isDispatcher d && decide (n < 64)
  | .qcfgErrcClear d n _ => isDispatcher d && decide (n < 64)
  | .recordAccept d n => isDispatcher d && decide (n < 64)
  | .hwPush d _ => isDispatcher d
  | .freeReport d => isDie d
  | .placeItem d => isDie d
  | .priorityPromote d _ => isDispatcher d
  | .pereqSubmit d _ => isDie d
  | .preemptStart d => isDie d
  | .bundleSave d _ => isDie d
  | .saveDone d _ => isDie d
  | .preemptTimeout d => isDie d
  | .reservationLapse d c => isCore d c
  | .groupForm d c p q => isPart d c p && decide (q < 2)
  | .runFetchDone d c p q b => isPart d c p && decide (q < 2) && decide (b < 4)
  | .runEnd d c p q b => isPart d c p && decide (q < 2) && decide (b < 4)
  | .haltBroadcast d _ => isDie d
  | .haltForceTimeout d _ => isDie d
  | .wringDone d c => isCore d c
  | .walkDone d _ => isDie d
  | .fresRetry d _ => isDie d
  | .fresDeliver d _ => isDie d
  | .wsctlWreqSet d => isDie d
  | .wsctlWreqClear d => isDie d
  | .weightStoreFill d _ _ _ => isDie d
  | .refreshWindowEnd d b => isDie d && decide (b < 64)
  | .asrhWrite d n _ => isDie d && decide (n < 256)
  | .asrlWrite d n _ => isDie d && decide (n < 256)
  | .gangArrive d c p w => isSlot d c p w
  | .multicastWindow d k _ => isDie d && decide (k < 4)
  | .joinReleaseTimeout d c p w _ => isSlot d c p w
  | .watchdogExpiry d c p w l => isSlot d c p w && decide (l < 32)
  | .debugStopSet d _ => isDie d
  | .smpctlWrite d _ => isDie d
  | .sampleTick d c => isCore d c
  | .periodLogWrite d => isDie d
  | .tileStampWrite d c p w => isSlot d c p w
  | .serviceRequest d v => isDie d && decide (v < 16)
  | .ethernetFrameReceive d _ p _ => isIod d && decide (p < 8)
  | .pcieLinkUp d _ => isIod d
  | .contextRestoreDone d _ => isDie d
  | _ => true

end Sys2Proof
end

