-- ==== Sys2Proof/Safety.lean ====
section
/-! DEFINITION. What counts as a safe run, and the terms in which claims say what a step leaves: which pieces of State may differ,
and what the writes of a fixed-latency instruction make of a thread. -/

namespace Sys2Proof

open Sys2Proof.Machine

/-- A step that goes on. -/
def goesOn (s : State) : Prop := ∃ t, step s = .next t

end Sys2Proof

namespace Sys2Proof.Machine

/-- An outcome that is a next state of which P holds. -/
def Answers (o : Host.Outcome State Fault Refusal) (P : State → Prop) : Prop := ∃ t, o = .next t ∧ P t

/-- Two states that may differ in their threads, groups and warps alone. -/
def State.sameBut (s t : State) : Prop := { t with threads := s.threads, groups := s.groups, warps := s.warps } = s

/-- Two groups that may differ in their temporaries, recent writes and operand latch alone. -/
def Group.sameBut (g h : Group) : Prop := { h with temps := g.temps, hazards := g.hazards, latch := g.latch } = g

/-- The physical register of a field of 0 to 111. -/
def LaneCtx.place (c : LaneCtx) (f : Nat) : Nat := (match c.wb with | .ok wb => wb | .error _ => c.th.wb) + f

/-- A thread after one write of its lane. -/
def LaneCtx.wrote (c : LaneCtx) (th : Thread) : Write → Thread
  | .reg f data tag =>
    if f < 112 then { th with regs := put (c.place f) ⟨data, tag⟩ th.regs, pending := th.pending.filter (fun x => x.1 ≠ c.place f) } else th
  | .pred p v => { th with preds := if v then th.preds ||| (1#12 <<< p) else th.preds &&& ~~~(1#12 <<< p) }

/-- A group's temporaries after one write of a lane. -/
def LaneCtx.wroteTemp (c : LaneCtx) (ts : List ((Nat × Nat) × Reg)) : Write → List ((Nat × Nat) × Reg)
  | .reg f data tag => if f < 112 then ts else if f < 120 then put (f - 112, c.lane) ⟨data, tag⟩ ts else ts
  | .pred _ _ => ts

/-- The flags that the active lanes of a warp raise together. -/
def flagsOf (i : Instr) (s : State) (fl : LaneCtx → Flags) (w : WarpId) : Flags :=
  orFlags (((activeLanes i s).filter (fun c => decide (c.tid.warp = w))).map fl)

/-- What a fixed-latency instruction leaves where each active lane c makes the writes `ws c` and raises the flags `fl c`: the writes in
their own threads and temporaries, the flags in FPS of their warps, and nothing else but the current group's recent writes and operand
latch. -/
structure AluAfter (i : Instr) (s t : State) (ws : LaneCtx → List Write) (fl : LaneCtx → Flags) : Prop where
  active : ∀ c ∈ activeLanes i s, t.thread c.tid = (ws c).foldl c.wrote (s.thread c.tid)
  others : ∀ x, (∀ c ∈ activeLanes i s, c.tid ≠ x) → t.thread x = s.thread x
  warps : ∀ w, t.warp w = { s.warp w with fps := (s.warp w).fps ||| BitVec.setWidth 32 (flagsOf i s fl w) }
  group : ∀ k g, s.cur = some k → s.group? k = some g → ∃ h, t.group? k = some h ∧ g.sameBut h ∧
    (∀ c ∈ activeLanes i s, ∀ n, lookup? (n, c.lane) h.temps = lookup? (n, c.lane) ((ws c).foldl c.wroteTemp g.temps)) ∧
    (∀ n l, (∀ c ∈ activeLanes i s, c.lane ≠ l) → lookup? (n, l) h.temps = lookup? (n, l) g.temps)
  groups : ∀ k, s.cur ≠ some k → t.group? k = s.group? k
  rest : s.sameBut t

/-- Every member lane of the current group can read the guard of an instruction, and where it is set the instruction names no odd half of
a pair that its run is still to write (R297, R306, R307). -/
def guardsRead (i : Instr) (s : State) : Prop :=
  ∀ c ∈ laneCtxs s, ∃ b, c.guard ((guardOf i).getD 12) = .ok b ∧ (b = true → c.namesAgain i = false)

/-- A value of one register. -/
def oneReg (x : BitVec 32) (t : BitVec 4) : Val := ⟨BitVec.setWidth 64 x, t⟩

/-- The current group has one member lane, which is active for an instruction whose fields are legal. -/
def Solo (i : Instr) (s : State) (k : GroupKey) (c : LaneCtx) : Prop :=
  s.cur = some k ∧ laneCtxs s = [c] ∧ ((guardOf i).getD 12).toNat ≤ 12 ∧ encodingFault i = none ∧
  c.guard ((guardOf i).getD 12) = .ok true ∧ c.namesAgain i = false

/-! ## Several lanes -/

/-- The place of a lane among the active lanes of the current instruction. -/
def LaneCtx.rank (c : LaneCtx) (i : Instr) (s : State) : Nat := (activeLanes i s).countP (fun e => decide (e.lane < c.lane))

/-- A thread some of whose registers have become pending under a mark (R305). -/
def Thread.awaits (th : Thread) (ps : List Nat) (mark : Nat) : Thread :=
  { th with pending := th.pending.filter (fun x => !(ps.contains x.1)) ++ ps.map (fun p => (p, mark)) }

/-- What the active lanes of an instruction leave of the threads and groups: f of each one's thread, g of their group for each in
ascending order, but for its operand latch and the pairs that the instruction itself adds to what the run is still to write, and every other
thread and group as it was. -/
structure LanesAfter (i : Instr) (s t : State) (f : LaneCtx → Thread → Thread) (g : LaneCtx → Group → Group) : Prop where
  active : ∀ c ∈ activeLanes i s, t.thread c.tid = f c (s.thread c.tid)
  others : ∀ x, (∀ c ∈ activeLanes i s, c.tid ≠ x) → t.thread x = s.thread x
  group : ∀ k v, s.cur = some k → s.group? k = some v → ∃ w, t.group? k = some w ∧
    { w with latch := [], varDests := v.varDests } = { (activeLanes i s).foldl (fun v c => g c v) v with latch := [] } ∧
    (∀ x ∈ v.varDests, x ∈ w.varDests) ∧ (∀ x ∈ w.varDests, x ∈ v.varDests ∨ x.1 = v.here)
  groups : ∀ k, s.cur ≠ some k → t.group? k = s.group? k

/-- The active lanes of an instruction whose fields are legal, and the lowest of them, l0 (R410). -/
structure Once (i : Instr) (s : State) (k : GroupKey) (l0 : LaneCtx) : Prop where
  cur : s.cur = some k
  fields : wellFormed i = true
  guards : guardsRead i s
  first : (activeLanes i s).head? = some l0

/-- What an instruction leaves that gives one result to every active lane: the values on their way to each destination, which has
become pending, in lane order under numbers of their own; `new` says that each lane's next run begins a new region (R253, R305,
R410). -/
structure ResultsAfter (i : Instr) (s t : State) (d : Nat) (vals : List (BitVec 32 × BitVec 4)) (new : Bool) : Prop where
  lanes : LanesAfter i s t (fun c th => { th.awaits (c.physical d vals.length) (s.fresh + c.rank i s) with newRegion := new || th.newRegion })
    (fun _ v => v)
  values : t.returns = s.returns ++ (activeLanes i s).filterMap (fun c =>
    match (c.physical d vals.length).zip (vals.map (fun v => (⟨v.1, v.2⟩ : Reg))) with
    | [] => none
    | rs => some ⟨c.tid, s.fresh + c.rank i s, rs, none⟩)

/-- What taking a trap leaves of a thread: its cause and position saved, handler mode, the PC at the vector of its class (R248 to R250), no
safe point passed, LR as given, and, as the model keeps it for R260, whether its handler runs for a stop at its next position. -/
def Thread.trapped (th : Thread) (t : Trap) (tbase lr : BitVec 64) (now : Nat) : Thread :=
  { th with
    lr := lr, hm := true, st := .ready, wait := none, readyAt := now, reenter := false, safeAt := now - th.safeAt, atSafe := false
    stopMark := if t.xpc = some th.pc ∧ (t.cls = 12 ∨ th.stopMark = .standing) then .handling th.pc else .clear
    xpc := (match t.xpc with | some x => x | none => th.repc)
    xcs := (t.flags ||| 1) ++ BitVec.ofNat 8 t.sub ++ BitVec.ofNat 8 t.cls
    tdb := ⟨t.addr, BitVec.ofNat 8 t.cls, BitVec.ofNat 8 t.sub, t.flags ||| 1, th.recn⟩
    pc := tbase + BitVec.ofNat 64 (0x200 * t.cls) }

/-- A thread that can enter its handler: TBASE is not zero, it is not in handler mode, and its grid is not ending (R248, R265). -/
def State.canTrap (s : State) (x : ThreadId) : Prop := (s.warp x.warp).tbase ≠ 0 ∧ (s.thread x).hm = false ∧ s.gridEnding x = false

/-! ## One piece of State -/

/-- Thread x has become v, and every other thread is as it was. -/
def ThreadIs (s t : State) (x : ThreadId) (v : Thread) : Prop := t.thread x = v ∧ ∀ y, y ≠ x → t.thread y = s.thread y
/-- Warp w has become v, and every other warp is as it was. -/
def WarpIs (s t : State) (w : WarpId) (v : Warp) : Prop := t.warp w = v ∧ ∀ y, y ≠ w → t.warp y = s.warp y
/-- Core c has become v, and every other core is as it was. -/
def CoreIs (s t : State) (c : CoreId) (v : Core) : Prop := t.core c = v ∧ ∀ y, y ≠ c → t.core y = s.core y
/-- Die d has become v, and every other die is as it was. -/
def DieIs (s t : State) (d : Nat) (v : Die) : Prop := t.die d = v ∧ ∀ y, y ≠ d → t.die y = s.die y
/-- Dispatcher d has become v, and every other one is as it was. -/
def DispIs (s t : State) (d : Nat) (v : Dispatcher) : Prop := t.dispatcher d = v ∧ ∀ y, y ≠ d → t.dispatcher y = s.dispatcher y
/-- Cluster k of die d has become v, and every other one is as it was. -/
def ClusterIs (s t : State) (d k : Nat) (v : Cluster) : Prop :=
  t.cluster d k = v ∧ ∀ e j, (e, j) ≠ (d, k) → t.cluster e j = s.cluster e j

/-- Two warps that may differ in their operations under way, the counts of those, tiles, MMA count and stamp record alone. -/
def Warp.sameBut (v w : Warp) : Prop :=
  { w with ops := v.ops, cpy := v.cpy, gth := v.gth, mtx := v.mtx, rmt := v.rmt, inv := v.inv, tiles := v.tiles, mmaCount := v.mmaCount
           tsr := v.tsr } = v

/-- Every live thread of the warp of l0 is a member of the current group, and every guard is set (R387). -/
structure WholeWarp (i : Instr) (s : State) (k : GroupKey) (l0 : LaneCtx) : Prop where
  cur : s.cur = some k
  fields : wellFormed i = true
  first : (laneCtxs s).head? = some l0
  guards : ∀ c ∈ laneCtxs s, c.guard ((guardOf i).getD 12) = .ok true ∧ c.namesAgain i = false
  live : ∀ l, l < 32 → (s.thread ⟨l0.tid.warp, l⟩).st ≠ .exited → ∃ c ∈ laneCtxs s, c.tid = ⟨l0.tid.warp, l⟩
  released : ∀ c ∈ laneCtxs s, s.released k c.tid 3 = true
  room : s.matrix.countP (fun j => decide (j.warp.coreId = l0.tid.warp.coreId) && decide (j.warp.part = l0.tid.warp.part)) < 8
  count : (s.warp l0.tid.warp).mtx < 255

/-- The groups as they were, but for their operand latches. -/
def State.sameGroups (s t : State) : Prop :=
  ∀ k, (t.group? k).map (fun g => { g with latch := [] }) = (s.group? k).map (fun g => { g with latch := [] })

/-- A thread whose wait for generation g of a barrier slot, if it stands in one, is over, the acquire then of a scope (R207, R226). -/
def Thread.freed (th : Thread) (level n : Nat) (g : BitVec 16) (scope : Nat) : Thread :=
  match th.wait with
  | some (.barrier l k x) =>
    if l = level ∧ k = n ∧ BitVec.ofNat 16 x = g then { th with wait := some (.released level n scope none) } else th
  | _ => th

/-- A core whose cache has dropped its clean bytes, for an acquire at CLU scope or wider (R213). -/
def Core.acquired (k : Core) : Core :=
  { k with l1 := (k.l1.map (fun (l : L1Line) => { l with valid := l.valid &&& l.dirty })).filter (fun l => l.valid != 0) }

/-! ## Bring-up -/

/-- Bring-up is in a phase, no more than `us` microseconds since it began, and not in fault-off (R17, R29). -/
def State.bringingUp (s : State) (p : Phase) (us : Nat) : Prop :=
  s.boot.phase = p ∧ s.boot.faultOff = false ∧ s.time ≤ s.boot.since + us * microsecond

/-- Bring-up in the next phase from now on, its other registers as given. -/
def State.phaseIs (s t : State) (p : Phase) (b : Boot) : Prop := t.boot = { b with phase := p, since := s.time }

/-- Bring-up stopped in RECOVERY with an error code, and the socket it names, its recovery registers and staging buffer zero; nothing
else changes but measurement registers (R29, R32, R33). -/
def State.stopped (s t : State) (err : BitVec 8) (sock : Option Nat) : Prop :=
  t.boot = { s.boot with phase := .recovery, since := s.time, err := err, sock := BitVec.ofNat 5 (sock.getD 0), sockv := sock.isSome
                         page := 0, busy := false, res := 0, staging := [] } ∧
  { t with boot := s.boot, mgmt := s.mgmt } = s ∧ { t.mgmt with mr := s.mgmt.mr } = s.mgmt

/-- The module after a reset: as right after power-on but for the carrier flash and its counter, the owner key, the drives, the host's memory,
and what the model keeps of its own (R27, R28, R29). -/
def State.resetFrom (s : State) (time : Nat) (p : Phase) (cold : Bool) (rails : List ((Nat × Nat) × Nat)) : State :=
  { State.reset with
    time := time
    boot := { Boot.reset with phase := p, since := time, cold := cold, rails := rails, flash := s.boot.flash
                              flashCounter := s.boot.flashCounter, ownerStored := s.boot.ownerStored, owner := s.boot.ownerStored }
    mgmt := { Mgmt.reset with hostMem := s.mgmt.hostMem }
    service := { Service.reset with drives := s.service.drives }
    agenda := s.agenda, pick := s.pick, fresh := s.fresh, openVals := s.openVals }

/-! ## Links -/

/-- Link direction l has become v, and every other one is as it was. -/
def LinkIs (s t : State) (l : Nat) (v : Link) : Prop := t.link l = v ∧ ∀ m, m ≠ l → t.link m = s.link m

/-- Link l carries traffic: not down, and not retraining (R42). -/
def State.linkUp (s : State) (l : Nat) : Prop := (s.link l).down = false ∧ (s.link l).retrainAt = none

/-- What a link sends again: every unacknowledged item that its replay buffer holds, from the oldest (R41). -/
def State.unacknowledged (s : State) (l : Nat) : List WireItem :=
  ((s.link l).replay.take (replayRoom l)).map (fun e => ⟨l, e.1, e.2, e.2.crc⟩)

/-- A sender has replayed: everything unacknowledged is on the wire again in a round more, or, after eight rounds, the link retrains and
its wire is empty (R41, R42). -/
def State.replayed (s t : State) (l : Nat) : Prop :=
  ((s.link l).rounds < 8 → LinkIs s t l { s.link l with rounds := (s.link l).rounds + 1, progressAt := s.time } ∧
    t.net.wire = s.net.wire ++ s.unacknowledged l) ∧
  (8 ≤ (s.link l).rounds → LinkIs s t l { s.link l with retrainAt := some s.time } ∧
    t.net.wire = s.net.wire.filter (fun w => decide (w.link ≠ l)))

end Sys2Proof.Machine
end

