-- ==== Sys2Proof/Certificates/Slice0/Obligations.lean ====
section
/-! DEFINITION. The statements for the provers. -/

open Sys2Proof Sys2Proof.Machine

/-! ## Fixed-latency instructions -/

/-- Every fixed-latency instruction of register sources and one destination, over every operand form and tag: where each active lane's
sources read, its evaluation answers a value and flags, none of them enabled, and its destination is in range, the instruction completes;
each active lane's destination holds the value, FPS of its warp takes the flags, and nothing else changes (R273, R285, R294, R320, R324 to
R329, R334, R350 to R355). The model's choices here: log 17, 18, 19, 20, 21 and 22. -/
def Obligations.FixedLatencyCompletes : Prop :=
  ∀ (s : State) (k : GroupKey) (pfx : Option (BitVec 26)) (g : BitVec 4) (h : BitVec 1) (d a b : BitVec 7)
    (val : LaneCtx → Val) (fl : LaneCtx → Flags), s.cur = some k →
    ∀ p ∈ ([
      (.add pfx g h d a b, 1, [fld a, fld b], fun c vs => evalArith 0 c.fz (pfxRm (payload pfx)) (pfxSat (payload pfx)) (val0 vs) (val1 vs)),
      (.sub pfx g h d a b, 2, [fld a, fld b], fun c vs => evalArith 1 c.fz (pfxRm (payload pfx)) (pfxSat (payload pfx)) (val0 vs) (val1 vs)),
      (.mul pfx g h d a b, 3, [fld a, fld b], fun c vs => evalArith 2 c.fz (pfxRm (payload pfx)) (pfxSat (payload pfx)) (val0 vs) (val1 vs)),
      (.mulh pfx g h d a b, 4, [fld a, fld b], fun _ vs => evalMulh (val0 vs) (val1 vs)),
      (.fma pfx g h d a b, 5, [fld a, fld b, fld d], fun c vs =>
        evalFma false c.fz (pfxRm (payload pfx)) (pfxSat (payload pfx)) (val0 vs) (val1 vs) (val2 vs)),
      (.fms pfx g h d a b, 6, [fld a, fld b, fld d], fun c vs =>
        evalFma true c.fz (pfxRm (payload pfx)) (pfxSat (payload pfx)) (val0 vs) (val1 vs) (val2 vs)),
      (.dot pfx g h d a b, 7, [fld a, fld b, fld d], fun _ vs =>
        evalDot (pfxRm (payload pfx)) (pfxSat (payload pfx)) (val0 vs) (val1 vs) (val2 vs)),
      (.min g h d a b, 8, [fld a, fld b], fun c vs => evalMinMax false c.fz (val0 vs) (val1 vs)),
      (.max g h d a b, 9, [fld a, fld b], fun c vs => evalMinMax true c.fz (val0 vs) (val1 vs)),
      (.and g h d a b, 10, [fld a, fld b], fun _ vs => evalLogic (· &&& ·) (val0 vs) (val1 vs)),
      (.or g h d a b, 11, [fld a, fld b], fun _ vs => evalLogic (· ||| ·) (val0 vs) (val1 vs)),
      (.xor g h d a b, 12, [fld a, fld b], fun _ vs => evalLogic (· ^^^ ·) (val0 vs) (val1 vs)),
      (.andn g h d a b, 13, [fld a, fld b], fun _ vs => evalLogic (fun x y => x &&& ~~~y) (val0 vs) (val1 vs)),
      (.addi pfx g h d a b, 16, [fld a], fun _ vs =>
        evalAddi (pfxRm (payload pfx)) (pfxSat (payload pfx)) (val0 vs) b.toInt),
      (.shli g h d a b, 17, [fld a], fun _ vs => evalShift true (val0 vs) b.toNat),
      (.shri g h d a b, 18, [fld a], fun _ vs => evalShift false (val0 vs) b.toNat),
      (.andi g h d a b, 19, [fld a], fun _ vs => evalLogic (· &&& ·) (val0 vs) ⟨b.signExtend 64, (val0 vs).tag⟩),
      (.mov g h d a, 24, [fld a], fun _ vs => .ok (val0 vs, 0)),
      (.not g h d a, 24, [fld a], fun _ vs => evalLogic (fun x _ => ~~~x) (val0 vs) (val0 vs)),
      (.neg g h d a, 24, [fld a], fun _ vs => evalNegAbs true (val0 vs)),
      (.abs g h d a, 24, [fld a], fun _ vs => evalNegAbs false (val0 vs)),
      (.clz g h d a, 24, [fld a], fun _ vs => evalCount clzBits (val0 vs)),
      (.popc g h d a, 24, [fld a], fun _ vs => evalCount popBits (val0 vs)),
      (.brev g h d a, 24, [fld a], fun _ vs => evalReverse 1 (val0 vs)),
      (.bswap g h d a, 24, [fld a], fun _ vs => evalReverse 8 (val0 vs)),
      (.cls g h d a, 24, [fld a], fun _ vs => evalCount clsBits (val0 vs)),
      (.ctz g h d a, 24, [fld a], fun _ vs => evalCount ctzBits (val0 vs))] :
        List (Instr × Nat × List Nat × (LaneCtx → List Val → Eval))),
    wellFormed p.1 = true → guardsRead p.1 s →
    (∀ c ∈ activeLanes p.1 s, ∃ vs n, c.sources p.2.2.1 = .ok vs ∧ c.narrowBad p.2.1 p.2.2.1 = false ∧
      p.2.2.2 c vs = .ok (val c, fl c) ∧ c.dest (fld d) (isPairTag (val c).tag) = .ok n ∧ c.ten &&& fl c = 0) →
    Answers (exec p.1 s) (fun t => AluAfter p.1 s t (fun c => writesOf (fld d) (val c)) fl)

/-- ADD, SUB, MUL, MULH, MIN, MAX, AND, OR, XOR and ANDN of two S32 sources: the sum, difference and product modulo 2^32, the high half of
the exact signed product, the smaller and the greater, and the bitwise functions, all with tag S32 and no flag (R324, R326, R327, R328).
SHL and SHR by a register, and ADDI, SHLI, SHRI and ANDI by an immediate, of an N32 source: shifted by the amount, zero where it is 32 or
more; the sum modulo 2^32 with the immediate taken as signed; and with tag N32 and no flag (R324, R328, R329). FMA and FMS of S32 sources,
and DOT of two N8x4 sources onto N32: the product plus or minus the third operand, and the third operand plus the four products, modulo
2^32 (R352, R355). -/
def Obligations.IntegerResults : Prop :=
  (∀ (s : State) (k : GroupKey) (g : BitVec 4) (h : BitVec 1) (d a b : BitVec 7) (x y : LaneCtx → BitVec 32), s.cur = some k →
      ∀ p ∈ ([
        (.add none g h d a b, fun c => x c + y c),
        (.sub none g h d a b, fun c => x c - y c),
        (.mul none g h d a b, fun c => x c * y c),
        (.mulh none g h d a b, fun c => ((x c).signExtend 64 * (y c).signExtend 64).extractLsb' 32 32),
        (.min g h d a b, fun c => if (y c).slt (x c) then y c else x c),
        (.max g h d a b, fun c => if (x c).slt (y c) then y c else x c),
        (.and g h d a b, fun c => x c &&& y c),
        (.or g h d a b, fun c => x c ||| y c),
        (.xor g h d a b, fun c => x c ^^^ y c),
        (.andn g h d a b, fun c => x c &&& ~~~(y c))] : List (Instr × (LaneCtx → BitVec 32))),
      wellFormed p.1 = true → guardsRead p.1 s →
      (∀ c ∈ activeLanes p.1 s, c.sources [fld a, fld b] = .ok [oneReg (x c) tagS32, oneReg (y c) tagS32] ∧
        ∃ n, c.dest (fld d) false = .ok n) →
      Answers (exec p.1 s) (fun t => AluAfter p.1 s t (fun c => writesOf (fld d) (oneReg (p.2 c) tagS32)) (fun _ => 0))) ∧
  (∀ (s : State) (k : GroupKey) (g : BitVec 4) (h : BitVec 1) (d a b : BitVec 7) (x y : LaneCtx → BitVec 32), s.cur = some k →
      ∀ p ∈ ([
        (.shl g h d a b, [fld a, fld b], fun c => x c <<< (y c).toNat),
        (.shr g h d a b, [fld a, fld b], fun c => x c >>> (y c).toNat),
        (.addi none g h d a b, [fld a], fun c => x c + b.signExtend 32),
        (.shli g h d a b, [fld a], fun c => x c <<< b.toNat),
        (.shri g h d a b, [fld a], fun c => x c >>> b.toNat),
        (.andi g h d a b, [fld a], fun c => x c &&& b.signExtend 32)] : List (Instr × List Nat × (LaneCtx → BitVec 32))),
      wellFormed p.1 = true → guardsRead p.1 s →
      (∀ c ∈ activeLanes p.1 s, c.sources p.2.1 = .ok ([oneReg (x c) tagN32, oneReg (y c) tagN32].take p.2.1.length) ∧
        ∃ n, c.dest (fld d) false = .ok n) →
      Answers (exec p.1 s) (fun t => AluAfter p.1 s t (fun c => writesOf (fld d) (oneReg (p.2.2 c) tagN32)) (fun _ => 0))) ∧
  (∀ (s : State) (k : GroupKey) (g : BitVec 4) (h : BitVec 1) (d a b : BitVec 7) (x y z : LaneCtx → BitVec 32), s.cur = some k →
      ∀ p ∈ ([
        (.fma none g h d a b, tagS32, tagS32, fun c => x c * y c + z c),
        (.fms none g h d a b, tagS32, tagS32, fun c => x c * y c - z c),
        (.dot none g h d a b, tagN8, tagN32, fun c =>
          z c + ((x c).extractLsb' 0 8).setWidth 32 * ((y c).extractLsb' 0 8).setWidth 32 +
          ((x c).extractLsb' 8 8).setWidth 32 * ((y c).extractLsb' 8 8).setWidth 32 +
          ((x c).extractLsb' 16 8).setWidth 32 * ((y c).extractLsb' 16 8).setWidth 32 +
          ((x c).extractLsb' 24 8).setWidth 32 * ((y c).extractLsb' 24 8).setWidth 32)] :
          List (Instr × BitVec 4 × BitVec 4 × (LaneCtx → BitVec 32))),
      wellFormed p.1 = true → guardsRead p.1 s →
      (∀ c ∈ activeLanes p.1 s, c.sources [fld a, fld b, fld d] = .ok [oneReg (x c) p.2.1, oneReg (y c) p.2.1, oneReg (z c) p.2.2.1] ∧
        ∃ n, c.dest (fld d) false = .ok n) →
      Answers (exec p.1 s) (fun t => AluAfter p.1 s t (fun c => writesOf (fld d) (oneReg (p.2.2.2 c) p.2.2.1)) (fun _ => 0)))

/-- The unary functions of an S32 source: MOV, NOT, NEG, ABS, BREV and BSWAP keep tag S32; CLZ, CTZ, POPC and CLS answer a count with tag
N32, 32 leading and trailing zeros for 0, and no sign copies beyond 31 (R334). MOVI writes the sign-extended immediate with tag S32 in
every member lane; MOVH replaces bits 31 to 13 of its register and keeps the others and the tag, whatever that is; TAGOF writes the tag
code of its source, unchecked, with tag N32; RETAG to a 32-bit tag writes the bits of a source whose tag is not 15 under that tag (R330,
R331, R335). -/
def Obligations.UnaryResults : Prop :=
  (∀ (s : State) (k : GroupKey) (g : BitVec 4) (h : BitVec 1) (d a : BitVec 7) (x : LaneCtx → BitVec 32), s.cur = some k →
      ∀ p ∈ ([
        (.mov g h d a, tagS32, fun c => x c),
        (.not g h d a, tagS32, fun c => ~~~(x c)),
        (.neg g h d a, tagS32, fun c => -(x c)),
        (.abs g h d a, tagS32, fun c => if (x c).msb then -(x c) else x c),
        (.brev g h d a, tagS32, fun c => (x c).reverse),
        (.bswap g h d a, tagS32, fun c =>
          (x c).extractLsb' 0 8 ++ (x c).extractLsb' 8 8 ++ (x c).extractLsb' 16 8 ++ (x c).extractLsb' 24 8),
        (.clz g h d a, tagN32, fun c => (x c).clz),
        (.ctz g h d a, tagN32, fun c => (x c).ctz),
        (.popc g h d a, tagN32, fun c => BitVec.ofNat 32 ((List.range 32).countP (fun i => (x c).getLsbD i))),
        (.cls g h d a, tagN32, fun c => (if (x c).msb then (~~~(x c)).clz else (x c).clz) - 1)] :
          List (Instr × BitVec 4 × (LaneCtx → BitVec 32))),
      wellFormed p.1 = true → guardsRead p.1 s →
      (∀ c ∈ activeLanes p.1 s, c.sources [fld a] = .ok [oneReg (x c) tagS32] ∧ ∃ n, c.dest (fld d) false = .ok n) →
      Answers (exec p.1 s) (fun t => AluAfter p.1 s t (fun c => writesOf (fld d) (oneReg (p.2.2 c) p.2.1)) (fun _ => 0))) ∧
  (∀ (s : State) (k : GroupKey) (g : BitVec 4) (h : BitVec 1) (d a : BitVec 7) (m : BitVec 19) (x : LaneCtx → Reg), s.cur = some k →
      ∀ p ∈ ([
        (.movi d m, d, true, fun _ => ⟨m.signExtend 32, tagS32⟩),
        (.movh d m, d, true, fun c => ⟨m ++ (x c).data.extractLsb' 0 13, (x c).tag⟩),
        (.tagof g h d a, a, true, fun c => ⟨BitVec.setWidth 32 (x c).tag, tagN32⟩),
        (.retag g h d a tagB32, a, false, fun c => ⟨(x c).data, tagB32⟩),
        (.retag g h d a tagS32, a, false, fun c => ⟨(x c).data, tagS32⟩),
        (.retag g h d a tagN32, a, false, fun c => ⟨(x c).data, tagN32⟩),
        (.retag g h d a tagF32, a, false, fun c => ⟨(x c).data, tagF32⟩)] : List (Instr × BitVec 7 × Bool × (LaneCtx → Reg))),
      wellFormed p.1 = true → guardsRead p.1 s →
      (∀ c ∈ activeLanes p.1 s, c.reg (fld p.2.1) 0 = .ok (x c) ∧ (p.2.2.1 = true ∨ (x c).tag ≠ 15) ∧ ∃ n, c.dest (fld d) false = .ok n) →
      Answers (exec p.1 s) (fun t => AluAfter p.1 s t
        (fun c => if d = 127 then [] else [.reg (fld d) (p.2.2.2 c).data (p.2.2.2 c).tag]) (fun _ => 0)))

/-- CMP and CMPI of S32 sources under each of the six orders: the result goes to predicate 2i and its complement to 2i + 1, and no flag is
raised (R313, R332). CVT to N32 and to S32 of an integer source of the other sign writes the value nearest to it, with SA where it is out
of range (R356, R358). -/
def Obligations.CompareAndConvertResults : Prop :=
  (∀ (s : State) (k : GroupKey) (g : BitVec 4) (h : BitVec 1) (i : BitVec 3) (a b : BitVec 7) (x y : LaneCtx → BitVec 32), s.cur = some k →
      ∀ q ∈ ([
        (0, fun u v => u == v), (1, fun u v => u != v), (2, fun u v => u.slt v), (3, fun u v => u.sle v),
        (4, fun u v => v.slt u), (5, fun u v => v.sle u)] : List (BitVec 4 × (BitVec 32 → BitVec 32 → Bool))),
      ∀ p ∈ ([
        (.cmp g h i q.1 a b, [fld a, fld b], fun c => q.2 (x c) (y c)),
        (.cmpi g h i q.1 a b, [fld a], fun c => q.2 (x c) (b.signExtend 32))] : List (Instr × List Nat × (LaneCtx → Bool))),
      wellFormed p.1 = true → guardsRead p.1 s →
      (∀ c ∈ activeLanes p.1 s, c.sources p.2.1 = .ok ([oneReg (x c) tagS32, oneReg (y c) tagS32].take p.2.1.length)) →
      Answers (exec p.1 s) (fun t => AluAfter p.1 s t
        (fun c => [.pred (2 * i.toNat) (p.2.2 c), .pred (2 * i.toNat + 1) (!(p.2.2 c))]) (fun _ => 0))) ∧
  (∀ (s : State) (k : GroupKey) (g : BitVec 4) (h : BitVec 1) (d a : BitVec 7) (x : LaneCtx → BitVec 32),
      s.cur = some k →
      (∀ p ∈ ([
        (.cvt none g h d a tagN32 0, tagS32, fun c => if (x c).msb then (0, flagSA) else (x c, 0)),
        (.cvt none g h d a tagS32 0, tagN32, fun c => if (x c).msb then (0x7FFFFFFF, flagSA) else (x c, 0))] :
          List (Instr × BitVec 4 × (LaneCtx → BitVec 32 × Flags))),
        wellFormed p.1 = true → guardsRead p.1 s →
        (∀ c ∈ activeLanes p.1 s, c.sources [fld a] = .ok [oneReg (x c) p.2.1] ∧ c.ten &&& (p.2.2 c).2 = 0 ∧
          ∃ n, c.dest (fld d) false = .ok n) →
        Answers (exec p.1 s) (fun t => AluAfter p.1 s t
          (fun c => writesOf (fld d) (oneReg (p.2.2 c).1 (if p.2.1 = tagS32 then tagN32 else tagS32))) (fun c => (p.2.2 c).2))))

/-- PAND, POR, PXOR and PANDN write their function of two predicates; P2R writes the twelve predicates as bits of an N32 register, and
SETP writes them from a register (R337). The votes: in each active lane, over the active lanes of its lane group (R338), VANY writes
whether the predicate holds in one of them, VALL in all, VUNI in all or in none, and VBAL writes bit j of an N32 register for lane base +
j of the lane group, and zero beyond its width (R339). -/
def Obligations.VoteAndPredicateResults : Prop :=
  (∀ (s : State) (k : GroupKey) (g p q r : BitVec 4) (h : BitVec 1) (d a : BitVec 7) (u v : LaneCtx → Bool) (m : LaneCtx → BitVec 12)
      (x : LaneCtx → BitVec 32), s.cur = some k →
      (∀ e ∈ ([
        (.pand g p q r, fun a b => a && b), (.por g p q r, fun a b => a || b), (.pxor g p q r, fun a b => a != b),
        (.pandn g p q r, fun a b => a && !b)] : List (Instr × (Bool → Bool → Bool))),
        wellFormed e.1 = true → guardsRead e.1 s →
        (∀ c ∈ activeLanes e.1 s, c.predVal r.toNat = .ok (u c) ∧ c.predVal q.toNat 2 = .ok (v c)) →
        Answers (exec e.1 s) (fun t => AluAfter e.1 s t (fun c => [.pred p.toNat (e.2 (u c) (v c))]) (fun _ => 0))) ∧
      (wellFormed (.p2r g d) = true → guardsRead (.p2r g d) s →
        (∀ c ∈ activeLanes (.p2r g d) s, (∀ n, n < 12 → c.pred n 1 = .ok ((m c).getLsbD n)) ∧ ∃ n, c.dest (fld d) false = .ok n) →
        Answers (exec (.p2r g d) s) (fun t => AluAfter (.p2r g d) s t
          (fun c => writesOf (fld d) (oneReg (BitVec.setWidth 32 (m c)) tagN32)) (fun _ => 0))) ∧
      (wellFormed (.setp g h a) = true → guardsRead (.setp g h a) s →
        (∀ c ∈ activeLanes (.setp g h a) s, c.word (fld a) 0 = .ok (x c)) →
        Answers (exec (.setp g h a) s) (fun t => AluAfter (.setp g h a) s t
          (fun c => (List.range 12).map (fun n => .pred n ((x c).getLsbD n))) (fun _ => 0)))) ∧
  (∀ (s : State) (k : GroupKey) (g p a : BitVec 4) (d : BitVec 7) (v : LaneCtx → Bool), s.cur = some k →
      (∀ e ∈ ([
        (.vany g p a, fun ps => ps.any v),
        (.vall g p a, fun ps => ps.all v),
        (.vuni g p a, fun ps => ps.all v || ps.all (fun c => !v c))] : List (Instr × (List LaneCtx → Bool))),
        wellFormed e.1 = true → guardsRead e.1 s → (∀ c ∈ activeLanes e.1 s, c.predVal a.toNat = .ok (v c)) →
        Answers (exec e.1 s) (fun t => AluAfter e.1 s t (fun c => [.pred p.toNat (e.2 (c.peers (activeLanes e.1 s)))]) (fun _ => 0))) ∧
      (wellFormed (.vbal g d a) = true → guardsRead (.vbal g d a) s →
        (∀ c ∈ activeLanes (.vbal g d a) s, c.predVal a.toNat = .ok (v c) ∧ ∃ n, c.dest (fld d) false = .ok n) →
        ∃ m : LaneCtx → BitVec 32,
          (∀ c ∈ activeLanes (.vbal g d a) s, ∀ j, j < 32 → (m c).getLsbD j =
            (decide (j < c.width) && (activeLanes (.vbal g d a) s).any (fun x => decide (x.lane = c.base + j) && v x))) ∧
          Answers (exec (.vbal g d a) s) (fun t => AluAfter (.vbal g d a) s t
            (fun c => writesOf (fld d) (oneReg (m c) tagN32)) (fun _ => 0))))

/-- What a shuffle from lane l reads in a lane: the value of that lane where it is an active lane of the same lane group, else the
lane's own (R340). -/
def fromLane (act : List LaneCtx) (x : LaneCtx → BitVec 32) (c : LaneCtx) (l : Option Nat) : BitVec 32 :=
  match l with
  | none => x c
  | some n =>
    match (c.peers act).find? (fun e => e.lane == n) with
    | some e => x e
    | none => x c

/-- SHFL reads lane base + B of the lane group, its own value where B is not below the group's width; SHFI reads lane base + n, lane - n,
lane + n or lane xor n as bits 6 and 5 of its immediate say (R340). The reductions of S32 sources over the active lanes of each lane
group: the sum modulo 2^32, the least, the greatest, the bitwise functions, and the sums over the lanes up to and below the reading one
(R341). -/
def Obligations.ShuffleAndReductionResults : Prop :=
  (∀ (s : State) (k : GroupKey) (g : BitVec 4) (h : BitVec 1) (d a b : BitVec 7) (x n : LaneCtx → BitVec 32), s.cur = some k →
      ∀ p ∈ ([
        (.shfl g h d a b, true, fun c => if (n c).toNat < c.width then some (c.base + (n c).toNat) else none),
        (.shfi g h d a b, false, fun c =>
          let m := b.toNat % 32
          if b.toNat / 32 = 0 then some (c.base + m) else if b.toNat / 32 = 1 then (if m ≤ c.lane then some (c.lane - m) else none)
          else if b.toNat / 32 = 2 then some (c.lane + m) else some (c.lane ^^^ m))] : List (Instr × Bool × (LaneCtx → Option Nat))),
      wellFormed p.1 = true → guardsRead p.1 s →
      (∀ c ∈ activeLanes p.1 s, c.src (fld a) 0 = .ok (oneReg (x c) tagS32) ∧ (p.2.1 = true → c.word (fld b) 2 = .ok (n c)) ∧
        ∃ m, c.dest (fld d) false = .ok m) →
      Answers (exec p.1 s) (fun t => AluAfter p.1 s t
        (fun c => writesOf (fld d) (oneReg (fromLane (activeLanes p.1 s) x c (p.2.2 c)) tagS32)) (fun _ => 0))) ∧
  (∀ (s : State) (k : GroupKey) (g : BitVec 4) (h : BitVec 1) (d a : BitVec 7) (x : LaneCtx → BitVec 32), s.cur = some k →
      ∀ p ∈ ([
        (.redAdd g h d a, fun ps _ => (ps.map x).foldl (· + ·) 0),
        (.redMin g h d a, fun ps c => (ps.map x).foldl (fun u v => if v.slt u then v else u) (x c)),
        (.redMax g h d a, fun ps c => (ps.map x).foldl (fun u v => if u.slt v then v else u) (x c)),
        (.redAnd g h d a, fun ps _ => (ps.map x).foldl (· &&& ·) 0xFFFFFFFF),
        (.redOr g h d a, fun ps _ => (ps.map x).foldl (· ||| ·) 0),
        (.redXor g h d a, fun ps _ => (ps.map x).foldl (· ^^^ ·) 0),
        (.redScani g h d a, fun ps c => ((ps.filter (fun e => decide (e.lane ≤ c.lane))).map x).foldl (· + ·) 0),
        (.redScanx g h d a, fun ps c => ((ps.filter (fun e => decide (e.lane < c.lane))).map x).foldl (· + ·) 0)] :
          List (Instr × (List LaneCtx → LaneCtx → BitVec 32))),
      wellFormed p.1 = true → guardsRead p.1 s →
      (∀ c ∈ activeLanes p.1 s, c.sources [fld a] = .ok [oneReg (x c) tagS32] ∧ ∃ m, c.dest (fld d) false = .ok m) →
      Answers (exec p.1 s) (fun t => AluAfter p.1 s t
        (fun c => writesOf (fld d) (oneReg (p.2 (c.peers (activeLanes p.1 s)) c) tagS32)) (fun _ => 0)))

/-! ## Special functions -/

/-- The nine special functions: in each active lane whose source carries an IEEE tag, the destination becomes pending, in lane order under
numbers of its own, and the operation ends no sooner than 14 cycles on for F32, 16 for two elements, and on F64 40 for RCP, RSQ and SQRT
and 60 for the others; its flags, where none of them is enabled, go to FPS of its warp in the order of issue, and no destination is
written yet (R285, R305, R360). SFU_RESULT: the operations of one instruction that met one tag end together once their latency has passed.
One alone, with none of its flags enabled, writes its destination where it still waits; with one of them enabled its thread takes class 06
and the destination keeps its value (R287, R360, R362). The model's choices here: log 3 and 28. -/
def Obligations.SpecialFunctionResults : Prop :=
  (∀ (s : State) (k : GroupKey) (g : BitVec 4) (h : BitVec 1) (d a : BitVec 7) (x : LaneCtx → Val), s.cur = some k →
      ∀ p ∈ ([
        (.rcp g h d a, 0, 40), (.rsq g h d a, 1, 40), (.sqrt g h d a, 2, 40), (.ex2 g h d a, 3, 60), (.lg2 g h d a, 4, 60),
        (.sin g h d a, 5, 60), (.cos g h d a, 6, 60), (.tanh g h d a, 7, 60), (.sigm g h d a, 8, 60)] : List (Instr × BitVec 4 × Nat)),
      wellFormed p.1 = true → guardsRead p.1 s →
      (∀ c ∈ activeLanes p.1 s, c.sources [fld a] = .ok [x c] ∧ isIeeeTag (x c).tag = true ∧ ∃ n, c.dest (fld d) (isPairTag (x c).tag) = .ok n) →
      Answers (exec p.1 s) (fun t =>
        LanesAfter p.1 s t
          (fun c th => th.awaits (c.physical (fld d) (if (x c).tag = tagF64 then 2 else 1)) (s.fresh + c.rank p.1 s)) (fun _ v => v) ∧
        t.sfu = s.sfu ++ (activeLanes p.1 s).map (fun c =>
          { thread := c.tid, fn := p.2.1, tag := (x c).tag, arg := (x c).bits, fz := c.fz, ten := c.ten, mark := s.fresh + c.rank p.1 s
            dest := (c.physical (fld d) (if (x c).tag = tagF64 then 2 else 1)).head?
            due := s.time + (if (x c).tag = tagF32 then 14 else if (x c).tag = tagF64 then p.2.2 else 16) }) ∧
        (∀ w, t.warp w = { s.warp w with fps := (s.warp w).fps ||| BitVec.setWidth 32 (flagsOf p.1 s (fun c =>
          let fl := (sfuValue p.2.1 (x c).tag c.fz (x c).bits).2
          if c.ten &&& fl = 0 then fl else 0) w) }) ∧
        { t with threads := s.threads, groups := s.groups, warps := s.warps, sfu := s.sfu, fresh := s.fresh } = s)) ∧
  (∀ (s : State) (op : SfuOp) (p : Nat), s.sfu = [op] → s.pick = 0 → op.due ≤ s.time → isIeeeTag op.tag = true → isPairTag op.tag = false →
      op.dest = some p → (p, op.mark) ∈ (s.thread op.thread).pending → (lookup? op.thread s.threads).isSome = true →
      ∀ v fl, sfuValue op.fn op.tag op.fz op.arg = (v, fl) →
      (op.ten &&& fl = 0 → Answers (exec .sfuResult s) (fun t =>
        t.thread op.thread = { s.thread op.thread with
          regs := put p ⟨v.bits.extractLsb' 0 32, op.tag⟩ (s.thread op.thread).regs
          pending := (s.thread op.thread).pending.filter (fun x => x ≠ (p, op.mark)) } ∧
        (∀ x, x ≠ op.thread → t.thread x = s.thread x) ∧
        { t with threads := s.threads, sfu := s.sfu } = s ∧ t.sfu = [])) ∧
      (op.ten &&& fl ≠ 0 → s.canTrap op.thread → Answers (exec .sfuResult s) (fun t =>
        (t.thread op.thread).hm = true ∧ (t.thread op.thread).xcs.extractLsb' 0 8 = 6 ∧
        (t.thread op.thread).regs = (s.thread op.thread).regs ∧
        (∀ x, x ≠ op.thread → t.thread x = s.thread x) ∧
        { t with threads := s.threads, groups := s.groups, sfu := s.sfu } = s ∧ t.sfu = [])))

/-! ## Control -/

/-- The control transfers that are taken: BRA, CALL and JOIN add four times their displacement to their own address; JR and JALR go to a
register pair, RET to LR, that is a multiple of 4; CALL and JALR set LR to the address of the next run, and JOIN holds its threads at the
target; nothing else changes but each active lane's next PC (R293, R301, R345 to R347). A register jump, JR, JALR or RET, whose target is
no multiple of 4 is class 05, subcode 0x10, with the target in ADDR, and leaves LR (R346). -/
def Obligations.BranchResults : Prop :=
  (∀ (s : State) (k : GroupKey) (g : BitVec 4) (h : BitVec 1) (d : BitVec 22) (a : BitVec 7) (x : LaneCtx → BitVec 64), s.cur = some k →
      ∀ p ∈ ([
        (.bra g d, false, fun c => c.group.hereAddr + d.signExtend 64 * 4, fun _ th => th),
        (.call g d, false, fun c => c.group.hereAddr + d.signExtend 64 * 4, fun c th => { th with lr := c.group.afterAddr }),
        (.join g d, false, fun c => c.group.hereAddr + d.signExtend 64 * 4, fun c th =>
          { th with wait := some (.join (c.group.hereAddr + d.signExtend 64 * 4) s.time) }),
        (.jr g h a, true, x, fun _ th => th),
        (.jalr g h a, true, x, fun c th => { th with lr := c.group.afterAddr }),
        (.ret g h, true, fun c => c.th.lr, fun _ th => th)] : List (Instr × Bool × (LaneCtx → BitVec 64) × (LaneCtx → Thread → Thread))),
      wellFormed p.1 = true → guardsRead p.1 s →
      (p.1 = .jr g h a ∨ p.1 = .jalr g h a → ∀ c ∈ activeLanes p.1 s, c.pairOf (fld a) 0 2 = .ok (x c)) →
      (p.2.1 = true → ∀ c ∈ activeLanes p.1 s, (p.2.2.1 c).extractLsb' 0 2 = 0) →
      Answers (exec p.1 s) (fun t =>
        LanesAfter p.1 s t p.2.2.2 (fun c v => { v with targets := put c.lane (p.2.2.1 c) v.targets }) ∧
        { t with threads := s.threads, groups := s.groups } = s)) ∧
  (∀ (s : State) (k : GroupKey) (c : LaneCtx) (g : BitVec 4) (h : BitVec 1) (a : BitVec 7) (x : BitVec 64),
      ∀ p ∈ ([(.jr g h a, true), (.jalr g h a, true), (.ret g h, false)] : List (Instr × Bool)),
      Solo p.1 s k c → (if p.2 then c.pairOf (fld a) 0 2 = .ok x else c.th.lr = x) → x.extractLsb' 0 2 ≠ 0 → s.canTrap c.tid →
      Answers (exec p.1 s) (fun t =>
        t.thread c.tid = (s.thread c.tid).trapped ⟨5, 0x10, x, 0, none⟩ (s.warp c.tid.warp).tbase (s.thread c.tid).lr s.time ∧
        (∀ y, y ≠ c.tid → t.thread y = s.thread y) ∧ { t with threads := s.threads, groups := s.groups } = s))

/-- WND: each active lane's window base moves by eight times the sum of the immediate and its operand, within 0 to 248; an instruction
that reads a register in the next two issue cycles reads it early (R306, R342). RDY and RDY.W of one lane: its meet number of that
function goes up by one; it passes where every other thread of its meet set, the lane group or the whole warp, has exited or reached that
number, and none waits there; else it stands BLOCKED at that number (R338, R348). -/
def Obligations.WindowAndMeetResults : Prop :=
  (∀ (s : State) (k : GroupKey) (g : BitVec 4) (h : BitVec 1) (a i : BitVec 7) (n : LaneCtx → Int) (w : LaneCtx → Nat), s.cur = some k →
      wellFormed (.wnd g h a i) = true → guardsRead (.wnd g h a i) s →
      (∀ c ∈ activeLanes (.wnd g h a i) s, c.intWord (fld a) 0 = .ok (n c) ∧ ∃ wb, c.wb = .ok wb ∧
        (w c : Int) = wb + 8 * (i.toInt + n c) ∧ w c ≤ 248) →
      Answers (exec (.wnd g h a i) s) (fun t =>
        LanesAfter (.wnd g h a i) s t (fun c th => { th with wb := w c }) (fun c v =>
          { v with hazards := v.hazards ++ [⟨c.lane, hazWindow, c.group.cycle + 2, ⟨BitVec.ofNat 32 c.th.wb, 0⟩⟩] }) ∧
        { t with threads := s.threads, groups := s.groups } = s)) ∧
  (∀ (s : State) (k : GroupKey) (c : LaneCtx) (g : BitVec 4) (h : BitVec 1),
      ∀ p ∈ ([(.rdy g h, false), (.rdyW g h, true)] : List (Instr × Bool)),
      Solo p.1 s k c → (s.thread c.tid).counted = none → (s.thread c.tid).st = .grouped →
      let w := if p.2 then 32 else 2 ^ (((s.warp c.tid.warp).lgw.extractLsb' 0 3).toNat + 1)
      let m : BitVec 16 := (if p.2 then (s.thread c.tid).meet1 else (s.thread c.tid).meet0) + 1
      let arrived (l : Nat) : Prop := (s.thread ⟨c.tid.warp, l⟩).st = .exited ∨
        ((if p.2 then (s.thread ⟨c.tid.warp, l⟩).meet1 else (s.thread ⟨c.tid.warp, l⟩).meet0) - m).toNat < 0x8000
      ((∀ l, l < 32 → l / w = c.lane / w → l ≠ c.lane → arrived l ∧ (s.thread ⟨c.tid.warp, l⟩).wait = none) →
        Answers (exec p.1 s) (fun t =>
          t.thread c.tid = (let th := (enterRegion k c.tid s).thread c.tid
            { th with meet0 := if p.2 then th.meet0 else m, meet1 := if p.2 then m else th.meet1, wait := none, counted := none }) ∧
          (∀ x, x ≠ c.tid → t.thread x = s.thread x) ∧ t.warps = (enterRegion k c.tid s).warps ∧
          { t with threads := s.threads, groups := s.groups, warps := s.warps } = s)) ∧
      ((∃ l, l < 32 ∧ l / w = c.lane / w ∧ l ≠ c.lane ∧ ¬ arrived l) →
        Answers (exec p.1 s) (fun t =>
          t.thread c.tid = (let th := s.thread c.tid
            { th with meet0 := if p.2 then th.meet0 else m, meet1 := if p.2 then m else th.meet1, st := .blocked
                      wait := some (.meet p.2 m), counted := some p.2 }) ∧
          (∀ x, x ≠ c.tid → { t.thread x with counted := (s.thread x).counted } = s.thread x) ∧ { t with threads := s.threads, groups := s.groups } = s)))

/-- MCALL of a slot of its grid that holds one ADD of fields 124, 125 and 126 leaves what that ADD leaves with MCALL's D, A and B in their
places; an empty slot is class 00, subcode 0x0B (R294, R343, R344). The model's choices here: log 72. -/
def Obligations.MicroprogramResults : Prop :=
  ∀ (s : State) (k : GroupKey) (v : Group) (x : BitVec 5) (d a b : BitVec 7) (w : Word) (m : MicroSlot) (y z : LaneCtx → BitVec 32),
    s.cur = some k → s.group? k = some v →
    (v.hazards = [] → lookup? x.toNat (s.core k.coreId).micro = some m → m.words = [w] →
      decodeWords [w] = .ok (.add none 12 0 124 125 126, 1) → (laneCtxs s).head?.any (fun c => m.grid == c.bundle.grid) = true →
      (∀ c ∈ laneCtxs s, c.sources [fld a, fld b] = .ok [oneReg (y c) tagS32, oneReg (z c) tagS32] ∧ ∃ n, c.dest (fld d) false = .ok n) →
      wellFormed (.add none 12 0 d a b) = true →
      Answers (exec (.mcall x d a b) s) (fun t => AluAfter (.add none 12 0 d a b) s t
        (fun c => writesOf (fld d) (oneReg (y c + z c) tagS32)) (fun _ => 0))) ∧
    (∀ c, laneCtxs s = [c] → lookup? x.toNat (s.core k.coreId).micro = none → s.canTrap c.tid →
      Answers (exec (.mcall x d a b) s) (fun t =>
        t.thread c.tid = (s.thread c.tid).trapped ⟨0, 0x0B, v.hereAddr, 0, none⟩ (s.warp c.tid.warp).tbase (s.thread c.tid).lr s.time ∧
        (∀ y, y ≠ c.tid → t.thread y = s.thread y) ∧ { t with threads := s.threads, groups := s.groups } = s))

/-! ## Traps -/

/-- Taking a trap, of any class: the thread leaves its group; a thread outside handler mode whose warp's TBASE is not zero saves the cause
in XCS and the detail buffer and REPC, or the trap's own position, in XPC, enters handler mode and continues at TBASE + 0x200 times the
class; no register, predicate or memory changes (R248 to R250). TRAP sets LR to the address of the next run and takes class 11 with its
code in ADDR; ILL and the reserved opcodes take class 00, subcodes 0x01 and 0x02, with the address of the word in ADDR (R312, R319, R425).
-/
def Obligations.TrapResults : Prop :=
  (∀ (s : State) (t : Trap) (x : ThreadId), s.canTrap x →
      (takeTrap t x s).thread x = (s.thread x).trapped t (s.warp x.warp).tbase (s.thread x).lr s.time ∧
      (∀ y, y ≠ x → (takeTrap t x s).thread y = s.thread y) ∧
      (∀ k v, (k, v) ∈ (takeTrap t x s).groups →
        ¬ (k.die = x.warp.die ∧ k.core = x.warp.core ∧ k.part = x.warp.part ∧ v.member x.lane = some x.warp.slot)) ∧
      { takeTrap t x s with threads := s.threads, groups := s.groups } = s) ∧
  (∀ (s : State) (k : GroupKey) (c : LaneCtx) (g : BitVec 4) (n : BitVec 22) (o : BitVec 1) (x : BitVec 26), s.canTrap c.tid →
      ∀ p ∈ ([
        (.trap g n, ⟨11, 0, BitVec.setWidth 64 n, 0, none⟩, c.group.afterAddr),
        (.ill x, ⟨0, 1, c.group.hereAddr, 0, none⟩, (s.thread c.tid).lr),
        (.opReserved o x, ⟨0, 2, c.group.hereAddr, 0, none⟩, (s.thread c.tid).lr)] : List (Instr × Trap × BitVec 64)),
      (if p.2.1.cls = 11 then Solo p.1 s k c else s.cur = some k ∧ laneCtxs s = [c]) →
      Answers (exec p.1 s) (fun t =>
        t.thread c.tid = (s.thread c.tid).trapped p.2.1 (s.warp c.tid.warp).tbase p.2.2 s.time ∧
        (∀ y, y ≠ c.tid → t.thread y = s.thread y) ∧ { t with threads := s.threads, groups := s.groups } = s))

/-! ## Memory -/

/-- The registers that a load of a size code writes from the bytes it read: bytes and halves extended to N32 or S32, words under TAG of
their prefix, else B32 (R315, R367). -/
def loadedRegs (p : BitVec 26) (sz x : Nat) : List Reg :=
  let t := if memForm p = 2 then memTag p else tagB32
  if sz = 0 then [⟨BitVec.ofNat 32 (x % 2 ^ 8), tagN32⟩]
  else if sz = 1 then [⟨(BitVec.ofNat 8 x).signExtend 32, tagS32⟩]
  else if sz = 2 then [⟨BitVec.ofNat 32 (x % 2 ^ 16), tagN32⟩]
  else if sz = 3 then [⟨(BitVec.ofNat 16 x).signExtend 32, tagS32⟩]
  else (List.range (if sz = 5 then 2 else if sz = 6 then 4 else 1)).map (fun i => regOf (x / 2 ^ (32 * i)) t)

/-- LD without an acquire, of one lane: the destination registers become pending; from a scratchpad or the weight store the value read is
on its way to them at once; from the module's own memory, where the core's cache lacks the line, a read of its bytes is queued at the die
cache; nothing else changes (R305, R367, R376). -/
def Obligations.LoadResults : Prop :=
  ∀ (s : State) (k : GroupKey) (c : LaneCtx) (pfx : Option (BitVec 26)) (g : BitVec 4) (s1 : BitVec 1) (d a : BitVec 7) (s2 : BitVec 2)
    (sc : BitVec 3) (va : BitVec 64) (x : Nat) (p : At),
    let i := Instr.ld pfx g s1 d a s2 0 sc
    let sz := szOf s1 s2
    let n := if sz ≤ 1 then 1 else if sz ≤ 3 then 2 else if sz = 4 then 4 else if sz = 5 then 8 else 16
    let regs := c.physical (fld d) (if sz = 5 then 2 else if sz = 6 then 4 else 1)
    Solo i s k c → c.address a (memOff (payload pfx)) = .ok va → c.destGroup (fld d) (sizeRegs sz) = .ok () →
    s.acquiring c.tid = false → s.locate c.tid.warp va n 0 1 = .here p →
    (((∃ m b off, p = .scr m b off ∧ x = s.scrRead m b off n) ∨
      (∃ off, p = .weights off ∧ s.refreshing (weightBank off) = false ∧ x = s.weightRead c.tid.warp.die off n)) →
      Answers (exec i s) (fun t =>
        LanesAfter i s t (fun _ th => th.awaits regs (s.fresh + 1)) (fun _ v => v) ∧
        t.returns = s.returns ++ (if regs = [] then [] else [⟨c.tid, s.fresh + 1, regs.zip (loadedRegs (payload pfx) sz x), none⟩]) ∧
        { t with threads := s.threads, groups := s.groups, returns := s.returns, fresh := s.fresh } = s)) ∧
    (∀ pa leaf, p = .mem pa leaf → pa / 2 ^ 44 = s.nmod → (s.core c.tid.warp.coreId).l1Find (pa % 2 ^ 44 / 128) = none →
      Answers (exec i s) (fun t =>
        LanesAfter i s t (fun _ th => th.awaits regs (s.fresh + 1)) (fun _ v => v) ∧
        (∃ q, t.coh.accesses = s.coh.accesses ++ [q] ∧ q.who = .lane c.tid ∧ q.kind = .read ∧ q.site = c.tid.warp.die ∧ q.va = va ∧
          q.pa = pa % 2 ^ 44 ∧ q.size = n ∧ q.mark = s.fresh + 1 ∧ q.dest.map Prod.fst = regs ∧ q.wmask = 0 ∧
          (x < 256 ^ n → q.regs x = regs.zip (loadedRegs (payload pfx) sz x))) ∧
        { t with threads := s.threads, groups := s.groups, coh := s.coh, fresh := s.fresh } = s ∧
        { t.coh with accesses := s.coh.accesses } = s.coh))

/-- ST of one lane, its releases performed: a scratchpad takes the bytes of the source, and no other byte of it changes; in the module's
own memory, an unordered store makes the bytes of the line that the core's cache holds valid and dirty, and a release at CLU scope or
wider or a flag queues a write of them at the die cache; a release or a flag begins a new region (R253, R369, R370, R376). -/
def Obligations.StoreResults : Prop :=
  ∀ (s : State) (k : GroupKey) (c : LaneCtx) (pfx : Option (BitVec 26)) (g : BitVec 4) (s1 : BitVec 1) (d a : BitVec 7) (s2 o : BitVec 2)
    (sc : BitVec 3) (va : BitVec 64) (x : Nat) (p : At),
    let i := Instr.st pfx g s1 d a s2 o sc
    let sz := szOf s1 s2
    let n := if sz ≤ 1 then 1 else if sz ≤ 3 then 2 else if sz = 4 then 4 else if sz = 5 then 8 else 16
    let flag := memForm (payload pfx) = 1
    let new (th : Thread) : Thread := { th with newRegion := decide (o = 2 ∨ flag) || th.newRegion }
    Solo i s k c → c.address a (memOff (payload pfx)) = .ok va → c.storeData (fld d) sz = .ok x →
    s.acquiring c.tid = false → s.locate c.tid.warp va n 1 1 = .here p →
    (∀ r ∈ stReleases (memForm (payload pfx) == 1) o sc [⟨c, va, n, 1, 1⟩] s, r.2 < 6 ∧ s.released k r.1 r.2 = true) →
    (∀ m b off, p = .scr m b off →
      Answers (exec i s) (fun t =>
        LanesAfter i s t (fun _ th => new th) (fun _ v => v) ∧ t.scrRead m b off n = x % 256 ^ n ∧
        (∀ j, j < off ∨ off + n ≤ j → readCell j (t.bundleAt m b).scr = readCell j (s.bundleAt m b).scr) ∧
        { t.bundleAt m b with scr := [] } = { s.bundleAt m b with scr := [] } ∧
        (∀ b', b' ≠ b → lookup? b' (t.core m).bundles = lookup? b' (s.core m).bundles) ∧
        { t.core m with bundles := (s.core m).bundles } = s.core m ∧ (∀ m', m' ≠ m → t.core m' = s.core m') ∧
        { t with threads := s.threads, groups := s.groups, cores := s.cores, fresh := s.fresh } = s)) ∧
    (∀ pa leaf, p = .mem pa leaf → pa / 2 ^ 44 = s.nmod → (s.cluster c.tid.warp.die c.tid.warp.coreId.cluster).monitors = [] →
      (o = 0 ∨ sc.toNat < 3 → ¬ flag → pa % n = 0 → ∀ l, (s.core c.tid.warp.coreId).l1Find (pa % 2 ^ 44 / 128) = some l →
        Answers (exec i s) (fun t =>
          LanesAfter i s t (fun _ th => new th) (fun _ v => v) ∧
          t.l1Peek c.tid.warp.coreId (pa % 2 ^ 44) n true = (2 ^ n - 1, x % 256 ^ n) ∧
          { t.core c.tid.warp.coreId with l1 := (s.core c.tid.warp.coreId).l1 } = s.core c.tid.warp.coreId ∧
          (∀ m', m' ≠ c.tid.warp.coreId → t.core m' = s.core m') ∧
          { t with threads := s.threads, groups := s.groups, cores := s.cores, fresh := s.fresh } = s)) ∧
      (flag ∨ (o = 2 ∧ 3 ≤ sc.toNat) → (s.core c.tid.warp.coreId).l1Find (pa % 2 ^ 44 / 64 / 2) = none →
        Answers (exec i s) (fun t =>
          LanesAfter i s t (fun _ th => new th) (fun _ v => v) ∧
          (∃ q, t.coh.accesses = s.coh.accesses ++ [q] ∧ q.who = .lane c.tid ∧ q.kind = .write ∧ q.site = c.tid.warp.die ∧ q.va = va ∧
            q.pa = pa % 2 ^ 44 ∧ q.size = n ∧ q.wdata.toNat = x % 256 ^ n ∧ q.wmask.toNat = 2 ^ n - 1 ∧ q.dest = []) ∧
          { t with threads := s.threads, groups := s.groups, coh := s.coh, fresh := s.fresh } = s ∧
          { t.coh with accesses := s.coh.accesses } = s.coh)))

/-- ATOM and CAS without an order, of one lane: the destination becomes pending and a new region begins; in a scratchpad the old value is
on its way to the destination and the new one stands there, b's sum, bitwise function, lesser, greater or replacement on unsigned words,
or CAS's new value where the old one equals the comparand; in the module's own memory the atomic is queued at the die cache (R253, R305,
R379 to R382). FENCE of one lane: an acquire issues once every earlier read of its thread has returned, a release once what it orders has
been performed; then only the clean bytes of the core's cache go, for an acquire at CLU scope or wider; a fence that must wait stands next
again (R213, R384, R412). -/
def Obligations.AtomicAndFenceResults : Prop :=
  (∀ (s : State) (k : GroupKey) (c : LaneCtx) (pfx : BitVec 26) (g : BitVec 4) (h : BitVec 1) (d a b : BitVec 7) (va : BitVec 64)
      (op : AtomOp) (p : At),
      ∀ q ∈ ([(.atom pfx g h d a b, false), (.cas pfx g h d a b, true)] : List (Instr × Bool)),
      Solo q.1 s k c → c.atomArgs pfx q.2 d a b = .ok (va, op) → atomOrd pfx = 0 →
      s.acquiring c.tid = false → s.locate c.tid.warp va op.size 3 2 = .here p →
      (∀ m n off, p = .scr m n off → op.size = 4 → op.kind = 0 → op.b < 2 ^ 32 → op.comp < 2 ^ 32 →
        let old := s.scrRead m n off 4
        Answers (exec q.1 s) (fun t =>
          LanesAfter q.1 s t (fun _ th => { th.awaits (c.physical (fld d) op.tags.length) (s.fresh + 1) with newRegion := true })
            (fun _ v => v) ∧
          (∀ r, c.physical (fld d) op.tags.length = [r] → op.tags = [tagN32] →
            t.returns = s.returns ++ [⟨c.tid, s.fresh + 1, [(r, ⟨BitVec.ofNat 32 old, tagN32⟩)], none⟩]) ∧
          t.scrRead m n off 4 =
            (if op.opn = 0 then (old + op.b) % 2 ^ 32 else if op.opn = 1 then old &&& op.b else if op.opn = 2 then old ||| op.b
            else if op.opn = 3 then old ^^^ op.b else if op.opn = 4 then Nat.min old op.b else if op.opn = 5 then Nat.max old op.b
            else if op.opn = 6 then op.b else if op.opn = 8 then (if old = op.comp then op.b else old) else old) ∧
          (∀ j, j < off ∨ off + 4 ≤ j → readCell j (t.bundleAt m n).scr = readCell j (s.bundleAt m n).scr) ∧
          (∀ m', m' ≠ m → t.core m' = s.core m') ∧
          { t with threads := s.threads, groups := s.groups, cores := s.cores, returns := s.returns, fresh := s.fresh } = s)) ∧
      (∀ pa leaf, p = .mem pa leaf → pa / 2 ^ 44 = s.nmod → (s.core c.tid.warp.coreId).l1Find (pa % 2 ^ 44 / 64 / 2) = none →
        Answers (exec q.1 s) (fun t =>
          LanesAfter q.1 s t (fun _ th => { th.awaits (c.physical (fld d) op.tags.length) (s.fresh + 1) with newRegion := true })
            (fun _ v => v) ∧
          (∃ r, t.coh.accesses = s.coh.accesses ++ [r] ∧ r.who = .lane c.tid ∧ r.kind = .atom op.opn op.kind ∧ r.site = c.tid.warp.die ∧
            r.pa = pa % 2 ^ 44 ∧ r.size = op.size ∧ r.wdata = BitVec.ofNat 512 op.b ∧ r.comp = BitVec.ofNat 128 op.comp ∧
            r.mark = s.fresh + 1 ∧ r.dest = (c.physical (fld d) op.tags.length).zip op.tags) ∧
          { t with threads := s.threads, groups := s.groups, coh := s.coh, fresh := s.fresh } = s ∧
          { t.coh with accesses := s.coh.accesses } = s.coh))) ∧
  (∀ (s : State) (k : GroupKey) (c : LaneCtx) (g : BitVec 4) (h : BitVec 1) (o : BitVec 2) (sc : BitVec 3),
      let i := Instr.fence g h o sc
      Solo i s k c →
      ((o.getLsbD 0 = true → s.readsBack c.tid = true) → (o.getLsbD 1 = true → s.released k c.tid sc.toNat = true) →
        (o.getLsbD 1 = false → 6 ≤ sc.toNat → (s.rau k.die).fenced k = true ∧ s.remoteOf c.tid = []) →
        Answers (exec i s) (fun t =>
          LanesAfter i s t (fun _ th => th) (fun _ v => v) ∧
          (t.core c.tid.warp.coreId).l1 = (if o.getLsbD 0 = true ∧ 3 ≤ sc.toNat
            then ((s.core c.tid.warp.coreId).l1.map (fun l => { l with valid := l.valid &&& l.dirty })).filter (fun l => l.valid != 0)
            else (s.core c.tid.warp.coreId).l1) ∧
          { t.core c.tid.warp.coreId with l1 := (s.core c.tid.warp.coreId).l1 } = s.core c.tid.warp.coreId ∧
          (∀ m', m' ≠ c.tid.warp.coreId → t.core m' = s.core m') ∧
          t.fab = (if 6 ≤ sc.toNat then (s.endFence k).fab else s.fab) ∧
          { t with threads := s.threads, groups := s.groups, cores := s.cores, fab := s.fab } = s)) ∧
      (o.getLsbD 0 = true → s.readsBack c.tid = false → exec i s = .next (holdIssue s)))

/-- PENDING_REGISTER_WRITE: the value that has arrived is written to the registers that still wait for it under its mark, which stop being
pending; a failure ends the wait and is taken by a thread that stands at a run boundary (R305, R375); REFRESH_WINDOW_END: the reads that
stalled at a bank go on once its refresh is over, and each acquire at CLU scope or wider among them drops the clean bytes of its core's
cache (R184, R213). The model's choices here: log 6 and 89. -/
def Obligations.ArrivalResults : Prop :=
  (∀ (s : State) (r : Return) (p : Nat) (v : Reg), nth? s.returns s.pick = some r → (lookup? r.thread s.threads).isSome = true →
    (r.trap = none → r.regs = [(p, v)] → (p, r.mark) ∈ (s.thread r.thread).pending →
      Answers (exec .pendingRegisterWrite s) (fun t =>
        t.thread r.thread = { s.thread r.thread with
          regs := put p v (s.thread r.thread).regs
          pending := (s.thread r.thread).pending.filter (fun x => x ≠ (p, r.mark)) } ∧
        (∀ x, x ≠ r.thread → t.thread x = s.thread x) ∧ t.returns = removeNth s.returns s.pick ∧
        { t with threads := s.threads, returns := s.returns } = s)) ∧
    (∀ e, r.trap = some e → (s.thread r.thread).st = .ready → s.canTrap r.thread →
      Answers (exec .pendingRegisterWrite s) (fun t =>
        t.thread r.thread = ((s.thread r.thread).release r.mark).trapped e (s.warp r.thread.warp).tbase (s.thread r.thread).lr s.time ∧
        (∀ x, x ≠ r.thread → t.thread x = s.thread x) ∧ t.returns = removeNth s.returns s.pick ∧
        { t with threads := s.threads, groups := s.groups, returns := s.returns } = s))) ∧
  (∀ (s : State) (die bank : Nat), s.refreshing bank = false →
    let due := (s.die die).refreshWaits.filter (fun r => decide (r.1 = bank))
    Answers (exec (.refreshWindowEnd die bank) s) (fun t =>
      t.returns = s.returns ++ due.map (fun r => r.2.2) ∧
      (∀ c, t.core c = if due.any (fun r => decide (3 ≤ r.2.1) && decide (r.2.2.thread.warp.coreId = c)) then (s.core c).acquired
        else s.core c) ∧
      t.die die = { s.die die with refreshWaits := (s.die die).refreshWaits.filter (fun r => decide (r.1 ≠ bank)) } ∧
      (∀ d, d ≠ die → t.die d = s.die d) ∧ { t with dies := s.dies, returns := s.returns, cores := s.cores } = s))

/-! ## The matrix units -/

/-- MTX ZERO, LD, ST and REL of a whole warp with nothing queued before them: ZERO gives its tile the tag of field A and zero elements at
once, REL unmaps its tile at once, and LD and ST are queued with their record, LD reserving an unmapped tile's segments (R386 to R388,
R405 to R407). MTX RD of one lane of a warp with nothing queued: the element of its lane's row and the selector's column is on its way to
the destination, which becomes pending, zero for an unmapped tile (R408). The model's choices here: log 66 and 68. -/
def Obligations.TileOperations : Prop :=
  (∀ (s : State) (k : GroupKey) (l0 : LaneCtx) (g : BitVec 4) (h : BitVec 1) (d a : BitVec 7),
      let w := l0.tid.warp
      (∀ j ∈ s.matrix, j.warp ≠ w) → s.tileMoving w (fld d) = false →
      (∀ tag, WholeWarp (.mtxZero g d a) s k l0 → tag = BitVec.ofNat 4 (fld a) → s.tileCheck w (fld d) tag = .ok () →
        Answers (exec (.mtxZero g d a) s) (fun t =>
          LanesAfter (.mtxZero g d a) s t (fun _ th => th) (fun _ v => v) ∧
          (∃ segs, (t.warp w).tile? (fld d) = some { tag := tag, elems := [], segs := segs, stamp := none, live := true } ∧
            (∀ v, (s.warp w).tile? (fld d) = some v → segs = v.segs)) ∧
          (∀ c, c ≠ fld d → (t.warp w).tile? c = (s.warp w).tile? c) ∧ (s.warp w).sameBut (t.warp w) ∧
          (∀ y, y ≠ w → t.warp y = s.warp y) ∧ t.matrix = s.matrix.filter (fun x => decide (x.id ≠ s.fresh)) ∧
          { t with threads := s.threads, groups := s.groups, warps := s.warps, matrix := s.matrix, fresh := s.fresh } = s)) ∧
      (WholeWarp (.mtxRel g d) s k l0 →
        Answers (exec (.mtxRel g d) s) (fun t =>
          LanesAfter (.mtxRel g d) s t (fun _ th => th) (fun _ v => v) ∧ (t.warp w).tile? (fld d) = none ∧
          (∀ c, c ≠ fld d → (t.warp w).tile? c = (s.warp w).tile? c) ∧ (s.warp w).sameBut (t.warp w) ∧
          (∀ y, y ≠ w → t.warp y = s.warp y) ∧ t.matrix = s.matrix.filter (fun x => decide (x.id ≠ s.fresh)) ∧
          { t with threads := s.threads, groups := s.groups, warps := s.warps, matrix := s.matrix, fresh := s.fresh } = s)) ∧
      (∀ o r tag, ∀ p ∈ ([(.mtxLd g h d a, 1, false), (.mtxSt g h d a, 2, true)] : List (Instr × Nat × Bool)),
        WholeWarp p.1 s k l0 → (∀ c ∈ laneCtxs s, ∃ v, c.word (fld a) 0 = .ok v) → l0.word (fld a) 0 = .ok o →
        s.transferCheck w (fld d) p.2.2 o = .ok (r, tag) →
        Answers (exec p.1 s) (fun t =>
          LanesAfter p.1 s t (fun _ th => th) (fun _ v => v) ∧
          (∃ j, t.matrix = s.matrix ++ [j] ∧ j.id = s.fresh ∧ j.warp = w ∧ j.fn = p.2.1 ∧ j.tile = fld d ∧ j.recA = r ∧ j.tag = tag) ∧
          (∀ c, c ≠ fld d → (t.warp w).tile? c = (s.warp w).tile? c) ∧
          (∀ v, (s.warp w).tile? (fld d) = some v → (t.warp w).tile? (fld d) = some v) ∧
          (s.warp w).sameBut (t.warp w) ∧ (∀ y, y ≠ w → t.warp y = s.warp y) ∧
          { t with threads := s.threads, groups := s.groups, warps := s.warps, matrix := s.matrix, fresh := s.fresh } = s))) ∧
  (∀ (s : State) (k : GroupKey) (c : LaneCtx) (g : BitVec 4) (h : BitVec 1) (d a : BitVec 7) (v : BitVec 32) (n p : Nat),
      let i := Instr.mtxRd g h d a
      let tile := ((s.warp c.tid.warp).tile? n).filter (fun x => x.live)
      Solo i s k c → (∀ j ∈ s.matrix, j.warp ≠ c.tid.warp) → s.tileMoving c.tid.warp n = false → s.mtxFull c.tid.warp = false →
      s.released k c.tid 3 = true → c.word (fld a) 0 = .ok v → n < 6 → v.toNat / 256 = n → v.extractLsb' 6 2 = 0 →
      (s.warp c.tid.warp).tileTag n ≠ tagF64 → c.dest (fld d) false = .ok p → fld d < 112 →
      (∀ x, tile = some x → x.tag ≠ tagF64) →
      Answers (exec i s) (fun t =>
        LanesAfter i s t (fun c th => th.awaits (c.physical (fld d) 1) s.fresh) (fun _ v => v) ∧
        t.returns = s.returns ++ [⟨c.tid, s.fresh, [(p, match tile with
          | some x => ⟨(x.elem c.lane (v.toNat % 64)).extractLsb' 0 32, x.tag⟩
          | none => ⟨0, tagF32⟩)], none⟩] ∧
        (s.warp c.tid.warp).sameBut (t.warp c.tid.warp) ∧ (∀ y, y ≠ c.tid.warp → t.warp y = s.warp y) ∧
        (∀ m, (t.warp c.tid.warp).tile? m = (s.warp c.tid.warp).tile? m) ∧
        t.matrix = s.matrix.filter (fun x => decide (x.id ≠ s.fresh)) ∧
        { t with threads := s.threads, groups := s.groups, warps := s.warps, matrix := s.matrix, returns := s.returns, fresh := s.fresh } = s))

/-- MMA of a whole warp without a partner, its records in order: queued with both records, its rounding mode and the stamp of its region,
and counted; an MMA whose stamp its tile already bears is counted and has no other effect (R256, R386, R394 to R396). MMA_COMMIT of one
MMA whose operands can be read and whose flags are not enabled: its tile takes every element, the tag and the stamp as a whole, FPS takes
the flags unless a write of FPS came since its issue, and the operation retires; MTX_TRANSFER_DONE: an LD gives its tile the elements that
memory holds, an ST stores those of its tile, and its flags go to FPS in the same way (R285, R286, R386, R395, R407). The model's choices
here: log 71. -/
def Obligations.MatrixResults : Prop :=
  (∀ (s : State) (k : GroupKey) (l0 : LaneCtx) (pfx : BitVec 26) (g : BitVec 4) (h : BitVec 1) (d a b : BitVec 7) (x : MmaArgs),
      let i := Instr.mma pfx g h d a b
      let w := l0.tid.warp
      WholeWarp i s k l0 → l0.warp.partnered = false → (∀ j ∈ s.matrix, j.warp ≠ w) → s.tileMoving w (fld d) = false →
      s.mmaArgs d a b (laneCtxs s) = .ok x →
      ((s.stampOf w (fld d) ≠ some (s.nextStamp w) → mcLines x.ra = [] → mcLines x.rb = [] →
        Answers (exec i s) (fun t =>
          LanesAfter i s t (fun _ th => th) (fun _ v => v) ∧
          (∃ j, t.matrix = s.matrix ++ [j] ∧ j.id = s.fresh ∧ j.warp = w ∧ j.fn = 5 ∧ j.tile = fld d ∧ j.recA = x.ra ∧ j.recB = x.rb ∧
            j.rm = pfx.extractLsb' 0 3 ∧ j.za = pfx.getLsbD 3 ∧ j.tag = x.tag ∧ j.stamp = s.nextStamp w ∧ j.firing = none ∧ j.waits = [] ∧
            j.ten = (s.warp w).fpc.extractLsb' 0 6 ∧ j.passed = false) ∧
          (∀ v, (s.warp w).tile? (fld d) = some v → (t.warp w).tile? (fld d) = some v) ∧
          (∀ c, c ≠ fld d → (t.warp w).tile? c = (s.warp w).tile? c) ∧
          (t.warp w).mmaCount = (s.warp w).mmaCount + 1 ∧ (s.warp w).sameBut (t.warp w) ∧ (∀ y, y ≠ w → t.warp y = s.warp y) ∧
          { t with threads := s.threads, groups := s.groups, warps := s.warps, matrix := s.matrix, fresh := s.fresh } = s)) ∧
      (s.stampOf w (fld d) = some (s.nextStamp w) →
        Answers (exec i s) (fun t =>
          LanesAfter i s t (fun _ th => th) (fun _ v => v) ∧ t.matrix = s.matrix ∧ (t.warp w).tiles = (s.warp w).tiles ∧
          (t.warp w).mmaCount = (s.warp w).mmaCount + 1 ∧ (s.warp w).sameBut (t.warp w) ∧ (∀ y, y ≠ w → t.warp y = s.warp y) ∧
          { t with threads := s.threads, groups := s.groups, warps := s.warps, fresh := s.fresh } = s)))) ∧
  (∀ (s : State) (j : MatrixJob), s.matrix = [j] → s.pick = 0 → j.firing = none → j.waits = [] →
      (∀ es fl, j.fn = 5 → s.mmaResult j = .ok (es, fl) → j.ten &&& fl = 0 →
        Answers (exec .mmaCommit s) (fun t =>
          (∃ segs, (t.warp j.warp).tile? j.tile = some { tag := j.tag, elems := es, segs := segs, stamp := some j.stamp, live := true } ∧
            (∀ v, (s.warp j.warp).tile? j.tile = some v → segs = v.segs)) ∧
          (∀ c, c ≠ j.tile → (t.warp j.warp).tile? c = (s.warp j.warp).tile? c) ∧
          (t.warp j.warp).fps = (if j.passed then (s.warp j.warp).fps else (s.warp j.warp).fps ||| BitVec.setWidth 32 fl) ∧
          (s.warp j.warp).sameBut { t.warp j.warp with fps := (s.warp j.warp).fps, stamps := (s.warp j.warp).stamps } ∧ (∀ y, y ≠ j.warp → t.warp y = s.warp y) ∧ t.matrix = [] ∧
          { t with warps := s.warps, matrix := s.matrix } = s)) ∧
      (∀ rows tile, j.fn = 1 → (s.warp j.warp).tile? j.tile = some tile →
        s.mtxLines j.warp [] (trBase j.recA) (trRowBytes j.recA) ((List.range (trRows j.recA)).map (fun i => i * trStride j.recA)) = .ok rows →
        Answers (exec .mtxTransferDone s) (fun t =>
          (t.warp j.warp).tile? j.tile = some { tile with elems := ldTile tile j.recA rows, stamp := none, live := true } ∧
          (∀ c, c ≠ j.tile → (t.warp j.warp).tile? c = (s.warp j.warp).tile? c) ∧ (s.warp j.warp).sameBut (t.warp j.warp) ∧
          (∀ y, y ≠ j.warp → t.warp y = s.warp y) ∧ t.matrix = [] ∧ { t with warps := s.warps, matrix := s.matrix } = s)) ∧
      (∀ es u, j.fn = 2 → es = stElems (((s.warp j.warp).tile? j.tile).filter (fun x => x.live)) j.recA → 
        j.ten &&& orFlags (es.map (fun e => e.2.2.2)) = 0 →
        stWrites j.warp (fun leaf => if (trCtl j.recA).testBit 2 then BitVec.ofNat 2 (trCtl j.recA) else pteRcl leaf) es s = (u, none) →
        u.matrix = s.matrix → u.warps = s.warps →
        Answers (exec .mtxTransferDone s) (fun t =>
          (t.warp j.warp).fps = (if j.passed then (s.warp j.warp).fps
            else (s.warp j.warp).fps ||| BitVec.setWidth 32 (orFlags (es.map (fun e => e.2.2.2)))) ∧
          (s.warp j.warp).sameBut { t.warp j.warp with fps := (s.warp j.warp).fps } ∧ (t.warp j.warp).tiles = (s.warp j.warp).tiles ∧ (∀ y, y ≠ j.warp → t.warp y = s.warp y) ∧
          t.matrix = [] ∧ { t with warps := s.warps, matrix := s.matrix } = u)))

/-- GANG_ARRIVE: a warp that stands whole at a gang MMA, and has not arrived, is recorded in its latch with its offsets; the last member
that PMASK names fires the latch: it clears, and every thread of every member is READY to issue (R402). MULTICAST_WINDOW: 64 cycles after
its first request one read of a line serves every operation that asked for it (R400). The model's choices here: log 6. -/
def Obligations.GangAndMulticast : Prop :=
  (∀ (s : State) (die core part slot : Nat) (st : BitVec 64 × Bool × BitVec 64 × List ThreadId) (p : BitVec 26) (gd : BitVec 4) (h : BitVec 1)
    (d a b : BitVec 7) (n : Nat) (v : GangArrival),
    let w : WarpId := ⟨die, core, part, slot⟩
    let k : GroupKey := ⟨die, core, part, 0, 0⟩
    let gr := gangGroup w (st.2.2.2.map (fun x => x.lane)) st.2.2.1 st.1
    let ar := s.latchOf w ++ [v]
    (∀ x ∈ s.latchOf w, ¬ (x.part = part ∧ x.slot = slot)) → s.gangStand w = some st →
    decodeWords gr.words = .ok (.mma p gd h d a b, n) →
    s.gangArrival w d a b (.mma p gd h d a b) st.2.1 ((membersOf k gr).map (laneCtx s k gr)) = .ok v → s.gangMissing w = false →
    ((∃ q x, (q, x) ∈ s.pmaskWarps w ∧ ar.all (fun y => decide (y.part ≠ q)) = true) →
      Answers (exec (.gangArrive die core part slot) s) (fun t =>
        CoreIs s t ⟨die, core⟩ { s.core ⟨die, core⟩ with
          latches := put ((s.warp w).bslot, (s.warp w).wp / 4) ar (s.core ⟨die, core⟩).latches } ∧
        { t with cores := s.cores } = s)) ∧
    ((∀ q x, (q, x) ∈ s.pmaskWarps w → ar.any (fun y => decide (y.part = q)) = true) → (∀ y ∈ ar, y.gang = v.gang) →
      (v.gang.getLsbD 4 = true ∨ v.gang.getLsbD 5 = true → ∀ y ∈ ar, y.offA = v.offA ∧ y.offB = v.offB) →
      Answers (exec (.gangArrive die core part slot) s) (fun t =>
        CoreIs s t ⟨die, core⟩ { s.core ⟨die, core⟩ with
          latches := drop ((s.warp w).bslot, (s.warp w).wp / 4) (put ((s.warp w).bslot, (s.warp w).wp / 4) ar (s.core ⟨die, core⟩).latches) } ∧
        (∀ y ∈ ar, (t.warp ⟨die, core, y.part, y.slot⟩).firing.isSome = true ∧ ∀ l, l < 32 → (s.thread ⟨⟨die, core, y.part, y.slot⟩, l⟩).st ≠ .exited →
          (t.thread ⟨⟨die, core, y.part, y.slot⟩, l⟩).st = .ready) ∧
        { t with cores := s.cores, warps := s.warps, threads := s.threads, fresh := s.fresh } = s))) ∧
  (∀ (s : State) (die cluster k : Nat) (f : Nat × Nat × List Nat) (j : MatrixJob) (bs : List Byte),
    nth? (s.cluster die cluster).fetches k = some f → f.2.1 + 64 ≤ s.time → s.matrix.find? (fun j => f.2.2.contains j.id) = some j →
    s.mtxStretches j.warp [] (BitVec.ofNat 64 (f.1 % 2 ^ 57 * 128)) [(0, 64), (64, 64)] = .ok bs →
    Answers (exec (.multicastWindow die cluster k) s) (fun t =>
      ClusterIs s t die cluster { s.cluster die cluster with fetches := removeNth (s.cluster die cluster).fetches k } ∧
      t.matrix = s.matrix.map (fun j => if f.2.2.contains j.id then
        { j with waits := j.waits.filter (fun l => decide (l ≠ f.1 % 2 ^ 57)), got := j.got ++ [(f.1 % 2 ^ 57, bs)] } else j) ∧
      { t with clusters := s.clusters, matrix := s.matrix } = s))

/-! ## The engines -/

/-- CPY and GTH whose operands every active lane has, whose descriptor passes its checks and whose engine has room: the operation is
queued with its descriptor, the lowest active lane's bytes, and counted in CPY or GTH; a descriptor that makes it non-idempotent begins a
new region (R215, R233, R236, R413). COPY_DONE of a copy of one 4-byte element between scratchpads: the destination holds the source's
bytes, no other byte of a scratchpad changes, and the operation retires (R216, R232, R234). COPY_DONE and GATHER_DONE of an operation that
has moved all its parts, committed every slot and has nothing outstanding: it retires (R216, R234, R236). COPY_FAULT of a part that
faults: the operation ends, and its warp holds the fault for the lanes that issued it (R233, R255, R414). ENGINE_SLOT_COMMIT: a slot whose
every byte has been performed is FILLED (R238). The model's choices here: log 53, 54 and 128. -/
def Obligations.EngineResults : Prop :=
  ((∀ (s : State) (k : GroupKey) (l0 : LaneCtx) (pfx : BitVec 26) (g : BitVec 4) (h : BitVec 1) (d a b : BitVec 7) (j : EngineJob),
        ∀ p ∈ ([(.cpy pfx g h d a b, false), (.gth pfx g h d a b, true)] : List (Instr × Bool)),
        Once p.1 s k l0 → (∀ c ∈ activeLanes p.1 s, s.released k c.tid 3 = true ∧ ∃ v, engineOperands pfx a b c = .ok v) →
        s.engineIssue p.2 pfx a b (activeLanes p.1 s) l0 = .ok j → s.engineFull p.2 l0.tid.warp = false →
        Answers (exec p.1 s) (fun t =>
          LanesAfter p.1 s t (fun _ th => { th with newRegion := j.nonIdempotent || th.newRegion }) (fun _ v => v) ∧
          t.jobs = s.jobs ++ [j] ∧ j.id = s.fresh ∧ j.gather = p.2 ∧ j.warp = l0.tid.warp ∧
          (∀ o, l0.word (fld a) 0 = .ok o → pfx.extractLsb' 0 2 = 0 →
            j.desc = s.scrBytesAt l0.tid.warp.coreId l0.warp.bslot o.toNat (if p.2 then 64 else 128)) ∧
          (t.warp l0.tid.warp).ops = (s.warp l0.tid.warp).ops ++ [⟨if p.2 then 1 else 0, s.fresh, false⟩] ∧
          (t.warp l0.tid.warp).tiles = (s.warp l0.tid.warp).tiles ∧ (s.warp l0.tid.warp).sameBut (t.warp l0.tid.warp) ∧
          (∀ y, y ≠ l0.tid.warp → t.warp y = s.warp y) ∧
          { t with threads := s.threads, groups := s.groups, warps := s.warps, jobs := s.jobs, fresh := s.fresh } = s)) ∧
    (∀ (s : State) (j : EngineJob) (m m' : CoreId) (b b' so de : Nat),
        s.jobs = [j] → s.pick = 0 → j.gather = false → j.suspended = none → j.sent = [] → j.fills = [] → j.got = [] →
        j.num 16 1 = 1 → j.num 24 4 = 1 → j.num 17 1 = 2 → j.num 18 1 = 0 → j.num 0 8 % 64 ≤ 60 → j.num 8 8 % 64 ≤ 60 → s.engAway j = false →
        j.done = [] → j.before = [] →
        s.locate j.warp (BitVec.ofNat 64 (j.num 0 8)) 4 0 0 = .here (.scr m b so) →
        s.locate j.warp (BitVec.ofNat 64 (j.num 8 8)) 4 1 0 = .here (.scr m' b' de) →
        s.locate j.warp (BitVec.ofNat 64 (j.num 8 8)) 1 1 0 = .here (.scr m' b' de) →
        Answers (exec .copyDone s) (fun t =>
          t.scrRead m' b' de 4 = s.scrRead m b so 4 ∧
          (∀ i, i < de ∨ de + 4 ≤ i → readCell i (t.bundleAt m' b').scr = readCell i (s.bundleAt m' b').scr) ∧
          (∀ y, y ≠ m' → t.core y = s.core y) ∧ { t.core m' with bundles := (s.core m').bundles } = s.core m' ∧ t.jobs = [] ∧
          (s.warp j.warp).sameBut (t.warp j.warp) ∧ (∀ y, y ≠ j.warp → t.warp y = s.warp y) ∧
          { t with cores := s.cores, warps := s.warps, jobs := s.jobs } = s))) ∧
  ((∀ (s : State) (j : EngineJob), s.jobs = [j] → s.pick = 0 → (lookup? j.warp s.warps).isSome = true →
      ∀ p ∈ ([(.copyDone, false), (.gatherDone, true)] : List (Instr × Bool)),
      j.gather = p.2 → j.nextPart = none → (∀ n, n < j.fills.length → j.committed.testBit n = true) → j.got = [] → s.engAway j = false →
      Answers (exec p.1 s) (fun t =>
        t.jobs = [] ∧ WarpIs s t j.warp ((s.warp j.warp).opDone (if p.2 then 1 else 0) j.id) ∧
        { t with warps := s.warps, jobs := s.jobs } = s)) ∧
    (∀ (s : State) (k e : Nat) (j : EngineJob) (tr : Trap), nth? s.jobs k = some j → s.job? j.id = some j → s.working j = true → j.mayMove e = true →
      s.movePart j e = (s, some (.fault tr)) → s.gridEnding j.lane0 = false →
      Answers (exec (.copyFault k e) s) (fun t =>
        t.jobs = s.jobs.filter (fun x => decide (x.id ≠ j.id)) ∧
        (t.warp j.warp).faults = (s.warp j.warp).faults ++ [⟨j.id, if j.gather then 1 else 0, tr, j.lanes⟩] ∧
        (s.warp j.warp).sameBut { t.warp j.warp with faults := (s.warp j.warp).faults } ∧ (∀ y, y ≠ j.warp → t.warp y = s.warp y) ∧
        { t with warps := s.warps, jobs := s.jobs } = s)) ∧
    (∀ (s : State) (j : EngineJob) (n : Nat) (tr : Tray) (i e : Nat), s.jobs = [j] → s.pick = 0 →
      s.jobTray j (if j.gather then j.num 16 1 else j.num 8 1) = some (n, tr) → j.fills.head? = some i → j.committed.testBit 0 = false →
      j.slotFull tr.size 0 = true → j.nextPart = some e →
      Answers (exec .engineSlotCommit s) (fun t =>
        CoreIs s t j.warp.coreId { s.core j.warp.coreId with
          trays := put n { tr with slots := setNth .filled tr.slots i } (s.core j.warp.coreId).trays } ∧
        t.jobs = [{ j with committed := j.committed + 1 }] ∧ { t with cores := s.cores, jobs := s.jobs } = s)))

/-! ## Trays -/

/-- TRAY CFG gives 0 and binds the lowest unused tray to its name, all slots FREE; 1 for a parameter out of range or storage beyond the
allocation, 3 for a name that is bound, 2 where no tray is unused (R237, R416). TRAY REL of a configured tray unbinds its name and gives
0, or gives 4 where an engine operation names it; RSV reserves slot P and gives its token, with an acquire at CLU scope, or all ones where
no slot is free; CNT gives FILLC in its low half and FREEC in its high half (R237 to R239, R416). TRAY COMMIT of a token of a FILLING slot
makes the slot FILLED; DONE of a token of a READING slot frees it where it is slot F and the next one is not SPENT, and else marks it
SPENT; either begins a new region, once a release at CLU scope is met (R238, R239, R416). TRAY POP of one lane: where slot C is FILLED it
becomes READING, its token is on its way to the destination and a new region begins, after an acquire at CLU scope; where it is not the
thread stands BLOCKED on the tray (R238, R239, R416). The model's choices here: log 55 and 147. -/
def Obligations.TrayResults : Prop :=
  ((∀ (s : State) (k : GroupKey) (l0 : LaneCtx) (g : BitVec 4) (h : BitVec 1) (d a : BitVec 7) (v : BitVec 64),
        let i := Instr.trayCfg g h d a
        let core := l0.tid.warp.coreId
        let name := (v.extractLsb' 0 4).toNat
        let size := 128 * (v.extractLsb' 8 10).toNat
        let n := (v.extractLsb' 18 8).toNat + 1
        let off := (v.extractLsb' 32 32).toNat
        let bad := v.extractLsb' 4 4 != 0 || v.extractLsb' 26 6 != 0 || decide (size = 0) || decide (65536 < size) || decide (off % 128 ≠ 0) ||
          decide (l0.bundle.scrSegs * 8192 < off + size * n)
        let bound := (s.core core).trays.any (fun p => decide (p.2.bslot = l0.warp.bslot) && decide (p.2.name = name))
        let unused := (List.range 16).find? (fun i => (lookup? i (s.core core).trays).isNone)
        Once i s k l0 → (∀ c ∈ activeLanes i s, ∃ x m, c.pairOf (fld a) 0 4 = .ok x ∧ c.dest (fld d) false = .ok m) →
        l0.pairOf (fld a) 0 4 = .ok v →
        Answers (exec i s) (fun t =>
          ResultsAfter i s t (fld d) [(if bad then 1 else if bound then 3 else if unused = none then 2 else 0, tagN32)] true ∧
          CoreIs s t core (match bad || bound, unused with
            | false, some p =>
              { s.core core with trays := put p { bslot := l0.warp.bslot, name := name, offset := off, size := size, n := n, p := 0, c := 0, f := 0
                                                  freec := n, slots := List.replicate n .free } (s.core core).trays }
            | _, _ => s.core core) ∧
          { t with threads := s.threads, groups := s.groups, cores := s.cores, returns := s.returns, fresh := s.fresh } = s)) ∧
    (∀ (s : State) (k : GroupKey) (l0 : LaneCtx) (g : BitVec 4) (h : BitVec 1) (d a : BitVec 7) (v : BitVec 32) (n : Nat) (tr : Tray),
        let core := l0.tid.warp.coreId
        let busy := s.trayBusy core tr.bslot tr.name
        ∀ p ∈ ([
          (.trayRel g h d a, if busy then 4 else 0, true,
            if busy then s.core core else { s.core core with trays := drop n (s.core core).trays }),
          (.trayRsv g h d a, if tr.freec = 0 then 0xFFFFFFFF else tr.token tr.p, true,
            if tr.freec = 0 then s.core core else ({ s.core core with
              trays := put n { tr with slots := setNth .filling tr.slots tr.p, p := (tr.p + 1) % tr.n, freec := tr.freec - 1 }
                (s.core core).trays } : Core).acquired),
          (.trayCnt g h d a, BitVec.ofNat 32 (tr.fillc + 65536 * tr.freec), false, s.core core)] : List (Instr × BitVec 32 × Bool × Core)),
        Once p.1 s k l0 → (∀ c ∈ activeLanes p.1 s, ∃ x m, c.word (fld a) 0 = .ok x ∧ c.dest (fld d) false = .ok m) →
        l0.word (fld a) 0 = .ok v → v.toNat < 16 → s.trayOf core l0.warp.bslot v.toNat = some (n, tr) →
        Answers (exec p.1 s) (fun t =>
          ResultsAfter p.1 s t (fld d) [(p.2.1, tagN32)] p.2.2.1 ∧ CoreIs s t core p.2.2.2 ∧
          { t with threads := s.threads, groups := s.groups, cores := s.cores, returns := s.returns, fresh := s.fresh } = s))) ∧
  ((∀ (s : State) (k : GroupKey) (l0 : LaneCtx) (g : BitVec 4) (a : BitVec 7) (v : BitVec 32) (n i : Nat) (tr : Tray),
        let core := l0.tid.warp.coreId
        ∀ p ∈ ([
          (.trayCommit g a, .filling, { tr with slots := setNth .filled tr.slots i }),
          (.trayDone g a, .reading,
            if i = tr.f then { tr with slots := setNth .free tr.slots i, f := (tr.f + 1) % tr.n, freec := tr.freec + 1 }
            else { tr with slots := setNth .spent tr.slots i })] : List (Instr × SlotState × Tray)),
        Once p.1 s k l0 → (∀ c ∈ activeLanes p.1 s, s.released k c.tid 3 = true) →
        (∀ c ∈ activeLanes p.1 s, ∃ x, c.word (fld a) 0 = .ok x) → l0.word (fld a) 0 = .ok v → v.extractLsb' 22 2 = 0 → (v.extractLsb' 24 8).toNat = i → i < tr.n → tr.slots.length = tr.n →
        s.trayOf core l0.warp.bslot (v.extractLsb' 18 4).toNat = some (n, tr) → tr.token i = v → nth .free tr.slots i = p.2.1 →
        tr.f < tr.n → nth .free tr.slots tr.f ≠ .spent → nth .free tr.slots ((tr.f + 1) % tr.n) ≠ .spent →
        Answers (exec p.1 s) (fun t =>
          LanesAfter p.1 s t (fun _ th => { th with newRegion := true }) (fun _ v => v) ∧
          CoreIs s t core { s.core core with trays := put n p.2.2 (s.core core).trays } ∧
          { t with threads := s.threads, groups := s.groups, cores := s.cores } = s)) ∧
    (∀ (s : State) (k : GroupKey) (c : LaneCtx) (g : BitVec 4) (h : BitVec 1) (d a : BitVec 7) (v : BitVec 32) (n m : Nat) (tr : Tray),
        let i := Instr.trayPop g h d a
        let core := c.tid.warp.coreId
        let th := (enterRegion k c.tid s).thread c.tid
        Solo i s k c → c.word (fld a) 0 = .ok v → v.toNat < 16 → c.dest (fld d) false = .ok m →
        s.trayOf core c.warp.bslot v.toNat = some (n, tr) → tr.c < tr.slots.length →
        (nth .free tr.slots tr.c = .filled →
          Answers (exec i s) (fun t =>
            ThreadIs s t c.tid { th.awaits (c.physical (fld d) 1) s.fresh with wait := none, newRegion := true } ∧
            t.returns = s.returns ++ (c.physical (fld d) 1).map (fun q => ⟨c.tid, s.fresh, [(q, ⟨tr.token tr.c, tagN32⟩)], none⟩) ∧
            CoreIs s t core ({ s.core core with
              trays := put n { tr with slots := setNth .reading tr.slots tr.c, c := (tr.c + 1) % tr.n } (s.core core).trays } : Core).acquired ∧
            t.warps = (enterRegion k c.tid s).warps ∧
            { t with threads := s.threads, groups := s.groups, warps := s.warps, cores := s.cores, returns := s.returns, fresh := s.fresh } = s)) ∧
        (nth .free tr.slots tr.c ≠ .filled →
          Answers (exec i s) (fun t =>
            ThreadIs s t c.tid { s.thread c.tid with st := .blocked, wait := some (.tray v.toNat) } ∧
            { t with threads := s.threads, groups := s.groups } = s))))

/-! ## Barriers -/

/-- BAR INIT with a mask of members there are: a name not bound is bound to the lowest free slot of its level, and a slot with no arrival
and no pending byte takes the mask with its generation kept; BAR REL frees a bound slot that is idle, and its generation stays with it;
both begin a new region (R224, R225, R417). BAR ARV and ARVB of the one live thread of a warp at a bundle slot that its mask names it in:
the bytes it gives are pending, the warp's arrival stands in ARRV, and where every member has then arrived, with no byte pending and no
monitor bound, the generation completes: GEN goes up by one, ARRV is empty, and the waits for that generation are over (R207, R226, R417).
The model's choices here: log 24 and 37. -/
def Obligations.BarrierArrivals : Prop :=
  (∀ (s : State) (k : GroupKey) (l0 : LaneCtx) (g : BitVec 4) (h a : BitVec 7) (l : BitVec 3) (m : BitVec 64),
      let w := l0.tid.warp
      let set (b : BarSlot) : BarSlot := { b with mask := m, arrv := 0, count := 0, pend := 0, brk := false, part := [], last := [], landed := false }
      (Once (.barInit g h a l) s k l0 → (∀ c ∈ activeLanes (.barInit g h a l) s, ∃ x, c.pairOf (fld a) 0 4 = .ok x) →
        l0.pairOf (fld a) 0 4 = .ok m → m ≠ 0 → m.toNat < 2 ^ (if l = 1 then l0.bundle.wpb else s.membersIn l0.bundle) →
        (l = 2 → s.inSpread l0.bundle = true) →
        (∀ n, s.boundTo w l.toNat (fld h) = none → s.freeBar w l.toNat = some n →
          Answers (exec (.barInit g h a l) s) (fun t =>
            LanesAfter (.barInit g h a l) s t (fun _ th => { th with newRegion := true }) (fun _ v => v) ∧
            t.slot? w l.toNat n = some (set { BarSlot.reset with
              holder := (if l = 1 then l0.warp.bslot else l0.bundle.spread), name := fld h, gen := s.freeGen w l.toNat n }) ∧
            (∀ j, j ≠ n → t.slot? w l.toNat j = s.slot? w l.toNat j) ∧
            { t with threads := s.threads, groups := s.groups, cores := s.cores, clusters := s.clusters } = s)) ∧
        (∀ n b, s.boundTo w l.toNat (fld h) = some n → s.slot? w l.toNat n = some b → b.arrv = 0 → b.pend = 0 →
          Answers (exec (.barInit g h a l) s) (fun t =>
            LanesAfter (.barInit g h a l) s t (fun _ th => { th with newRegion := true }) (fun _ v => v) ∧
            t.slot? w l.toNat n = some (set b) ∧ (∀ j, j ≠ n → t.slot? w l.toNat j = s.slot? w l.toNat j) ∧
            { t with threads := s.threads, groups := s.groups, cores := s.cores, clusters := s.clusters } = s))) ∧
      (∀ n b, Once (.barRel g h l) s k l0 → s.boundTo w l.toNat (fld h) = some n → s.slot? w l.toNat n = some b → b.arrv = 0 → b.pend = 0 →
        Answers (exec (.barRel g h l) s) (fun t =>
          LanesAfter (.barRel g h l) s t (fun _ th => { th with newRegion := true }) (fun _ v => v) ∧
          t.slot? w l.toNat n = none ∧ t.freeGen w l.toNat n = b.gen ∧ (∀ j, j ≠ n → t.slot? w l.toNat j = s.slot? w l.toNat j) ∧
          { t with threads := s.threads, groups := s.groups, cores := s.cores, clusters := s.clusters } = s))) ∧
  (∀ (s : State) (k : GroupKey) (c : LaneCtx) (g : BitVec 4) (hb : BitVec 1) (h a : BitVec 7) (bytes n : Nat) (b : BarSlot),
      let w := c.tid.warp
      let u := (s.warp w).wp
      let done := b.arrv ||| (1#64 <<< u) = b.mask ∧ b.pend + bytes = 0
      let fin (x : ThreadId) (th : Thread) : Thread :=
        if done ∧ x.warp.coreId = w.coreId then th.freed 1 n b.gen (if b.landed then 3 else 2) else th
      ∀ p ∈ ([(.barArv g h 1, true), (.barArvb g hb h a 1, false)] : List (Instr × Bool)),
      Solo p.1 s k c → (if p.2 then bytes = 0 else c.byteCount (fld a) 0 = .ok bytes) → s.released k c.tid 2 = true →
      (∀ l, l < 32 → l ≠ c.lane → (s.thread ⟨w, l⟩).st = .exited) →
      s.boundTo w 1 (fld h) = some n → s.slot? w 1 n = some b → b.brk = false → b.mask.getLsbD u = true → b.pend + bytes < 2 ^ 36 →
      (∀ q ∈ b.last, ¬ (q.1 = u ∧ q.2 = b.gen)) → (∀ q ∈ b.part, q.1 ≠ u) →
      (∀ q ∈ (s.cluster w.die w.coreId.cluster).monitors, ¬ (q.2.level = 1 ∧ q.2.slot = n)) →
      Answers (exec p.1 s) (fun t =>
        t.thread c.tid = fin c.tid { s.thread c.tid with newRegion := true } ∧ (∀ x, x ≠ c.tid → t.thread x = fin x (s.thread x)) ∧
        s.sameGroups t ∧
        t.slot? w 1 n = some (if done
          then { b with
            gen := b.gen + 1, arrv := 0, count := 0, part := [], last := put u b.gen b.last, landed := false
            failed := b.failed.filter (fun f => f.1 != b.gen)
            pended := b.pended.filter (fun x => x != b.gen) ++ (if b.landed then [b.gen] else []) }
          else { b with arrv := b.arrv ||| (1#64 <<< u), pend := b.pend + bytes, last := put u b.gen b.last }) ∧
        (∀ j, j ≠ n → t.slot? w 1 j = s.slot? w 1 j) ∧ (∀ y, y ≠ w.coreId → t.core y = s.core y) ∧
        { t.core w.coreId with bars := (s.core w.coreId).bars } = s.core w.coreId ∧
        { t with threads := s.threads, groups := s.groups, cores := s.cores } = s))

/-- BAR WAIT of one lane passes once the generation that its unit last arrived for, or the open one, has completed, entering the region
and acquiring at the level's scope, and at least at CLU scope where an engine's bytes were pending in that generation; so does one whose
wait is over already; else it stands BLOCKED; at a broken slot it takes class 09, subcode 0x07 (R207, R226 to R228, R417). The model's
choices here: log 63. -/
def Obligations.BarrierWaits : Prop :=
  ∀ (s : State) (k : GroupKey) (c : LaneCtx) (g : BitVec 4) (hb : BitVec 1) (h : BitVec 7) (l : BitVec 3) (n : Nat) (b : BarSlot),
    let i := Instr.barWait g hb h l
    let w := c.tid.warp
    let gen := lookupD (s.unitOf w l.toNat) b.gen b.last
    let passes (acq : Prop) [Decidable acq] (t : State) : Prop :=
      ThreadIs s t c.tid { (enterRegion k c.tid s).thread c.tid with wait := none } ∧
      CoreIs s t w.coreId (if acq then (s.core w.coreId).acquired else s.core w.coreId) ∧
      { t with threads := s.threads, groups := s.groups, cores := s.cores } = s
    Solo i s k c →
    (∀ lv m scope, c.th.wait = some (.released lv m scope none) → Answers (exec i s) (passes (3 ≤ scope))) ∧
    (c.th.wait = none → s.barFind w l.toNat (fld h) = .ok n → s.slot? w l.toNat n = some b → b.part = [] →
    (b.brk = false → (b.gen - (gen + 1)).toNat < 0x8000 → b.failed = [] →
      Answers (exec i s) (passes (2 ≤ l.toNat ∨ gen ∈ b.pended))) ∧
    (b.brk = false → ¬ (b.gen - (gen + 1)).toNat < 0x8000 →
      Answers (exec i s) (fun t =>
        ThreadIs s t c.tid { s.thread c.tid with st := .blocked, wait := some (.barrier l.toNat n gen.toNat) } ∧
        { t with threads := s.threads, groups := s.groups } = s)) ∧
    (b.brk = true → s.canTrap c.tid →
      Answers (exec i s) (fun t =>
        ThreadIs s t c.tid (((enterRegion k c.tid s).thread c.tid).trapped
          ⟨9, 7, BitVec.ofNat 64 (l.toNat * 2 ^ 56 + n), 0, none⟩ (s.warp w).tbase (s.thread c.tid).lr s.time) ∧
        { t with threads := s.threads, groups := s.groups } = s)))

/-- WAIT of one lane that owes no engine fault passes once the counter of its class is at most N, with an acquire of all that its
operations wrote; else it stands BLOCKED on the counter (R215, R415). -/
def Obligations.CounterWaits : Prop :=
  ∀ (s : State) (k : GroupKey) (c : LaneCtx) (g : BitVec 4) (cls : BitVec 3) (n : BitVec 7),
    let i := Instr.wait g cls n
    let w := s.warp c.tid.warp
    let count := if cls = 0 then w.cpy else if cls = 1 then w.gth else if cls = 2 then w.mtx else if cls = 3 then w.rmt else w.inv
    Solo i s k c →
    (count ≤ n.toNat → w.faults = [] →
      Answers (exec i s) (fun t =>
        ThreadIs s t c.tid { (enterRegion k c.tid s).thread c.tid with wait := none } ∧ t.warps = (enterRegion k c.tid s).warps ∧
        CoreIs s t c.tid.warp.coreId (s.core c.tid.warp.coreId).acquired ∧
        { t with threads := s.threads, groups := s.groups, warps := s.warps, cores := s.cores } = s)) ∧
    (n.toNat < count →
      Answers (exec i s) (fun t =>
        ThreadIs s t c.tid { s.thread c.tid with st := .blocked, wait := some (.counter cls.toNat n.toNat) } ∧
        { t with threads := s.threads, groups := s.groups } = s))

/-! ## Invocations and chits -/

/-- INVK of one lane to its own module with a null chit: the template's record, with its chit and CHV set, enters the hold buffer of the
dispatcher that QSEL or TDV names, where it has room, and the operation retires; without CH the destination takes 0, with CH the chit of
the die's lowest free table entry, which is in WAIT; with CH and no free entry nothing is sent and the destination takes 0 (R93, R94,
R415, R418, R419). The model's choices here: log 56. -/
def Obligations.InvokeResults : Prop :=
  ∀ (s : State) (k : GroupKey) (c : LaneCtx) (pfx : BitVec 26) (g : BitVec 4) (h : BitVec 1) (d a b : BitVec 7) (o : BitVec 32) (e : Nat),
    let i := Instr.invk pfx g h d a b
    let w := c.tid.warp
    let ch := pfx.getLsbD 13
    let chit := if ch then mkChit s.fab.nmod w.die e (s.chitEntry w.die e).gen.toNat else 0
    let r := invkRecord (s.scrRead w.coreId c.warp.bslot o.toNat 64) chit ch
    let disp := if recQsel r < 64 then (if pfx.getLsbD 12 then (pfx.extractLsb' 9 3).toNat else w.die) else 20
    let regs := c.physical (fld d) 2
    let give (x : BitVec 64) (m : Nat) : List Return :=
      if regs = [] then [] else [⟨c.tid, m, regs.zip [⟨x.extractLsb' 0 32, tagN64⟩, ⟨x.extractLsb' 32 32, tagN64⟩], none⟩]
    Solo i s k c → s.invkArgs pfx d a b c = .ok (o, 0) → pfx.getLsbD 8 = false → c.warp.inv < 255 → s.released k c.tid 5 = true →
    ((ch = true → s.freeChit w.die = some e) → (s.dispatcher disp).hold.length < 32 → (s.dispatcher disp).holdSpill = [] →
      Answers (exec i s) (fun t =>
        ThreadIs s t c.tid { (s.thread c.tid).awaits regs (s.fresh + 1) with newRegion := true } ∧
        t.returns = s.returns ++ give chit (s.fresh + 1) ∧
        DispIs s t disp { s.dispatcher disp with hold := (s.dispatcher disp).hold ++ [⟨r, recQsel r, false, 0, none, some (w, s.fresh)⟩] } ∧
        (ch = true → t.chitEntry w.die e = { ChitEntry.reset with state := .wait, gen := (s.chitEntry w.die e).gen }) ∧
        (∀ q, ch = false ∨ q ≠ (w.die, e) → lookup? q t.chits.tables = lookup? q s.chits.tables) ∧
        { t.chits with tables := s.chits.tables } = s.chits ∧
        (s.warp w).sameBut (t.warp w) ∧ (t.warp w).tiles = (s.warp w).tiles ∧ (∀ y, y ≠ w → t.warp y = s.warp y) ∧
        { t with threads := s.threads, groups := s.groups, warps := s.warps, returns := s.returns, fresh := s.fresh, disp := s.disp
                 chits := s.chits } = s)) ∧
    (ch = true → s.freeChit w.die = none →
      Answers (exec i s) (fun t =>
        ThreadIs s t c.tid { (s.thread c.tid).awaits regs s.fresh with newRegion := true } ∧ t.returns = s.returns ++ give 0 s.fresh ∧
        { t with threads := s.threads, groups := s.groups, returns := s.returns, fresh := s.fresh } = s))

/-- CHIT functions of one lane on a live chit of its module: TEST gives the state code, 4 and the cause times 256 for a broken one, and
SLOT of a completed chit the word of its result or broken record that the lane's number picks, both with an acquire where the chit is
done; AWAIT passes a done chit with an acquire, stands BLOCKED at one not complete, and takes class 08 after the run for a broken one;
FREE, its release at DEV scope met, sends a release of the chit to the home and counts it in INV (R215, R255, R420, R421). The model's
choices here: log 121. -/
def Obligations.ChitResults : Prop :=
  ∀ (s : State) (k : GroupKey) (c : LaneCtx) (g : BitVec 4) (h : BitVec 1) (d a : BitVec 7) (x : BitVec 64) (e : ChitEntry),
    let w := c.tid.warp
    let core := if e.state = .done then (s.core w.coreId).acquired else s.core w.coreId
    s.chitArg a c = .ok x → s.liveChit x = some e →
    (∀ p ∈ ([
      (.chitTest g h d a, true, BitVec.ofNat 32 (match e.state with
        | .free => 0 | .wait => 1 | .placed => 2 | .done => 3 | .broken => 4 + 256 * recCause e.result), tagN32),
      (.chitSlot g h d a, decide (e.state = .done ∨ e.state = .broken), e.result.extractLsb' (32 * (c.lane % 16)) 32, tagB32)] :
        List (Instr × Bool × BitVec 32 × BitVec 4)),
      Solo p.1 s k c → p.2.1 = true → (∃ n, c.dest (fld d) false = .ok n) →
      Answers (exec p.1 s) (fun t =>
        ResultsAfter p.1 s t (fld d) [p.2.2] true ∧ CoreIs s t w.coreId core ∧
        { t with threads := s.threads, groups := s.groups, cores := s.cores, returns := s.returns, fresh := s.fresh } = s)) ∧
    (Solo (.chitAwait g a) s k c →
      (e.state = .done → Answers (exec (.chitAwait g a) s) (fun t =>
        ThreadIs s t c.tid { (enterRegion k c.tid s).thread c.tid with wait := none, newRegion := true } ∧
        t.warps = (enterRegion k c.tid s).warps ∧ CoreIs s t w.coreId core ∧
        { t with threads := s.threads, groups := s.groups, warps := s.warps, cores := s.cores } = s)) ∧
      (e.state = .wait ∨ e.state = .placed → Answers (exec (.chitAwait g a) s) (fun t =>
        ThreadIs s t c.tid { s.thread c.tid with st := .blocked, wait := some (.chit x) } ∧
        { t with threads := s.threads, groups := s.groups } = s)) ∧
      (e.state = .broken → s.canTrap c.tid → Answers (exec (.chitAwait g a) s) (fun t =>
        ThreadIs s t c.tid (((enterRegion k c.tid s).thread c.tid).trapped ⟨8, recCause e.result, x, 2, some c.group.afterAddr⟩
          (s.warp w).tbase (s.thread c.tid).lr s.time) ∧
        { t with threads := s.threads, groups := s.groups, warps := s.warps } = s))) ∧
    (Solo (.chitFree g a) s k c → c.warp.inv < 255 → (w.die, x) ∉ s.chits.unacked → s.released k c.tid 5 = true →
      Answers (exec (.chitFree g a) s) (fun t =>
        ThreadIs s t c.tid { s.thread c.tid with newRegion := true } ∧
        (∃ m, t.chits = { s.chits with unacked := s.chits.unacked ++ [(w.die, x)], msgs := s.chits.msgs ++ [m] } ∧ m.nopc = 0x24 ∧
          m.dsock = chitSock x ∧ m.dmod = s.fab.nmod ∧ m.ssock = w.die ∧ m.chit = x ∧ m.warp = some w ∧ m.opId = s.fresh) ∧
        (t.warp w).ops = (s.warp w).ops ++ [⟨4, s.fresh, false⟩] ∧ (s.warp w).sameBut (t.warp w) ∧
        (t.warp w).tiles = (s.warp w).tiles ∧ (∀ y, y ≠ w → t.warp y = s.warp y) ∧
        { t with threads := s.threads, groups := s.groups, warps := s.warps, chits := s.chits, fresh := s.fresh } = s))

/-! ## The pool and the weigh monitors -/

/-- POOL SCR and POOL MXS with a request that the controller can answer at once give its code, 0 where the allocation is as asked, 1
beyond a limit, 2 for want of segments, 3 while a wring is under way, 4 for storage in use and 5 for a malformed request; one that changes
the map begins its wring, whose end gives the code, and a shrink of scratch takes effect at once. POOL SCR's codes: 5 for a size that is
no multiple of 8192, 1 for more than 28 segments, 0 for the size already held (R167, R168, R170, R171, R422). The model's choices here:
log 58, 60 and 152. -/
def Obligations.PoolResults : Prop :=
  (∀ (s : State) (k : GroupKey) (l0 : LaneCtx) (g : BitVec 4) (h : BitVec 1) (d a : BitVec 7) (v : BitVec 32),
      let core := l0.tid.warp.coreId
      let b := l0.warp.bslot
      ∀ p ∈ ([(.poolScr g h d a, false), (.poolMxs g h d a, true)] : List (Instr × Bool)),
      Once p.1 s k l0 → (∀ c ∈ activeLanes p.1 s, ∃ x n, c.word (fld a) 0 = .ok x ∧ c.dest (fld d) false = .ok n) →
      l0.word (fld a) 0 = .ok v →
      (∀ n, s.poolAnswer p.2 core b v.toNat = .code n →
        Answers (exec p.1 s) (fun t =>
          ResultsAfter p.1 s t (fld d) [(BitVec.ofNat 32 n, tagN32)] false ∧
          { t with threads := s.threads, groups := s.groups, returns := s.returns, fresh := s.fresh } = s)) ∧
      (∀ planned, s.poolAnswer p.2 core b v.toNat = .change planned none →
        Answers (exec p.1 s) (fun t =>
          LanesAfter p.1 s t (fun c th => th.awaits (c.physical (fld d) 1) (s.fresh + c.rank p.1 s)) (fun _ v => v) ∧
          (∃ rs, CoreIs s t core { s.core core with segs := markWrg (s.core core).segs planned, wring := some ⟨planned, some (l0.tid.warp, rs), none⟩ }) ∧
          WarpIs s t l0.tid.warp { s.warp l0.tid.warp with poolPending := true } ∧
          { t with threads := s.threads, groups := s.groups, cores := s.cores, warps := s.warps, fresh := s.fresh } = s)) ∧
      (∀ planned n, s.poolAnswer p.2 core b v.toNat = .change planned (some n) → s.scratchInFlight core b = false →
        Answers (exec p.1 s) (fun t =>
          LanesAfter p.1 s t (fun c th => th.awaits (c.physical (fld d) 1) (s.fresh + c.rank p.1 s)) (fun _ v => v) ∧
          (∃ rs, CoreIs s t core { s.core core with
            segs := markWrg (s.core core).segs planned, wring := some ⟨planned, some (l0.tid.warp, rs), none⟩
            bundles := put b { s.bundleAt core b with
              scrSegs := n, scr := (s.bundleAt core b).scr.filter (fun x => decide (x.1 < n * 8192)) } (s.core core).bundles }) ∧
          WarpIs s t l0.tid.warp { s.warp l0.tid.warp with poolPending := true } ∧
          { t with threads := s.threads, groups := s.groups, cores := s.cores, warps := s.warps, fresh := s.fresh } = s))) ∧
  (∀ (s : State) (c : CoreId) (b n : Nat),
      (n % 8192 ≠ 0 → s.poolScr c b n = .code 5) ∧
      (n % 8192 = 0 → n ≤ 2 ^ 31 → 28 < n / 8192 → s.poolScr c b n = .code 1) ∧
      (∀ m, m = (s.core c).segs.countP (fun g => decide (g.role = .scr) && g.own == some b) → n = 8192 * m →
        scrTotal (s.core c).segs ≤ 28 → (s.core c).wring = none → s.poolScr c b n = .code 0))

/-- WMON CFG binds a monitor of its block and gives 0, or gives 2 for a block out of range or not in the allocation, 3 for a name that is
bound, 1 where none is free; REL frees a bound monitor and gives 0, else 1; RDLO and RDHI give the halves of the bound monitor's TOTAL as
an S64 pair (R242, R244, R423). -/
def Obligations.MonitorResults : Prop :=
  ∀ (s : State) (k : GroupKey) (l0 : LaneCtx) (g : BitVec 4) (h : BitVec 1) (d a : BitVec 7) (v : BitVec 32),
    let w := l0.tid.warp
    let cl := s.cluster w.die w.coreId.cluster
    let off := 64 * (v.extractLsb' 6 26).toNat
    let blk := BitVec.ofNat 512 (s.scrRead w.coreId l0.warp.bslot off 64)
    let m := monitorOfBlock (s.bundle w) (v.toNat % 4) blk 0
    let out := v.extractLsb' 2 4 != 0 || decide (l0.bundle.scrSegs * 8192 < off + 64) || m.bad
    let unused := (List.range 4).find? (fun i => (lookup? i cl.monitors).isNone)
    l0.word (fld a) 0 = .ok v →
    (Once (.wmonCfg g h d a) s k l0 → (∀ c ∈ activeLanes (.wmonCfg g h d a) s, ∃ x n, c.word (fld a) 0 = .ok x ∧ c.dest (fld d) false = .ok n) →
      (∀ code, (code = 2 ∧ (out = true ∨ s.monitorSlot w m = none) ∨
          out = false ∧ (s.monitorSlot w m).isSome = true ∧ (code = 3 ∧ (s.monitorOf w (v.toNat % 4)).isSome = true ∨
            code = 1 ∧ s.monitorOf w (v.toNat % 4) = none ∧ unused = none)) →
        Answers (exec (.wmonCfg g h d a) s) (fun t =>
          ResultsAfter (.wmonCfg g h d a) s t (fld d) [(code, tagN32)] true ∧
          { t with threads := s.threads, groups := s.groups, returns := s.returns, fresh := s.fresh } = s)) ∧
      (∀ n j, out = false → s.monitorSlot w m = some n → s.monitorOf w (v.toNat % 4) = none → unused = some j →
        Answers (exec (.wmonCfg g h d a) s) (fun t =>
          ResultsAfter (.wmonCfg g h d a) s t (fld d) [(0, tagN32)] true ∧
          ClusterIs s t w.die w.coreId.cluster { cl with monitors := put j { m with slot := n } cl.monitors } ∧
          { t with threads := s.threads, groups := s.groups, clusters := s.clusters, returns := s.returns, fresh := s.fresh } = s))) ∧
    (Once (.wmonRel g h d a) s k l0 → (∀ c ∈ activeLanes (.wmonRel g h d a) s, ∃ x n, c.word (fld a) 0 = .ok x ∧ c.dest (fld d) false = .ok n) →
      v.toNat < 4 → ∀ r, s.monitorOf w v.toNat = r →
      Answers (exec (.wmonRel g h d a) s) (fun t =>
        ResultsAfter (.wmonRel g h d a) s t (fld d) [(if r.isSome then 0 else 1, tagN32)] true ∧
        ClusterIs s t w.die w.coreId.cluster (match r with | some q => { cl with monitors := drop q.1 cl.monitors } | none => cl) ∧
        { t with threads := s.threads, groups := s.groups, clusters := s.clusters, returns := s.returns, fresh := s.fresh } = s)) ∧
    (∀ p ∈ ([(.wmonRdlo g h d a, 0), (.wmonRdhi g h d a, 64)] : List (Instr × Nat)),
      Once p.1 s k l0 → (∀ c ∈ activeLanes p.1 s, ∃ x n, c.word (fld a) 0 = .ok x ∧ c.dest (fld d) true = .ok n) →
      v.toNat < 4 → ∀ q, s.monitorOf w v.toNat = some q →
      let total := BitVec.ofInt 128 q.2.total
      Answers (exec p.1 s) (fun t =>
        ResultsAfter p.1 s t (fld d) [(total.extractLsb' p.2 32, tagS64), (total.extractLsb' (p.2 + 32) 32, tagS64)] false ∧
        { t with threads := s.threads, groups := s.groups, returns := s.returns, fresh := s.fresh } = s))

/-! ## Special registers and the system functions -/

/-- MFS gives each active lane the special register it names: registers of 64 bits as an N64 pair, of 32 bits as N32 (R431). TIME gives
the device time as an N64 pair (R426). MTS writes LR and, in handler mode, XPC of each active lane's thread with its own value, and LGW,
GANG, FPS, FPC, CHK, TBASE and WDOG of the warp with that of the lowest active lane, where the value is one that the register takes; a
write of FPS comes after the flags of the matrix operations under way, which will raise none; TBASE and WDOG once set, and XPC, are
written in handler mode only, else class 00, subcode 0x13 (R247, R250, R285, R432). -/
def Obligations.SpecialRegisterResults : Prop :=
  ((∀ (s : State) (k : GroupKey) (g : BitVec 4) (n : BitVec 1) (d n2 : BitVec 7), s.cur = some k →
        let i := Instr.mfs g n d n2
        ∀ p ∈ ([
          (0, false, fun c => BitVec.ofNat 64 c.th.wb), (1, false, fun c => BitVec.setWidth 64 c.warp.lgw),
          (2, false, fun c => BitVec.setWidth 64 c.warp.gang), (3, false, fun c => BitVec.setWidth 64 c.warp.fps),
          (4, false, fun c => BitVec.setWidth 64 c.warp.fpc), (5, false, fun c => BitVec.setWidth 64 c.warp.chk),
          (6, true, fun c => c.th.repc), (7, false, fun c => BitVec.setWidth 64 c.th.recn), (8, true, fun c => c.th.lr),
          (9, true, fun c => c.warp.tbase), (0xA, true, fun _ => BitVec.ofNat 64 s.time),
          (0xB, true, fun c => poolOcc (s.core c.tid.warp.coreId).segs), (0xC, false, fun c => BitVec.ofNat 64 (s.poolBnd c.tid.warp)),
          (0xD, true, fun c => c.th.xpc), (0xE, false, fun c => BitVec.setWidth 64 ((if c.th.hm then 1#8 else 0#8) ++ c.th.xcs)),
          (0xF, true, fun c => c.th.tdb.addr), (0x10, false, fun c => BitVec.setWidth 64 c.th.tdb.recn),
          (0x11, false, fun c => BitVec.setWidth 64 c.warp.wdog), (0x12, false, fun c => BitVec.setWidth 64 c.th.lsp),
          (0x13, false, fun c => BitVec.setWidth 64 c.th.rsp),
          (0x14, true, fun c => BitVec.ofNat 64 (c.warp.cpy % 256 + 2 ^ 8 * (c.warp.gth % 256) + 2 ^ 16 * (c.warp.mtx % 256) +
            2 ^ 24 * (c.warp.rmt % 256) + 2 ^ 32 * (c.warp.inv % 256)))] : List (Nat × Bool × (LaneCtx → BitVec 64))),
        wellFormed i = true → guardsRead i s → (n ++ n2).toNat = p.1 →
        (∀ c ∈ activeLanes i s, (p.1 = 0 → c.wb = .ok c.th.wb) ∧
          ∃ m, c.dest (fld d) p.2.1 = .ok m) →
        Answers (exec i s) (fun t => AluAfter i s t
          (fun c => writesOf (fld d) ⟨p.2.2 c, if p.2.1 then tagN64 else tagN32⟩) (fun _ => 0))) ∧
    (∀ (s : State) (k : GroupKey) (g : BitVec 4) (h : BitVec 1) (d : BitVec 7), s.cur = some k →
        let i := Instr.time g h d
        wellFormed i = true → guardsRead i s → (∀ c ∈ activeLanes i s, ∃ m, c.dest (fld d) true = .ok m) →
        Answers (exec i s) (fun t => AluAfter i s t (fun _ => writesOf (fld d) ⟨BitVec.ofNat 64 s.time, tagN64⟩) (fun _ => 0)))) ∧
  (∀ (s : State) (k : GroupKey) (g : BitVec 4) (n : BitVec 1) (a n2 : BitVec 7),
      let i := Instr.mts g n a n2
      let r := (n ++ n2).toNat
      (∀ x : LaneCtx → BitVec 64, s.cur = some k → wellFormed i = true → guardsRead i s → r = 8 ∨ r = 0xD →
        (∀ c ∈ activeLanes i s, c.pairOf (fld a) 0 4 = .ok (x c) ∧ (r = 0xD → c.th.hm = true)) →
        Answers (exec i s) (fun t =>
          LanesAfter i s t (fun c th => if r = 8 then { th with lr := x c } else { th with xpc := x c }) (fun _ v => v) ∧
          { t with threads := s.threads, groups := s.groups } = s)) ∧
      (∀ (l0 : LaneCtx) (v : BitVec 32), Once i s k l0 → (∀ c ∈ activeLanes i s, ∃ x, c.word (fld a) 0 = .ok x) → l0.word (fld a) 0 = .ok v →
        ∀ p ∈ ([
          (1, decide (v.toNat ≤ 4), fun u => { u with lgw := v }),
          (2, decide (v.toNat < 64) && (v.extractLsb' 0 4 == 0 || v.getLsbD (l0.warp.wp % 4)), fun u => { u with gang := v }),
          (3, decide (v.toNat < 64), fun u => { u with fps := v }), (4, decide (v.toNat < 128), fun u => { u with fpc := v }),
          (5, decide (v.toNat < 2), fun u => { u with chk := v }),
          (0x11, l0.warp.wdog == 0 || l0.th.hm, fun u => { u with wdog := v })] : List (Nat × Bool × (Warp → Warp))),
        r = p.1 → p.2.1 = true →
        Answers (exec i s) (fun t =>
          LanesAfter i s t (fun _ th => th) (fun _ v => v) ∧ WarpIs s t l0.tid.warp (p.2.2 (s.warp l0.tid.warp)) ∧
          t.matrix = (if r = 3 then s.matrix.map (fun j => if j.warp = l0.tid.warp then { j with passed := true } else j) else s.matrix) ∧
          { t with groups := s.groups, warps := s.warps, matrix := s.matrix } = s)) ∧
      (∀ (l0 : LaneCtx) (v : BitVec 64), Once i s k l0 → (∀ c ∈ activeLanes i s, ∃ x, c.pairOf (fld a) 0 4 = .ok x) →
        l0.pairOf (fld a) 0 4 = .ok v → r = 9 → l0.warp.tbase = 0 ∨ l0.th.hm = true → v.extractLsb' 0 13 = 0 →
        Answers (exec i s) (fun t =>
          LanesAfter i s t (fun _ th => th) (fun _ v => v) ∧ WarpIs s t l0.tid.warp { s.warp l0.tid.warp with tbase := v } ∧
          { t with groups := s.groups, warps := s.warps } = s)) ∧
      (∀ (c : LaneCtx), Solo i s k c → r = 0xD → c.th.hm = false → (∃ x, c.pairOf (fld a) 0 4 = .ok x) → s.canTrap c.tid →
        Answers (exec i s) (fun t =>
          ThreadIs s t c.tid ((s.thread c.tid).trapped ⟨0, 0x13, c.group.hereAddr, 0, none⟩ (s.warp c.tid.warp).tbase (s.thread c.tid).lr s.time) ∧
          { t with threads := s.threads, groups := s.groups } = s)))

/-- REFQ gives 0 within its bank's refresh window, else the cycles to the next one, and all ones for an address outside the weight store;
LOCQ the place of an address's bytes; each of variable latency (R184, R427). MLOAD of an image that can be read loads its slot of the
core's control store for the bundle's grid, where the slot is its own or empty, and gives 0; a malformed header or image gives 2, a slot
of another grid 1 (R343, R344, R429). TSR OPEN and CLOSE open and close the warp's stamp record where the die keeps such records; each
begins a new region (R269, R424). The model's choices here: log 73, 74 and 146. -/
def Obligations.QueryAndLoadResults : Prop :=
  (∀ (s : State) (k : GroupKey) (c : LaneCtx) (g : BitVec 4) (h : BitVec 1) (d a : BitVec 7),
      (∀ va, Solo (.refq g h d a) s k c → c.pairOf (fld a) 0 4 = .ok va → (∃ n, c.dest (fld d) false = .ok n) →
        let start := 4400 * ((va.extractLsb' 0 52).toNat / 4096 % 16)
        let at' := s.time % 70400
        Answers (exec (.refq g h d a) s) (fun t =>
          ResultsAfter (.refq g h d a) s t (fld d) [(if va.extractLsb' 52 12 ≠ 0x12 ∨ 0x20000000 ≤ (va.extractLsb' 0 52).toNat then 0xFFFFFFFF
            else if start ≤ at' ∧ at' < start + 1760 then 0
            else BitVec.ofNat 32 (if at' < start then start - at' else start + 70400 - at'), tagN32)] false ∧
          { t with threads := s.threads, groups := s.groups, returns := s.returns, fresh := s.fresh } = s)) ∧
      (∀ va x, Solo (.locq g h d a) s k c → c.pairOf (fld a) 0 4 = .ok va → (∃ n, c.dest (fld d) false = .ok n) → s.locq c va = .ok x →
        Answers (exec (.locq g h d a) s) (fun t =>
          ResultsAfter (.locq g h d a) s t (fld d) [(x, tagN32)] false ∧
          { t with threads := s.threads, groups := s.groups, returns := s.returns, fresh := s.fresh } = s)) ∧
      (∀ va, Solo (.locq g h d a) s k c → c.pairOf (fld a) 0 4 = .ok va → (∃ n, c.dest (fld d) false = .ok n) →
        va.extractLsb' 52 12 = 0x10 →
        Answers (exec (.locq g h d a) s) (fun t =>
          ResultsAfter (.locq g h d a) s t (fld d)
            [(BitVec.ofNat 32 (c.tid.warp.die % 32 + 2 ^ 5 * (s.nmod % 256) + 2 ^ 13 * 3), tagN32)] false ∧
          { t with threads := s.threads, groups := s.groups, returns := s.returns, fresh := s.fresh } = s))) ∧
  ((∀ (s : State) (k : GroupKey) (l0 : LaneCtx) (g : BitVec 4) (h : BitVec 1) (d a : BitVec 7) (va : BitVec 64) (code : Nat)
      (x : Option (Nat × List Word)),
      let w := l0.tid.warp
      let i := Instr.mload g h d a
      Once i s k l0 → (∀ c ∈ activeLanes i s, ∃ y n, c.pairOf (fld a) 0 4 = .ok y ∧ c.dest (fld d) false = .ok n) →
      l0.pairOf (fld a) 0 4 = .ok va → s.mloadOut w va = .ok (code, x) →
      Answers (exec i s) (fun t =>
        ResultsAfter i s t (fld d) [(BitVec.ofNat 32 code, tagN32)] false ∧ WarpIs s t w { s.warp w with got := [] } ∧
        CoreIs s t w.coreId (match x with
          | some q => { s.core w.coreId with micro := put q.1 ⟨(s.bundle w).grid, va, q.2⟩ (s.core w.coreId).micro }
          | none => s.core w.coreId) ∧
        { t with threads := s.threads, groups := s.groups, warps := s.warps, cores := s.cores, returns := s.returns, fresh := s.fresh } = s)) ∧
    (∀ (s : State) (k : GroupKey) (l0 : LaneCtx) (g : BitVec 4) (h : BitVec 1) (a : BitVec 7) (v : BitVec 32),
      let w := l0.tid.warp
      let on := (s.die w.die).obs.tsen
      ∀ p ∈ ([
        (.tsrOpen g h a, match (s.warp w).tsr with
          | some _ => s.warp w
          | none => { s.warp w with tsr := some { tag := v, t0 := s.time, t1 := none, t3 := s.time, owt := 0, ops := [] } }),
        (.tsrClose g h a, match (s.warp w).tsr with
          | some r => { s.warp w with tsr := none, stamps := (s.warp w).stamps ++
              [{ r with ops := ((s.warp w).ops.filter (fun o => decide (o.cls ≤ 2))).map (fun o => o.id) }] }
          | none => s.warp w)] : List (Instr × Warp)),
      Once p.1 s k l0 → (∀ c ∈ activeLanes p.1 s, ∃ y, c.word (fld a) 0 = .ok y) → l0.word (fld a) 0 = .ok v →
      Answers (exec p.1 s) (fun t =>
        LanesAfter p.1 s t (fun _ th => { th with newRegion := true }) (fun _ v => v) ∧
        WarpIs s t w (if on then p.2 else s.warp w) ∧ { t with threads := s.threads, groups := s.groups, warps := s.warps } = s)))

/-- EXIT and BREAK of one lane whose warp has nothing outstanding and another thread that has not exited: the thread is EXITED at a safe
point and out of handler mode, the ordinal of its trailer in LSP and RSP 0; BREAK's code is recorded where it is the grid's first (R139,
R257, R258, R426, R430). RESUME returns from a trap: handler mode off and the run continues at XPC, the region entered again where that is
REPC; FAIL makes the recorded trap its grid's first fatal cause and halts the thread; outside handler mode either is class 00, subcode
0x13 (R251, R263). The model's choices here: log 47 and 75. -/
def Obligations.ExitAndReturnResults : Prop :=
  (∀ (s : State) (k : GroupKey) (c : LaneCtx) (g : BitVec 4) (h : BitVec 1) (a : BitVec 7) (x : BitVec 32) (gid : Nat) (gr : Grid),
      let w := c.tid.warp
      ∀ p ∈ ([(.exit g h, false), (.brk g h a, true)] : List (Instr × Bool)),
      Solo p.1 s k c → c.warp.exitWaits = false → c.warp.faults = [] → (p.2 = true → c.word (fld a) 0 = .ok x) →
      (∃ l, l < 32 ∧ l ≠ c.lane ∧ (s.thread ⟨w, l⟩).st ≠ .exited) → w ∈ s.warpsOf w.coreId (s.warp w).bslot →
      (s.core w.coreId).bars = [] → (s.cluster w.die w.coreId.cluster).bars = [] → (s.die w.die).bars = [] → s.devBars = [] →
      gid = (s.bundle w).grid → s.grid? gid = some gr →
      Answers (exec p.1 s) (fun t =>
        ThreadIs s t c.tid { s.thread c.tid with
          st := .exited, wait := none, hm := false, rsp := 0, atSafe := true, stopped := false
          stopMark := (match c.th.stopMark with | .returning => .standing | .standing => .clear | m => m)
          safeAt := (if c.th.hm then 0 else s.time)
          lsp := ordinalOf (recCode (s.recordOf c.bundle)).toNat (c.group.addr + BitVec.ofNat 64 (4 * c.group.words.length)).toNat
            (c.group.trailerA.extractLsb' 12 7).toNat } ∧
        t.grid? gid = some (if p.2 then { gr with brk := match gr.brk with | none => some x | some y => some y } else gr) ∧
        (∀ j, j ≠ gid → t.grid? j = s.grid? j) ∧
        { t with threads := s.threads, groups := s.groups, grids := s.grids } = s)) ∧
  (∀ (s : State) (k : GroupKey) (c : LaneCtx) (g : BitVec 4) (h : BitVec 1) (gr : Grid),
      let th := s.thread c.tid
      (Solo (.resume g h) s k c → th.hm = true →
        Answers (exec (.resume g h) s) (fun t =>
          LanesAfter (.resume g h) s t
            (fun _ th => { th with
              hm := false, pc := th.xpc, reenter := decide (th.xpc = th.repc), safeAt := s.time - th.safeAt
              stopMark := match th.stopMark with
                | .handling p => if th.xpc = p then .returning else .clear
                | m => m })
            (fun _ v => { v with targets := put c.lane th.xpc v.targets }) ∧
          { t with threads := s.threads, groups := s.groups } = s)) ∧
      (Solo (.fail g h) s k c → th.hm = true → s.grid? (s.bundle c.tid.warp).grid = some gr → gr.fatal = none →
        Answers (exec (.fail g h) s) (fun t =>
          ThreadIs s t c.tid { th with st := .halted, wait := none } ∧
          (∃ f, t.grid? (s.bundle c.tid.warp).grid = some { gr with fatal := some f } ∧
            f.trap.cls = (th.xcs.extractLsb' 0 8).toNat ∧ f.trap.sub = (th.xcs.extractLsb' 8 8).toNat ∧ f.trap.addr = th.tdb.addr ∧
            f.time = s.time ∧ f.die = c.tid.warp.die ∧ f.bn = (s.bundle c.tid.warp).bn ∧ f.lane = c.tid.lane ∧ f.lsp = th.lsp ∧
            f.rsp = th.rsp ∧ f.recn = th.tdb.recn ∧ f.dbl = false ∧ f.second = 0) ∧
          (∀ j, j ≠ (s.bundle c.tid.warp).grid → t.grid? j = s.grid? j) ∧
          { t with threads := s.threads, groups := s.groups, grids := s.grids } = s)) ∧
      (∀ i ∈ [Instr.resume g h, Instr.fail g h], Solo i s k c → th.hm = false → s.canTrap c.tid →
        Answers (exec i s) (fun t =>
          ThreadIs s t c.tid (th.trapped ⟨0, 0x13, c.group.hereAddr, 0, none⟩ (s.warp c.tid.warp).tbase th.lr s.time) ∧
          { t with threads := s.threads, groups := s.groups } = s)))

/-! ## Bring-up, power and cooling -/

/-- COLD_RESET and a warm RSTCTL put the module as right after power-on, in phase POWER with TIME 0, or in ROM with its rails and TIME
kept; the flash, its counter and the stored owner key, now in force, outlive both; a warm one that comes with a cold one counts with it.
Each phase of bring-up ends in the next, or in RECOVERY with its error code: POWER 0x01 and 0x02, ROM 0x10, CONFIG with the code of the
blob's check or 0x01 for a rail that does not reach its set-point, LINKS 0x30, MEMORY 0x40, MANAGERS 0x50, each of the last three with the
socket, and 0x60 for a bound that has passed (R12, R21, R27 to R30, R32, R108, R122). The model's choices here: log 5, 6, 100 and 101. -/
def Obligations.BringUpSteps : Prop :=
  ∀ s : State,
    exec .coldReset s = .next (s.resetFrom 0 .power true []) ∧
    (∀ v : BitVec 32, s.boot.faultOff = false → v.extractLsb' 0 17 = 0x15E7A →
      exec (.rstctlWarm v) s = .next (if s.boot.cold = true ∧ s.boot.phase = .power ∧ s.time = s.boot.since then s
        else s.resetFrom s.time .rom false s.boot.rails)) ∧
    (∀ v : BitVec 32, v.extractLsb' 0 17 ≠ 0x15E7A → exec (.rstctlWarm v) s = .next s) ∧
    (∀ sock, s.bringingUp .power 20000 →
      Answers (exec (.powerPhaseDone 0 sock) s) (fun t =>
        s.phaseIs t .rom { s.boot with rails := defaultRails } ∧ { t with boot := s.boot } = s)) ∧
    (∀ sock, ∀ e ∈ ([1, 2] : List (BitVec 8)), s.bringingUp .power 20000 →
      Answers (exec (.powerPhaseDone e sock) s) (fun t => s.stopped t e none)) ∧
    (s.bringingUp .rom 10000 →
      Answers (exec (.romPhaseDone true) s) (fun t =>
        s.phaseIs t .config { s.boot with idok := true } ∧ t.mrOf 0 =
          Config.sha3 (bytesOfNat 32 (s.mrOf 0).toNat ++ bytesOfNat 32 Config.romDigest.toNat) ∧
        { t with boot := s.boot, mgmt := s.mgmt } = s) ∧
      Answers (exec (.romPhaseDone false) s) (fun t => s.stopped t 0x10 none)) ∧
    (s.bringingUp .config 50000 →
      Answers (exec .configPhaseDone s) (fun t =>
        match checkBlob s.boot.flash s.boot.owner s.boot.flashCounter with
        | .error e => s.stopped t e none
        | .ok _ =>
          (if s.boot.railBad then t.boot.phase = .recovery ∧ t.boot.err = 1 ∧ t.boot.sockv = false else t.boot.phase = .links) ∧ t.boot.since = s.time ∧ t.boot.cfgok = true ∧ t.boot.svn = BitVec.ofNat 32 (readNum 12 4 s.boot.flash) ∧
          { t with boot := s.boot, mgmt := s.mgmt } = s)) ∧
    (s.bringingUp .links 30000 →
      Answers (exec (.linksPhaseDone none) s) (fun t => s.phaseIs t .memory s.boot ∧ { t with boot := s.boot } = s) ∧
      ∀ k, Answers (exec (.linksPhaseDone (some k)) s) (fun t => s.stopped t 0x30 (some k))) ∧
    (s.bringingUp .memory 400000 →
      Answers (exec (.memoryPhaseDone none) s) (fun t =>
        s.phaseIs t .managers s.boot ∧ t.mem = [] ∧ t.weights = [] ∧ t.shadow = [] ∧ t.coh = Coherence.reset ∧
        { t with boot := s.boot, mem := s.mem, weights := s.weights, shadow := s.shadow, coh := s.coh } = s) ∧
      ∀ k, Answers (exec (.memoryPhaseDone (some k)) s) (fun t => s.stopped t 0x40 (some k))) ∧
    (s.bringingUp .managers 500000 →
      Answers (exec .managersPhaseDone s) (fun t =>
        match imageKeys.find? (fun k => !s.boot.imageGood k) with
        | some k => s.stopped t 0x50 (some (if k.1 = 1 then k.2 else if k.2 < 8 then 20 else 21))
        | none =>
          s.phaseIs t .ready { s.boot with flashCounter := (if s.boot.flashCounter.toNat < s.boot.svn.toNat then s.boot.svn else s.boot.flashCounter) } ∧
          { t with boot := s.boot, mgmt := s.mgmt } = s)) ∧
    (∀ late, ∀ p ∈ ([(.power, 20000), (.rom, 10000), (.config, 50000), (.links, 30000), (.memory, 400000), (.managers, 500000)] :
        List (Phase × Nat)),
      s.boot.phase = p.1 → s.boot.faultOff = false → s.boot.since + p.2 * microsecond < s.time →
      Answers (exec (.phaseBoundExpiry late) s) (fun t => s.stopped t 0x60 late))

/-- RCVCTL.GO submits the staged blob in RECOVERY where no submission is being checked; the check writes a sound blob to the flash and
starts a warm reset, and leaves the code of one that fails in RES. I/O die 20 answers configuration requests once its link is up, I/O die
21 from READY on; a link trains as CXL where the port's MODE allows (R25, R30, R33). An input below 40 V for more than 1 ms, and a sensor
at the limit of 110 degrees, put the module in fault-off, with what its compute and memory dies held lost; a core over its limits loses
1/8 of its partitions' duty, down to 1/8, and gains 1/8 back 100 µs after the last change once the cause has cleared (R15 to R17, R23).
WREQ of a die's weight store is set and cleared, and a fill with ACT at 1 puts the bytes of device memory into the store, with ACT at 0
changes no byte (R182, R183). The model's choices here: log 5, 6, 102, 103, 104, 132 and 133. -/
def Obligations.RecoveryAndPowerSteps : Prop :=
  (∀ s : State, s.boot.faultOff = false →
      (∀ v : BitVec 32, v.getLsbD 0 = true → s.boot.phase = .recovery → s.boot.busy = false →
        exec (.rcvctlGo v) s = .next { s with boot := { s.boot with busy := true } }) ∧
      (s.boot.phase = .recovery → s.boot.busy = true →
        Answers (exec .recoveryCheckDone s) (fun t =>
          match checkBlob s.boot.staging s.boot.owner s.boot.flashCounter with
          | .error e => t = { s with boot := { s.boot with busy := false, res := e } }
          | .ok _ =>
            t.boot.flash = writeCells 0 (blobBytes s.boot.staging) s.boot.flash ∧ t.boot.flashCounter = s.boot.flashCounter ∧
            (s.boot.err ≠ 0x10 → t.boot.phase = .rom ∧ t.threads = [] ∧ t.mem = []) ∧
            (s.boot.err = 0x10 → t.boot.phase = .recovery ∧ t.boot.res = 1))) ∧
      (∀ iod cxl, iod = 20 ∨ iod = 21 →
        (lookup? iod s.boot.linkUp = none →
          exec (.pcieLinkUp iod cxl) s =
            .next { s with boot := { s.boot with linkUp := put iod (cxl && (s.boot.portEntry iod).getLsbD 0) s.boot.linkUp } }) ∧
        ((lookup? iod s.boot.linkUp).isSome = true →
          exec (.pcieConfigRequest iod) s =
            .next { s with boot := { s.boot with answer := some (iod, decide (iod = 20) || decide (s.boot.phase = .ready)) } }))) ∧
  (∀ s : State,
      (s.boot.faultOff = false →
        (Answers (exec .undervoltTimeout s) (fun t =>
          t.boot = { s.boot with faultOff := true, rails := s.boot.rails.filter (fun r => decide (20 ≤ r.1.1)) } ∧ t.mem = [] ∧
          t.threads = [] ∧ t.warps = [] ∧ t.cores = [] ∧ t.dies = [] ∧ t.weights = [] ∧ t.mgmt = s.mgmt ∧ t.fab = s.fab ∧
          t.net.xerr = s.net.xerr ∧ t.disp = s.disp.filter (fun p => decide (8 ≤ p.1)) ∧
          t.grids = s.grids.filter (fun p => decide (8 ≤ p.2.disp)) ∧ t.time = s.time)) ∧
        (∀ die (read : SensorReading) watts weights, die < 22 → (∃ x ∈ read.temps, s.boot.toff ≤ x) →
          Answers (exec (.sensorSample die read watts weights) s) (fun t => t.boot.faultOff = true ∧ t.mem = [] ∧ t.threads = [])) ∧
        (∀ die (read : SensorReading) watts weights, 8 ≤ die → die < 22 → (∀ x ∈ read.temps, x < s.boot.toff) →
          exec (.sensorSample die read watts weights) s =
            .next { s with boot := { s.boot with
              temps := put die read.temps s.boot.temps, droops := put die read.droops s.boot.droops, watts := watts } }) ∧
        (∀ die (read : SensorReading) watts weights, die < 8 → (∀ x ∈ read.temps, x < s.boot.toff ∧ x ≤ s.boot.tthr) → watts ≤ s.boot.plim.toNat →
          Answers (exec (.sensorSample die read watts weights) s) (fun t =>
            DispIs s t die { s.dispatcher die with weights := weights } ∧
            t.boot = { s.boot with temps := put die read.temps s.boot.temps, droops := put die read.droops s.boot.droops, watts := watts
                                   hot := s.boot.hot.filter (fun d => decide (d ≠ die)) } ∧
            { t with boot := s.boot, disp := s.disp } = s)) ∧
        (∀ die (read : SensorReading) watts weights, die < 8 → (∀ x ∈ read.temps, x < s.boot.toff) → s.boot.hot.contains die = true →
          Answers (exec (.sensorSample die read watts weights) s) (fun t =>
            ∀ c p, c < 192 → p < 4 → t.dutyOf ⟨die, c⟩ p =
              if s.boot.plim.toNat < watts ∨ s.boot.tthr < nth 0 read.temps (c / 4) then Nat.max 1 (s.dutyOf ⟨die, c⟩ p - 1)
              else s.dutyOf ⟨die, c⟩ p))) ∧
      (∀ die c, die < 8 → lookupD ⟨die, c⟩ 0 s.boot.dutyAt + 100 * microsecond ≤ s.time → c < 192 →
        (∃ p, p < 4 ∧ s.dutyOf ⟨die, c⟩ p < 8) → s.boot.watts ≤ s.boot.plim.toNat → nth 0 (lookupD die [] s.boot.temps) (c / 4) ≤ s.boot.tthr →
        Answers (exec (.dutyRestoreStep die) s) (fun t =>
          (∀ p, p < 4 → t.dutyOf ⟨die, c⟩ p = Nat.min 8 (s.dutyOf ⟨die, c⟩ p + 1)) ∧ lookupD ⟨die, c⟩ 0 t.boot.dutyAt = s.time)) ∧
      (∀ die, die < 8 →
        (∀ p ∈ ([(.wsctlWreqSet die, true), (.wsctlWreqClear die, false)] : List (Instr × Bool)),
          Answers (exec p.1 s) (fun t => DieIs s t die { s.die die with wreq := p.2 } ∧ { t with dies := s.dies } = s)) ∧
        ∀ off pa len, off + len ≤ 0x20000000 →
          (∀ bs, s.weightAct die = true → s.copyFrom die (len / 64 + 2) pa len = .ok bs →
            exec (.weightStoreFill die off pa len) s = .next { s with weights := writeCells (weightKey die off) bs s.weights }) ∧
          (s.weightAct die = false →
            Answers (exec (.weightStoreFill die off pa len) s) (fun t => t.weights = s.weights ∧ { t with mgmt := s.mgmt } = s))))

/-! ## Links and routers -/

/-- A link receiver accepts an item whose tag and LSEQ are right and passes it on, discards one whose tag fails with an LNAK and a count
in CRCE, and discards one out of order; LACK names the last item accepted, and frees the sender's replay buffer up to it; LNAK, and 1,024
TCLK cycles or flit times without progress, make the sender replay (R37, R41 to R43, R74). A link that retrains within 100 µs sends
everything unacknowledged again; one that does not is down in both directions, its items lost, and the home of each token-carrying packet
is told by LOST with CAUSE 2. A router discards a packet that breaks R38 where it enters, with a count in DISC, hands one that has arrived
to its die, and sends any other on over a link of its route, on the escape sub-channel where no link of a minimal path has credit (R9,
R39, R40, R42, R43). The model's choices here: log 5, 6, 61, 62, 98 and 125. -/
def Obligations.LinkSteps : Prop :=
  (∀ s : State,
      (∀ (w : WireItem) (rest : List WireItem) (p : Packet), s.net.wire = w :: rest → w.item = .packet p → w.crc = w.item.crc →
        linkTo w.link < 22 → s.linkUp w.link →
        let l := s.link w.link
        let kept : Link := { l with lackAt := if l.lackDue then l.lackAt else s.time, lackDue := true }
        (w.seq = l.expect → Answers (exec (.linkPacketReceive 0 0) s) (fun t =>
          LinkIs s t w.link { kept with expect := (l.expect + 1) % 4096 } ∧ t.net.routers = s.net.routers ++ [⟨linkTo w.link, some w.link, l.esc.contains w.seq, p⟩] ∧
          t.net.wire = rest ∧ t.net.msgs = s.net.msgs ∧ t.net.inbox = s.net.inbox ∧ t.net.xerr = s.net.xerr ∧ { t with net := s.net } = s)) ∧
        (w.seq ≠ l.expect → Answers (exec (.linkPacketReceive 0 0) s) (fun t =>
          LinkIs s t w.link kept ∧ t.net.wire = rest ∧ { t.net with links := s.net.links, wire := s.net.wire } = s.net ∧
          { t with net := s.net } = s)) ∧
        (∀ flip : BitVec 32, flip ≠ 0 → Answers (exec (.linkPacketReceive 0 flip) s) (fun t =>
          t.net.msgs = s.net.msgs ++ [⟨w.link, true, w.seq⟩] ∧ t.net.wire = rest ∧
          (receiverOf w.link < 22 → (t.xerrOf (receiverOf w.link)).crce.toNat = Nat.min 4095 ((s.xerrOf (receiverOf w.link)).crce.toNat + 1)) ∧
          { t.net with wire := s.net.wire, msgs := s.net.msgs, xerr := s.net.xerr } = s.net ∧ { t with net := s.net } = s))) ∧
      (∀ l, (s.link l).lackDue = true →
        Answers (exec (.lackTimer l) s) (fun t =>
          LinkIs s t l { s.link l with lackDue := false, lackAt := s.time } ∧
          t.net.msgs = s.net.msgs ++ [⟨l, false, ((s.link l).expect + 4095) % 4096⟩] ∧
          { t.net with links := s.net.links, msgs := s.net.msgs } = s.net ∧ { t with net := s.net } = s)) ∧
      (∀ (m : LinkMsg) (rest : List LinkMsg), s.net.msgs = m :: rest → s.pick = 0 → s.linkUp m.link →
        (∀ (x : Payload) (pre post : List (Nat × Payload)), m.nak = false → (s.link m.link).replay = pre ++ (m.seq, x) :: post →
          (∀ e ∈ pre, e.1 ≠ m.seq) →
          Answers (exec .lack s) (fun t =>
            LinkIs s t m.link { s.link m.link with
              replay := post, rounds := 0, progressAt := s.time
              esc := (s.link m.link).esc.filter (fun q => post.any (fun e => decide (e.1 = q))) } ∧ t.net.msgs = rest ∧
            t.net.wire = s.net.wire ++ ((post.take (replayRoom m.link)).drop (replayRoom m.link - (pre.length + 1))).map
              (fun e => ⟨m.link, e.1, e.2, e.2.crc⟩) ∧
            { t.net with links := s.net.links, msgs := s.net.msgs, wire := s.net.wire } = s.net ∧ { t with net := s.net } = s)) ∧
        (m.nak = true → (s.link m.link).replay ≠ [] →
          Answers (exec .lnak s) (fun t => s.replayed t m.link ∧ t.net.msgs = rest ∧ { t with net := s.net } = s))) ∧
      (∀ l, s.linkUp l → (s.link l).replay ≠ [] → (s.link l).progressAt + (if 4096 ≤ l then 181 else 512) ≤ s.time →
        Answers (exec (.replayTimeout l) s) (fun t => s.replayed t l ∧ t.net.msgs = s.net.msgs ∧ { t with net := s.net } = s))) ∧
  (∀ s : State,
      (∀ l at', (s.link l).retrainAt = some at' → (s.link l).down = false → s.time < at' + 100 * microsecond →
        Answers (exec (.linkRetrained l) s) (fun t =>
          LinkIs s t l { s.link l with retrainAt := none, rounds := 0, progressAt := s.time } ∧
          t.net.wire = s.net.wire ++ s.unacknowledged l ∧
          { t.net with links := s.net.links, wire := s.net.wire } = s.net ∧ { t with net := s.net } = s)) ∧
      (∀ a b at', a < 22 → b < 22 → (s.link (linkId a b)).retrainAt = some at' → at' + 100 * microsecond ≤ s.time →
        Answers (exec (.retrainTimeout (linkId a b)) s) (fun t =>
          (∀ l ∈ [linkId a b, linkId b a], (t.link l).down = true ∧ (t.link l).replay = [] ∧ ∀ w ∈ t.net.wire, w.link ≠ l) ∧
          (∀ l, l ≠ linkId a b → l ≠ linkId b a → t.link l = s.link l) ∧
          (∀ n p, (n, .packet p) ∈ (s.link (linkId a b)).replay → p.carriesTokens = true → 0 < p.tok →
            ∃ m ∈ t.net.routers, m.router = a ∧ m.packet.opc = 0x33 ∧ m.packet.sector = p.sector ∧ m.packet.ser = p.ser ∧
              m.packet.cause = 2) ∧
          { t with net := s.net } = s)) ∧
      (∀ k next b, nth? s.net.routers k = some b →
        let r := b.router
        let p := b.packet
        (r = p.src → p.wellFormed = false → r < 22 →
          Answers (exec (.routerForward k next) s) (fun t =>
            t.net.routers = removeNth s.net.routers k ∧ (t.xerrOf r).disc.toNat = Nat.min 127 ((s.xerrOf r).disc.toNat + 1) ∧
            { t with net := s.net } = s)) ∧
        (∀ n esc, r ≠ p.src ∨ p.wellFormed = true → p.dst = r ∧ n = 22 + r ∧ esc = false ∨ p.dst ≠ r ∧ n = next ∧ (next, esc) ∈ s.hops r p →
          let l := s.link (linkId r n)
          l.down = false → l.retrainAt = none → l.replay.length < replayRoom (linkId r n) →
          Answers (exec (.routerForward k next) s) (fun t =>
            t.net.routers = removeNth s.net.routers k ∧
            LinkIs s t (linkId r n) { l with
              nextSeq := (l.nextSeq + 1) % 4096, replay := l.replay ++ [(l.nextSeq, .packet p)]
              progressAt := if l.replay.isEmpty then s.time else l.progressAt
              esc := if esc then l.esc ++ [l.nextSeq] else l.esc } ∧
            t.net.wire = s.net.wire ++ [⟨linkId r n, l.nextSeq, .packet p, (Payload.packet p).crc⟩] ∧
            { t.net with links := s.net.links, wire := s.net.wire, routers := s.net.routers } = s.net ∧ { t with net := s.net } = s))))

/-! ## Coherence -/

/-- DIE_CACHE_ACCESS performs a write-back on a line that holds all 16 tokens, and issues a miss for a sector that holds none. GETS at a
site takes one token with the owner's data, and the owner token only where it is the last, which waits for a copy that the host shares; at
the home likewise; GETX takes every token a site or the home holds; a home that has lost the sector answers DLOSS; each answer names the
request's requester and echoes its TXN (R35, R46, R50, R53 to R55, R64, R103). TOKD and TOKN: the home adds tokens of its own serial,
writing dirty data to DRAM, and discards others; a site adds tokens to the line of a miss, passes them on to an active requester, sends
home what it has no use for, and discards a serial that is not its line's or its mend note's. DLOSS ends the accesses that wait for the
sector. A miss is broadcast again after a microsecond, with its PREQ where it has raised one that is not active yet, and raises a
persistent request after its second broadcast; a hold-off that ends serves the requests it held back in arrival order (R42, R51 to R56,
R59, R60, R63, R64). The model's choices here: log 5, 6, 30, 134, 142 and 143. -/
def Obligations.TokenSteps : Prop :=
  ((∀ (s : State) (a : Access), nth? s.coh.accesses s.pick = some a → a.pa < farBase → s.localOut = false →
      (∀ x ∈ s.coh.accesses.take s.pick, ¬ (x.site = a.site ∧ sectorOf x.pa = sectorOf a.pa)) →
      let sec := sectorOf a.pa
      let l := s.line a.site sec
      s.activeAt a.site sec = none → s.mendNote a.site sec = none → s.snooping a.site sec = false →
      let c := s.pinLimit a.site sec a.cls
      (∀ core ts, a.who = .writeBack core ts → a.kind = .write → l.tok = 16 → l.dv = true → l.hs = .i →
        Answers (exec .dieCacheAccess s) (fun t =>
          t.line a.site sec = { l with
            data := BitVec.ofNat 512 (mergeBytes 64 (a.wmask.toNat * 2 ^ (a.pa % 64)) (a.wdata.toNat * 256 ^ (a.pa % 64)) l.data.toNat)
            dirty := true, used := s.time, filled := false
            consumed := l.consumed || (!l.filled && c == 1 && l.cls == 1)
            cls := if l.filled = false ∧ l.cls.toNat < c.toNat then c else l.cls } ∧
          (∀ y, sibling a.site sec = some y → (s.line a.site y).isBlank = false →
            { t.line a.site y with
              cls := (s.line a.site y).cls, consumed := (s.line a.site y).consumed, used := (s.line a.site y).used } = s.line a.site y) ∧
          (∀ site x, site ≠ a.site ∨ x ≠ sec ∧ sibling a.site sec ≠ some x → t.line site x = s.line site x) ∧
          t.coh.accesses = removeNth s.coh.accesses s.pick ∧ t.service = (s.breakResv sec).service ∧
          { t.coh with accesses := s.coh.accesses, lines := s.coh.lines } = s.coh ∧ { t with coh := s.coh, service := s.service } = s)) ∧
      (l.tok = 0 → l.rep = false → s.missOf a.site sec = none → s.missCount a.site < 512 → s.hasWay a.site sec = true →
        Answers (exec .dieCacheAccess s) (fun t =>
          t.missOf a.site sec = some {
            sector := sec, write := a.needsAll, txn := s.coh.nextTxn, attempt := 0, first := s.time, last := s.time, raised := false
            rmod := s.fab.nmod, replica := a.rep && a.reads, covered := false, sent := 0 } ∧
          t.coh.accesses = s.coh.accesses ∧ t.coh.lines = s.coh.lines ∧ { t with coh := s.coh, net := s.net } = s))) ∧
    (∀ (s : State) (d : Nat) (p : Packet), nth? s.net.inbox s.pick = some (d, p) →
      let sec := p.sec
      let l := s.line d sec
      let h := s.homeEntry sec
      let u := s.takeArrived
      let give (tok : Nat) (own dirty : Bool) (data : Option (BitVec 512)) : Packet := s.tokens d p.src sec tok own dirty l.ser data
      let giveHome (tok : Nat) (own : Bool) (data : Option (BitVec 512)) : Packet := s.tokens (homeSock sec) p.src sec tok own false h.ser data
      (Machine.isSite d = true → s.keepsTokens d sec = false → lookup? (d, sec) s.coh.holdoff = none →
        (p.opc = 1 → l.own = false → exec .gets s = .next u) ∧
        (p.opc = 1 → l.own = true → l.hs ≠ .e →
          (2 ≤ l.tok → exec .gets s = .next ((u.setLine d sec { l with tok := l.tok - 1 }).send
            ((give 1 false false (some l.data)).answering p))) ∧
          (l.tok = 1 → l.hs = .i → exec .gets s = .next ((u.setLine d sec Line.reset).send
            ((give 1 true l.dirty (some l.data)).answering p))) ∧
          (l.tok = 1 → l.hs = .s → s.snooping d sec = false → exec .gets s = .next (u.snoopHost d sec true (some p)))) ∧
        (p.opc = 2 → l.tok ≠ 0 → l.hs = .i →
          exec .getx s = .next ((u.setLine d sec Line.reset).send
            ((give l.tok l.own (l.own && l.dirty) (if l.own then some l.data else none)).answering p)))) ∧
      (Machine.isSite d = true → s.keepsTokens d sec = true → ∀ q ∈ ([(.gets, 1), (.getx, 2)] : List (Instr × BitVec 8)), p.opc = q.2 →
        exec q.1 s = .next u) ∧
      (Machine.isSite d = false → h.lostb = false → s.homeYields sec p.src = false →
        (p.opc = 1 → h.hown = true →
          (2 ≤ h.htok → exec .gets s = .next ((u.setHome sec { h with htok := h.htok - 1 }).send
            ((giveHome 1 false (some (s.dram sec))).answering p))) ∧
          (h.htok = 1 → exec .gets s = .next ((u.setHome sec { h with htok := 0, hown := false }).send
            ((giveHome 1 true (some (s.dram sec))).answering p)))) ∧
        (p.opc = 2 → h.htok ≠ 0 →
          exec .getx s = .next ((u.setHome sec { h with htok := 0, hown := false }).send
            ((giveHome h.htok h.hown (if h.hown then some (s.dram sec) else none)).answering p)))) ∧
      (Machine.isSite d = false → h.lostb = true → ∀ q ∈ ([(.gets, 1), (.getx, 2)] : List (Instr × BitVec 8)), p.opc = q.2 →
        exec q.1 s = .next (u.send ({ s.cohPacket 0x14 (homeSock sec) p.src sec with cause := 1 }.answering p))))) ∧
  ((∀ (s : State) (d : Nat) (p : Packet), nth? s.net.inbox s.pick = some (d, p) →
      let sec := p.sec
      let l := s.line d sec
      let h := s.homeEntry sec
      let u := s.takeArrived
      ∀ q ∈ ([(.tokd, 0x10), (.tokn, 0x11)] : List (Instr × BitVec 8)), p.opc = q.2 →
      (Machine.isSite d = false →
        (p.ser ≠ h.ser → exec q.1 s = .next u) ∧
        (p.ser = h.ser → s.mendOf sec = none → s.activeHome sec = none →
          exec q.1 s = .next ({ u with mem := if p.own && p.dirty then writeNum (sec * 64) 64 p.sectorData.toNat s.mem else s.mem }.setHome sec
            { h with htok := h.htok + p.tok, hown := h.hown || p.own }))) ∧
      (∀ v, Machine.isSite d = true → s.mendNote d sec = some v → p.ser ≠ v → exec q.1 s = .next u) ∧
      (Machine.isSite d = true → s.mendNote d sec = none →
        (l.tok ≠ 0 → p.ser ≠ l.ser → exec q.1 s = .next u) ∧
        (∀ a, l.tok = 0 → s.activeAt d sec = some a →
          exec q.1 s = .next (u.send { p with src := d, dst := a.rsock, rsock := a.rsock, rmod := a.rmod, txn := 0 })) ∧
        (l.tok = 0 → s.activeAt d sec = none → s.missOf d sec = none → s.requesterAt d sec = false →
          exec q.1 s = .next (u.send { p with src := d, dst := homeSock sec })) ∧
        (l.tok ≠ 0 → p.ser = l.ser → s.activeAt d sec = none → s.firstAccess d sec = none →
          Answers (exec q.1 s) (fun t =>
            t.line d sec = { l with
              tok := l.tok + p.tok, own := l.own || p.own, dirty := if p.own then p.dirty else l.dirty, dv := l.dv || decide (p.opc = 0x10)
              data := if p.opc = 0x10 then p.sectorData else l.data, rep := false, used := s.time } ∧
            { t with coh := s.coh, net := s.net } = s)))) ∧
    (∀ (s : State) (d : Nat) (p : Packet) (a : Access) (x : ThreadId), nth? s.net.inbox s.pick = some (d, p) → p.opc = 0x14 →
      s.coh.accesses = [a] → a.who = .lane x → a.site = d → sectorOf a.pa = p.sec →
      Answers (exec .dloss s) (fun t =>
        t.returns = s.returns ++ [⟨x, a.mark, [], some ⟨14, 0x42, BitVec.ofNat 64 (a.pa + 2 ^ 44 * s.nmod), if a.reads then 0 else 2, none⟩⟩] ∧
        t.coh.accesses = [] ∧ t.missOf d p.sec = none ∧ { t with coh := s.coh, net := s.net, returns := s.returns } = s)) ∧
    (∀ (s : State) (site k : Nat) (m : Miss), s.missAt site k = some m → m.last + microsecond ≤ s.time →
      let n := Nat.min 2 (m.attempt + 1)
      let sent := (s.putMiss site { m with attempt := n, last := s.time, replica := false }).sendAll
        ((holderSites.filter (· != site) ++ [homeSock m.sector]).map (fun x =>
          { s.cohPacket (if m.write then 2 else 1) site x m.sector with txn := m.txn, attempt := BitVec.ofNat 2 n }))
      (m.raised = false → m.attempt < 2 ∨ s.mayRaise site m.sector = false → exec (.missReissue site k) s = .next sent) ∧
      (m.raised = true → exec (.missReissue site k) s = .next (if s.requesterAt site m.sector then sent
        else sent.send { s.cohPacket 0x20 site (homeSock m.sector) m.sector with rmod := m.rmod, pk := m.write })) ∧
      (m.raised = false → m.attempt = 2 → s.mayRaise site m.sector = true →
        Answers (exec (.preqRaise site k) s) (fun t =>
          t.missOf site m.sector = some { m with raised := true, rmod := s.raisedFor site m.sector, last := s.time } ∧
          t.coh.lasting = s.coh.lasting ++ [(site, m.sector)] ∧
          t.net = (s.send { s.cohPacket 0x20 site (homeSock m.sector) m.sector with rmod := s.raisedFor site m.sector, pk := m.write }).net ∧
          { t with coh := s.coh, net := s.net } = s))) ∧
    (∀ (s : State) (site sector x : Nat), lookup? (site, sector) s.coh.holdoff = some x →
      let l := s.line site sector
      let mine := s.coh.heldReqs.filter (fun h => decide (h.1 = site) && decide (h.2.sec = sector))
      let u : State := { s with coh := { s.coh with
        holdoff := drop (site, sector) s.coh.holdoff
        heldReqs := s.coh.heldReqs.filter (fun h => !(decide (h.1 = site) && decide (h.2.sec = sector))) } }
      ((∀ h ∈ mine, h.2.opc ≠ 0x30) → exec (.holdoffExpiry site sector) s = .next (mine.foldl (fun t h => serveHeld site h.2 t) u)) ∧
      (mine = [] → exec (.holdoffExpiry site sector) s = .next u) ∧
      (∀ p, mine = [(site, p)] → s.keepsTokens site sector = false → l.hs = .i → l.tok ≠ 0 →
        (p.opc = 1 → l.own = true → 2 ≤ l.tok →
          exec (.holdoffExpiry site sector) s = .next ((u.setLine site sector { l with tok := l.tok - 1 }).send
            ((s.tokens site p.src sector 1 false false l.ser (some l.data)).answering p))) ∧
        (p.opc = 2 →
          exec (.holdoffExpiry site sector) s = .next ((u.setLine site sector Line.reset).send
            ((s.tokens site p.src sector l.tok l.own (l.own && l.dirty) l.ser (if l.own then some l.data else none)).answering p))))))

/-- PREQ enters the home's table, and is activated at once where it is the only one, else waits for the active one; one that the home has
already changes nothing; PACT makes a site give its tokens to the requester and answer PACK, and a site that has no such request any more
adds PDONE; ten PACKs and PDONE end an activation with PDEACT, and ten more PACKs take the entry out; a PDONE that comes before its PREQ
is kept (R42, R56 to R60, R69). LOST, and a persistent request active for 50 µs, begin the mending of a sector: its serial goes up by one,
the home's tokens are void, and MEND goes to the ten sites; a site returns all it holds in one MRET and notes the serial; the tenth MRET,
or 50 µs, end it with 16 tokens at the home, the sector lost where no site returned the owner token; MDONE takes the note away, and a miss
that is still open is issued again (R61 to R65). GETR and BRDQ are answered with the sectors' data where the home holds all 16 tokens of
each, else with RMIS; DATR and BRDR make replica lines; RMIS makes a replica miss a broadcast GETS (R64, R66, R67). The model's choices
here: log 6, 31, 32, 33 and 135. -/
def Obligations.PersistentAndMendingSteps : Prop :=
  (∀ (s : State) (d : Nat) (p : Packet), nth? s.net.inbox s.pick = some (d, p) →
      let sec := p.sec
      let u := s.takeArrived
      let pack : Packet := { s.cohPacket 0x24 d p.src sec with rmod := p.rmod, rsock := p.rsock, pk := p.pk }
      (p.opc = 0x20 → (∀ e ∈ removeNth s.net.inbox s.pick, ¬ (e.1 = d ∧ e.2.opc = 0x20 ∧ e.2.sec = sec)) →
        let early := s.coh.doneEarly.contains (sec, p.rsock)
        (s.coh.preqs = [] → s.knowsPreq sec p.rsock = false → s.mendOf sec = none →
          Answers (exec .preq s) (fun t =>
            t.coh.preqs = [⟨sec, p.rmod, p.rsock, p.pk, .active, 0, early, s.time⟩] ∧ (t.homeEntry sec).htok = 0 ∧
            { t with coh := s.coh, net := s.net } = s)) ∧
        (∀ e, s.activeHome sec = some e →
          (s.knowsPreq sec p.rsock = true → exec .preq s = .next u) ∧
          (s.knowsPreq sec p.rsock = false → s.coh.preqs.countP (fun e => decide (homeSock e.sector = d)) < 64 →
            Answers (exec .preq s) (fun t =>
              t.coh = { s.coh with
                preqs := s.coh.preqs ++ [⟨sec, p.rmod, p.rsock, p.pk, .waiting, 0, early, s.time⟩]
                doneEarly := s.coh.doneEarly.erase (sec, p.rsock) } ∧
              { t with coh := s.coh, net := s.net } = s)))) ∧
      (p.opc = 0x21 → p.rsock = d ∨ (s.line d sec).hs = .i →
        Answers (exec .pact s) (fun t =>
          let a : Active := ⟨d, sec, p.rmod, p.rsock, p.pk⟩
          t.coh.active = (if a ∈ s.coh.active then s.coh.active else s.coh.active ++ [a]) ∧
          (p.rsock ≠ d → (t.line d sec).tok = 0 ∧ lookup? (d, sec) t.coh.holdoff = none) ∧
          (p.rsock = d → t.coh.lines = s.coh.lines ∧
            t.net = (if (d, sec) ∈ s.coh.lasting then u.send pack
              else (u.send pack).send { s.cohPacket 0x22 d p.src sec with rmod := p.rmod }).net) ∧
          { t with coh := s.coh, net := s.net } = s)) ∧
      (p.opc = 0x23 →
        exec .pdeact s = .next ({ u with coh := { s.coh with
          active := s.coh.active.filter (fun a => !(decide (a.site = d) && decide (a.sector = sec)))
          lasting := if p.rsock = d then s.coh.lasting.filter (fun x => x ≠ (d, sec)) else s.coh.lasting } }.send pack)) ∧
      (p.opc = 0x22 → s.coh.preqs = [] →
        exec .pdone s = .next { u with coh := { s.coh with doneEarly := s.coh.doneEarly ++ [(sec, p.rsock)] } }) ∧
      (∀ e : PreqEntry, s.coh.preqs = [e] → e.sector = sec → e.rsock = p.rsock → e.rmod = p.rmod → s.mendOf sec = none →
        let deact (t : State) : Prop := t.coh.preqs = [{ e with stage := .ending, packs := 0, pdone := true }]
        (p.opc = 0x22 → e.stage = .active →
          Answers (exec .pdone s) (fun t =>
            (e.packs = 10 → deact t) ∧ (e.packs ≠ 10 → t = { u with coh := { s.coh with preqs := [{ e with pdone := true }] } }) ∧
            { t with coh := s.coh, net := s.net } = s)) ∧
        (p.opc = 0x24 → e.stage = .active →
          Answers (exec .pack s) (fun t =>
            (e.packs = 9 ∧ e.pdone = true → deact t) ∧
            (¬ (e.packs = 9 ∧ e.pdone = true) → t = { u with coh := { s.coh with preqs := [{ e with packs := e.packs + 1 }] } }) ∧
            { t with coh := s.coh, net := s.net } = s)) ∧
        (p.opc = 0x24 → e.stage = .ending → s.coh.preqHeld = [] →
          exec .pack s = .next { u with coh := { s.coh with
            preqs := if e.packs + 1 < 10 then [{ e with packs := e.packs + 1 }] else [] } }))) ∧
  (((∀ (s : State) (sec : Nat), s.mendOf sec = none →
        let h := s.homeEntry sec
        let begun (t : State) : Prop := t.homeEntry sec = { h with htok := 0, hown := false, ser := h.ser + 1 } ∧
          t.coh.mends = s.coh.mends ++ [⟨sec, s.time, [], h.hown⟩] ∧ { t with coh := s.coh, net := s.net } = s
        (∀ d p, nth? s.net.inbox s.pick = some (d, p) → p.opc = 0x33 → p.sec = sec → p.ser = h.ser → Answers (exec .lost s) begun) ∧
        (∀ e, s.activeHome sec = some e → e.since + 50 * microsecond ≤ s.time → Answers (exec (.mendStartTimeout sec) s) begun)) ∧
      (∀ (s : State) (d : Nat) (p : Packet), nth? s.net.inbox s.pick = some (d, p) →
        let sec := p.sec
        let l := s.line d sec
        (p.opc = 0x30 → l.hs = .i →
          Answers (exec .mend s) (fun t =>
            t.mendNote d sec = some p.ser ∧ t.line d sec = Line.reset ∧
            lookup? (d, sec) t.coh.holdoff = none ∧
            t.net.links = (s.send { s.cohPacket 0x31 d p.src sec with
              dlen := if l.own then 2 else 0, tok := l.tok, own := l.own, dirty := l.own && l.dirty, ser := p.ser
              data := if l.own then halves l.data else [] }).net.links ∧
            { t with coh := s.coh, net := s.net } = s)) ∧
        (p.opc = 0x32 → s.mendNote d sec = some p.ser → l.hs = .i →
          (s.missOf d sec = none →
            exec .mdone s = .next { s.takeArrived with coh := { s.coh with mendNotes := drop (d, sec) s.coh.mendNotes } }) ∧
          (∀ m, s.missOf d sec = some m → l.allows m.write = false →
            Answers (exec .mdone s) (fun t =>
              t.mendNote d sec = none ∧ t.missOf d sec = some { m with attempt := 0, first := s.time, last := s.time } ∧
              t.coh.lines = s.coh.lines ∧ t.coh.accesses = s.coh.accesses ∧ { t with coh := s.coh, net := s.net } = s)))) ∧
      (∀ (s : State) (sec : Nat) (m : Mend), s.coh.mends = [m] → m.sector = sec → s.coh.preqs = [] →
        let h := s.homeEntry sec
        let ended (current : Bool) (t : State) : Prop := t.homeEntry sec = { h with htok := 16, hown := true, lostb := h.lostb || !current } ∧
          t.coh.mends = [] ∧ { t with coh := s.coh, net := s.net, mem := s.mem } = s
        (∀ d p, nth? s.net.inbox s.pick = some (d, p) → p.opc = 0x31 → p.sec = sec → p.ser = h.ser → p.src ∉ m.got →
          Answers (exec .mret s) (fun t =>
            t.mem = (if p.own && p.dirty then writeNum (sec * 64) 64 p.sectorData.toNat s.mem else s.mem) ∧
            (m.got.length ≠ 9 → t.coh = { s.coh with mends := [{ m with got := m.got ++ [p.src], current := m.current || p.own }] } ∧
              { t with coh := s.coh, net := s.net, mem := s.mem } = s) ∧
            (m.got.length = 9 → ended (m.current || p.own) t))) ∧
        (m.since + 50 * microsecond ≤ s.time → Answers (exec (.mendWindowTimeout sec) s) (fun t => ended m.current t ∧ t.mem = s.mem)))) ∧
    (∀ (s : State) (d : Nat) (p : Packet), nth? s.net.inbox s.pick = some (d, p) →
        let sec := p.sec
        let h := s.homeEntry sec
        let u := s.takeArrived
        let refuse (home : Nat) : Packet := (s.cohPacket 0x13 home p.src sec).answering p
        (p.opc = 3 → h.lostb = false →
          exec .getr s = .next (u.send (if h.htok = 16
            then { s.cohPacket 0x12 (homeSock sec) p.src sec with dlen := 2, data := halves (s.dram sec) }.answering p
            else refuse (homeSock sec)))) ∧
        (p.opc = 0x50 → p.rqlen = 4 → (s.homeEntry sec).lostb = false → (s.homeEntry (sec + 1)).lostb = false →
          exec .brdq s = .next (u.send (if h.htok = 16 ∧ (s.homeEntry (sec + 1)).htok = 16
            then { s.cohPacket 0x51 d p.src sec with dlen := 4, data := halves (s.dram sec) ++ halves (s.dram (sec + 1)) }.answering p
            else refuse d))) ∧
        (∀ a b, p.data = [a, b] → (s.line d sec).tok = 0 → (s.line d sec).rep = false → s.inSet d (setOf d sec) = [] → s.missOf d sec = none →
          s.firstAccess d sec = none → ∀ q ∈ ([(.datr, 0x12), (.brdr, 0x51)] : List (Instr × BitVec 8)), p.opc = q.2 →
          Answers (exec q.1 s) (fun t =>
            t.line d sec = { Line.reset with rep := true, dv := true, data := b ++ a, cls := 2, used := s.time, filled := true } ∧
            (∀ site x, site ≠ d ∨ x ≠ sec → t.line site x = s.line site x) ∧ { t.coh with lines := s.coh.lines } = s.coh ∧
            t.net = u.net ∧ { t with coh := s.coh, net := s.net } = s)) ∧
        (∀ m : Miss, p.opc = 0x13 → s.coh.misses = [(d, m)] → m.replica = true → m.txn = p.txn → m.covered = false →
          exec .rmis s = .next ({ u with coh := { s.coh with
              misses := [(d, { m with replica := false, attempt := 1, last := s.time })] } }.sendAll
            ((holderSites.filter (· != d) ++ [homeSock m.sector]).map (fun x =>
              { s.cohPacket (if m.write then 2 else 1) d x m.sector with txn := m.txn, attempt := 1 }))))))

/-! ## Groups, stops and waits -/

/-- GROUP_FORM makes a group of the one READY thread of a port, at its PC and in its lane, in the lowest run buffer, and the thread waits
for its run; RUN_FETCH_DONE puts a sound run into the buffer and a malformed one into class 00, subcode 0x09, and reads a line again of
which it has one half old and one new; RUN_END dissolves the group, its member READY at the next run, or at its branch's target, with LSP
the trailer's ordinal and RSP 0 where STOP is set and RSP counted on where it is not (R153, R154, R156, R157, R258, R299 to R301). The
threads of a warp held at a JOIN go on 256 cycles after the first; the watchdog of a thread that stands at a boundary is class 15, and a
debug stop class 12 of the threads of its address space that stand at a stop position, each resuming at the thread's next run; the detail
address of both is open (R257, R260, R261, R347). The model's choices here: log 2, 6, 7, 40, 77 and 148. -/
def Obligations.GroupAndStopSteps : Prop :=
  ((∀ (s : State) (x : ThreadId) (th : Thread), s.threads = [(x, th)] → s.groups = [] → th.st = .ready → x.lane < 32 → x.warp.die < 8 →
      x.warp.core < 192 → x.warp.part < 4 → x.warp.slot < 16 →
      let w := x.warp
      let k : GroupKey := ⟨w.die, w.core, w.part, if (s.warp w).wp < (s.bundle w).accw then 1 else 0, 0⟩
      Answers (exec (.groupForm w.die w.core w.part k.port) s) (fun t =>
        (∃ g, t.groups = [(k, g)] ∧ g.addr = th.pc ∧ g.fetched = false ∧ g.member x.lane = some w.slot ∧
          ∀ l, l ≠ x.lane → g.member l = none) ∧
        t.threads = [(x, { th with st := .fetchWait })] ∧ { t with threads := s.threads, groups := s.groups, fab := s.fab } = s)) ∧
    (∀ (s : State) (k : GroupKey) (g : Group) (l : Nat) (x : ThreadId), s.landStanding = s → s.group? k = some g → g.fetched = false →
      membersOf k g = [(l, x)] →
      let torn := s.tornLines x.warp
      (torn ≠ [] → exec (.runFetchDone k.die k.core k.part k.port k.buf) s = .next (s.dropLines x.warp torn)) ∧
      (∀ ws a b, torn = [] → s.readRun x.warp g.addr = .ok (some (ws, a, b)) → g.seed = x.warp.slot → (s.thread x).st = .fetchWait →
        (s.thread x).pending = [] →
        Answers (exec (.runFetchDone k.die k.core k.part k.port k.buf) s) (fun t =>
          t.group? k = some { g with words := ws, trailerA := a, trailerB := b, fetched := true } ∧
          (∀ j, j ≠ k → t.group? j = s.group? j) ∧ ThreadIs s t x { s.thread x with st := .grouped } ∧
          { t with threads := s.threads, groups := s.groups, warps := s.warps, cores := s.cores } = s)) ∧
      (torn = [] → s.readRun x.warp g.addr = .ok none → s.canTrap x →
        Answers (exec (.runFetchDone k.die k.core k.part k.port k.buf) s) (fun t =>
          ThreadIs s t x ((s.thread x).trapped ⟨0, 9, g.addr, 0, none⟩ (s.warp x.warp).tbase (s.thread x).lr s.time) ∧
          { t with threads := s.threads, groups := s.groups, warps := s.warps, cores := s.cores } = s))) ∧
    (∀ (s : State) (k : GroupKey) (g : Group) (l : Nat) (x : ThreadId), s.group? k = some g → g.fetched = true → g.words.length ≤ g.next →
      membersOf k g = [(l, x)] → g.hazards = [] → (s.thread x).wait = none → (s.thread x).late = [] → (s.warp x.warp).halt = none →
      (s.thread x).bpHeld = false → (s.warp x.warp).wdog = 0 → (s.die x.warp.die).obs.stop = false → (s.die x.warp.die).obs.bpen = false →
      let th := s.thread x
      let stop := g.trailerA.getLsbD 20
      Answers (exec (.runEnd k.die k.core k.part k.port k.buf) s) (fun t =>
        t.group? k = none ∧ (∀ j, j ≠ k → t.group? j = s.group? j) ∧
        ThreadIs s t x { th with
          st := .ready, pc := lookupD l g.afterAddr g.targets, readyAt := s.time, settled := s.time
          lsp := if stop then ordinalOf (recCode (s.recordOf (s.bundle x.warp))).toNat (g.addr + BitVec.ofNat 64 (4 * g.words.length)).toNat
            (g.trailerA.extractLsb' 12 7).toNat else th.lsp
          rsp := if stop then 0 else if th.rsp = 0xFFFF then 0xFFFF else th.rsp + 1
          safeAt := if stop then (if th.hm then 0 else s.time) else th.safeAt
          stopped := if stop then false else th.stopped
          atSafe := stop
          stopMark := match th.stopMark with | .returning => .standing | .standing => .clear | m => m } ∧
        { t with threads := s.threads, groups := s.groups } = s))) ∧
  ((∀ (s : State) (w : WarpId) (addr : BitVec 64),
      let held (l : Nat) (at' : Nat) : Prop := (s.thread ⟨w, l⟩).st = .blocked ∧ (s.thread ⟨w, l⟩).wait = some (.join addr at')
      (∃ l at', l < 32 ∧ held l at' ∧ at' + 256 ≤ s.time) →
      Answers (exec (.joinReleaseTimeout w.die w.core w.part w.slot addr) s) (fun t =>
        (∀ l at', l < 32 → held l at' → t.thread ⟨w, l⟩ = { s.thread ⟨w, l⟩ with st := .ready, wait := none, readyAt := s.time }) ∧
        (∀ x, (∀ at', ¬ (x.warp = w ∧ x.lane < 32 ∧ held x.lane at')) → t.thread x = s.thread x) ∧ { t with threads := s.threads } = s)) ∧
    (∀ (s : State) (x : ThreadId), (lookup? x s.threads).isSome = true → s.canTrap x →
      let th := s.thread x
      th.st = .blocked ∨ th.st = .ready ∧ th.wait = none → (s.warp x.warp).wdog ≠ 0 →
      (s.warp x.warp).wdog.toNat * 1024 < s.time - th.safeAt →
      Answers (exec (.watchdogExpiry x.warp.die x.warp.core x.warp.part x.warp.slot x.lane) s) (fun t =>
        ThreadIs s t x (th.trapped ⟨15, 0, Config.freeBits s.openVals, if th.atStop then 16 else 0, some th.pc⟩ (s.warp x.warp).tbase th.lr s.time) ∧
        { t with threads := s.threads, groups := s.groups, openVals := s.openVals } = s)) ∧
    (∀ (s : State) (die : Nat) (v : BitVec 32) (x : ThreadId) (th : Thread), die < 8 → v.getLsbD 0 = true → s.threads = [(x, th)] →
      let u := { s.die die with obs := { (s.die die).obs with stop := true, bpen := v.getLsbD 1, dbgAsid := v.extractLsb' 2 8 } }
      (th.st = .grouped →
        Answers (exec (.debugStopSet die v) s) (fun t => DieIs s t die u ∧ { t with dies := s.dies } = s)) ∧
      (x.warp.die = die → th.st = .blocked → th.stopped = false → th.stopMark ≠ .standing → s.canTrap x → (s.bundle x.warp).asid = v.extractLsb' 2 8 →
        Answers (exec (.debugStopSet die v) s) (fun t =>
          DieIs s t die u ∧
          ThreadIs s t x { th.trapped ⟨12, 0, Config.freeBits s.openVals, 16, some th.pc⟩ (s.warp x.warp).tbase th.lr s.time with
            stopped := true, bpHeld := false } ∧
          { t with threads := s.threads, groups := s.groups, openVals := s.openVals, dies := s.dies } = s))))

/-- SMPCTL takes EN, TSEN and, while neither was 1, a period of 10 to 24, and refuses another period; a sample tick of a core with no warp
in the partition moves its sampler on, and one with a warp writes a record, or counts it dropped where the ring is full; a period record
and a tile stamp record whose operations have retired are written where the ring has room, and a stamp record is dropped where it has not
(R266 to R269). The model's choices here: log 2, 6, 90, 91, 93 and 97. -/
def Obligations.ObserveSteps : Prop :=
  ∀ (s : State) (die : Nat), die < 8 →
    let o := (s.die die).obs
    let obsIs (r t : State) (v : Observe) : Prop := DieIs r t die { r.die die with obs := v }
    (∀ v : BitVec 32, o.en = false → o.tsen = false →
      let per := v.extractLsb' 2 5
      (10 ≤ per.toNat → per.toNat ≤ 24 →
        Answers (exec (.smpctlWrite die v) s) (fun t =>
          obsIs s t { o with per := per, cur := per, en := v.getLsbD 0, tsen := v.getLsbD 1 } ∧ { t with dies := s.dies } = s)) ∧
      (per.toNat < 10 ∨ 24 < per.toNat →
        Answers (exec (.smpctlWrite die v) s) (fun t => t.dies = s.dies ∧ { t with mgmt := s.mgmt } = s))) ∧
    (∀ core, core < 192 → core ≠ 0 → o.en = true → o.pendingLog = [] → (s.core ⟨die, core⟩).sampledAt + 2 ^ o.cur.toNat ≤ s.time →
      let part := (s.core ⟨die, core⟩).samplePart % 4
      let slot := s.nextOccupied ⟨die, core⟩ part (bitsAt (s.core ⟨die, core⟩).sampleSlot (4 * part) 4)
      let ticked (t : State) : Prop := (t.core ⟨die, core⟩).samplePart = (part + 1) % 4 ∧ (t.core ⟨die, core⟩).sampledAt = s.time
      (slot = none → Answers (exec (.sampleTick die core) s) (fun t => ticked t ∧ { t with cores := s.cores } = s)) ∧
      (∀ n, slot = some n → 2 ^ o.log.toNat ≤ (o.pi - o.ci).toNat →
        Answers (exec (.sampleTick die core) s) (fun t =>
          ticked t ∧ obsIs s t { o with lost := if o.lost = 0xFFFFFFFF then o.lost else o.lost + 1 } ∧
          { t with cores := s.cores, dies := s.dies, openVals := s.openVals } = s)) ∧
      (∀ n u, slot = some n → (o.pi - o.ci).toNat < 2 ^ o.log.toNat →
        { s with openVals := s.openVals + 1 }.physWrite die 0 o.nextPa (bytesOfNat 32 (s.sampleRecord ⟨die, core, part, n⟩)) = .ok u →
        Answers (exec (.sampleTick die core) s) (fun t =>
          (t.core ⟨die, core⟩).sampledAt = u.time ∧ obsIs u t { (u.die die).obs with pi := (u.die die).obs.pi + 1 } ∧
          { t with cores := u.cores, dies := u.dies } = u))) ∧
    (∀ r rest u, o.pendingLog = r :: rest → (o.pi - o.ci).toNat < 2 ^ o.log.toNat →
      s.physWrite die 0 o.nextPa (bytesOfNat 32 r.toNat) = .ok u →
      Answers (exec (.periodLogWrite die) s) (fun t =>
        obsIs u t { (u.die die).obs with pi := (u.die die).obs.pi + 1, pendingLog := rest } ∧ { t with dies := u.dies } = u)) ∧
    (∀ core part slot r rest,
      let w : WarpId := ⟨die, core, part, slot⟩
      (s.warp w).stamps = r :: rest → (∀ q ∈ (s.warp w).ops, q.cls ≤ 2 → q.id ∉ r.ops) →
      (2 ^ o.log.toNat ≤ (o.pi - o.ci).toNat →
        Answers (exec (.tileStampWrite die core part slot) s) (fun t =>
          obsIs s t { o with lost := if o.lost = 0xFFFFFFFF then o.lost else o.lost + 1 } ∧
          WarpIs s t w { s.warp w with stamps := rest } ∧ { t with dies := s.dies, warps := s.warps } = s)) ∧
      (∀ u, (o.pi - o.ci).toNat < 2 ^ o.log.toNat →
        s.physWrite die 0 o.nextPa (bytesOfNat 32 (r.record w (s.bundle w).bn s.time)) = .ok u →
        Answers (exec (.tileStampWrite die core part slot) s) (fun t =>
          obsIs u t { (u.die die).obs with pi := (u.die die).obs.pi + 1 } ∧
          WarpIs u t w { u.warp w with stamps := rest } ∧ { t with dies := u.dies, warps := u.warps } = u)))

/-- A walk that ends in a page enters it in the TLBs of every core that waited for it and of their clusters, one that ends in a fault that
is not parked is class 03 of its thread, with the address of the thread's own; FRES frees a slot, and its thread retries at REPC or takes
class 03 with PARK; ASRH and ASRL set a root in two halves; a wring that is done makes the planned map real; DBC.EN and a cleared DBS.BRK
begin a slot anew (R171, R189 to R196, R229). The model's choices here: log 6, 12, 84, 88 and 127. -/
def Obligations.TranslationSteps : Prop :=
  (∀ (s : State) (die k : Nat) (w : Walk), nth? (s.die die).walks k = some w → k < 64 →
    (∀ e seen, s.walk die w.asid w.va.toNat = .page e seen →
      Answers (exec (.walkDone die k) s) (fun t =>
        (∀ a ∈ w.asks, (t.core a.core).tlb.head? = some e ∧ (t.cluster a.core.die a.core.cluster).tlb.head? = some e) ∧
        (∀ c, (∀ a ∈ w.asks, a.core ≠ c) → t.core c = s.core c) ∧
        (t.die die).walks = removeNth (s.die die).walks k ∧
        { t with dies := s.dies, cores := s.cores, clusters := s.clusters } = s)) ∧
    (∀ sub parks a x, s.walk die w.asid w.va.toNat = .fault sub parks → w.asks = [a] → a.who = .thread x → x.warp.die = die →
      parks = false ∨ s.parking die w.asid = false → (s.thread x).st = .grouped → s.canTrap x →
      Answers (exec (.walkDone die k) s) (fun t =>
        ThreadIs s t x ((s.thread x).trapped ⟨3, sub, a.va, 0, none⟩ (s.warp x.warp).tbase (s.thread x).lr s.time) ∧
        DieIs s t die { s.die die with walks := removeNth (s.die die).walks k } ∧
        { t with dies := s.dies, threads := s.threads, groups := s.groups } = s))) ∧
  (∀ (s : State) (die : Nat) (n : BitVec 8) (f : FaultSlot) (x : ThreadId) (th : Thread), lookup? n.toNat (s.die die).slots = some f →
    f.copies = [] → (s.die die).slotWaits = [] → s.shadow = [] → s.threads = [(x, th)] → x.warp.die = die → th.st = .blocked →
    th.wait = some (.parked n.toNat) →
    let freed (t : State) : Prop := DieIs s t die { s.die die with slots := drop n.toNat (s.die die).slots }
    Answers (exec (.fresRetry die n) s) (fun t =>
      freed t ∧ t.threads = [(x, { th with st := .ready, wait := none, readyAt := s.time })] ∧
      { t with dies := s.dies, threads := s.threads } = s) ∧
    (s.canTrap x → Answers (exec (.fresDeliver die n) s) (fun t =>
      freed t ∧ ThreadIs s t x (th.trapped ⟨3, f.sub, th.faultVa, 8, none⟩ (s.warp x.warp).tbase th.lr s.time) ∧
      { t with dies := s.dies, threads := s.threads, groups := s.groups } = s))) ∧
  (∀ (s : State) (die n : Nat) (v : BitVec 32), n < 256 →
    let r := lookupD n AsRoot.reset (s.die die).roots
    let root : BitVec 44 := r.staged ++ v.extractLsb' 14 18 ++ 0#14
    Answers (exec (.asrhWrite die n v) s) (fun t =>
      DieIs s t die { s.die die with roots := put n { r with staged := v.extractLsb' 0 12 } (s.die die).roots } ∧ { t with dies := s.dies } = s) ∧
    (root.toNat < 0xC000000000 → Answers (exec (.asrlWrite die n v) s) (fun t =>
      DieIs s t die { s.die die with roots := put n { r with en := v.getLsbD 0, pfs := v.getLsbD 1, root := root } (s.die die).roots } ∧
      { t with dies := s.dies } = s)) ∧
    (emptyRow root.toNat = true → Answers (exec (.asrlWrite die n v) s) (fun t => t.dies = s.dies ∧ { t with mgmt := s.mgmt } = s))) ∧
  (∀ (s : State) (c : CoreId) (w : Wring) (x : WarpId) (rs : List Return), (s.core c).wring = some w → s.wringWaits c = false →
    w.place = none → w.pool = some (x, rs) → (s.core c).bundles ≠ [] → (∀ q ∈ (s.core c).bundles, q.2.ready = true) →
    Answers (exec (.wringDone c.die c.core) s) (fun t =>
      (t.core c).segs = w.planned ∧ (t.core c).wring = none ∧ t.returns = s.returns ++ rs)) ∧
  (∀ (s : State) (die n : Nat) (v : BitVec 32), die < 8 ∧ n < 32 ∨ die = 20 ∧ n < 16 →
    let level := if die = 20 then 4 else 3
    let w : WarpId := ⟨die, 0, 0, 0⟩
    ∀ b, s.slot? w level n = some b →
    (b.count = 0 → b.arrv = 0 → b.pend = 0 → v.getLsbD 0 = true →
      Answers (exec (.dbcEnWrite die n v) s) (fun t =>
        t.slot? w level n = some { b with
          mask := 0, arrv := 0, count := 0, pend := 0, brk := false, part := [], last := [], landed := false } ∧
        t.dbReg w level n = { s.dbReg w level n with
          en := true, cmask := if die = 20 then v.extractLsb' 1 8 else BitVec.setWidth 8 (v.extractLsb' 1 4) } ∧
        { t with dies := s.dies, devBars := s.devBars, devRegs := s.devRegs } = s)) ∧
    (b.brk = true → Answers (exec (.dbsBrkClear die n) s) (fun t =>
      t.slot? w level n = some { b with
          mask := 0, arrv := 0, count := 0, pend := 0, brk := false, part := [], last := [], landed := false } ∧
      { t with dies := s.dies, devBars := s.devBars } = s)))

/-! ## The host -/

/-- Requests of the host to a module that is READY, with a port that is up: CXL.mem reads and writes of a sector of local memory, where
the port serves CXL, and AtomicOps of a supported width on an aligned address, become accesses of the port's far cache with the sector,
the masked data and the meta value given; before READY they are answered as unsupported (R25, R30, R100 to R102). BIRSP takes the host's
data and state into the far cache's line and carries out the demand, as a GETX's tokens with that data; 40 µs without it raise an event
once; a snoop of far memory takes a die cache's copy, or makes it shared, with dirty data to the host; a completion brings a far sector or
an error; a window is enabled only in far memory and apart from every other (R103 to R106). The host message rings and the registers of a
module that is READY: enabling starts both rings at PROD and RCONS; a doorbell has the published request taken, with source socket 255,
and the index block rewritten; RCONS frees replies. A routing entry takes a value with exactly one owner, unless it is locked; an owner
gives its ring's address; a write takes effect in the register it names, and in none that is read-only (R4, R107, R112, R118, R119, R121).
The model's choices here: log 5, 6, 9, 105, 106, 107, 109 and 144. -/
def Obligations.HostSteps : Prop :=
  ((∀ (s : State) (iod pa : Nat), iod = 20 ∨ iod = 21 → s.moduleReady = true → pa < 0xC000000000 →
        let asks (t : State) (kind : AccKind) (at' size : Nat) (data : BitVec 512) (mask : BitVec 64) (comp : BitVec 128) (mv : Nat) : Prop :=
          t.coh.accesses = s.coh.accesses ++ [{
            id := s.fresh, who := .host iod, site := iod, kind := kind, va := 0, pa := at', size := size, wdata := data, wmask := mask
            comp := comp, dest := [], signed := false, cls := 2, rep := false, mark := mv, acq := 0 }] ∧
          { t.coh with accesses := s.coh.accesses } = s.coh ∧ { t with coh := s.coh } = s
        (∀ mv : BitVec 2, lookup? iod s.boot.linkUp = some true → s.boot.cxlAllowed iod = true → mv ≠ 3 →
          Answers (exec (.hostMemRead iod pa mv) s) (fun t => asks t .read (pa / 64 * 64) 64 0 0 0 mv.toNat)) ∧
        (∀ data mask, lookup? iod s.boot.linkUp = some true → s.boot.cxlAllowed iod = true →
          Answers (exec (.hostMemWrite iod pa data mask) s) (fun t => asks t .write (pa / 64 * 64) 64 data mask 0 0)) ∧
        (∀ x y : BitVec 128, ∀ p ∈ ([(0, 0, 4), (0, 0, 8), (1, 6, 4), (1, 6, 8), (2, 8, 4), (2, 8, 8), (2, 8, 16)] : List (BitVec 2 × Nat × Nat)),
          (lookup? iod s.boot.linkUp).isSome = true → pa % p.2.2 = 0 →
          Answers (exec (.hostAtomicop iod p.1 pa p.2.2 x y) s) (fun t => asks t (.atom p.2.1 0) pa p.2.2 (BitVec.setWidth 512 x) 0 y 0))) ∧
    (∀ (s : State) (iod pa : Nat), s.moduleReady = false → (lookup? iod s.boot.linkUp).isSome = true →
      ∀ (mv op : BitVec 2) (data : BitVec 512) (mask : BitVec 64) (width : Nat) (x y : BitVec 128),
      ∀ i ∈ ([.hostMemRead iod pa mv, .hostMemWrite iod pa data mask, .hostAtomicop iod op pa width x y] : List Instr),
        exec i s = .next { s with coh := { s.coh with hostRefused := s.coh.hostRefused ++ [(iod, pa)] } }) ∧
    ((∀ (s : State) (iod sector : Nat) (x : Snoop), s.snoopOf iod sector = some x →
        let l := s.line iod sector
        (∀ wb, x.demand = none → x.inval = false → s.coh.snoops = [x] → s.coh.heldReqs = [] → l.tok ≠ 0 →
          Answers (exec (.birsp iod sector wb) s) (fun t =>
            t.line iod sector = { l with data := wb.getD l.data, dirty := l.dirty || wb.isSome, hs := .s } ∧
            t.coh.snoops = [] ∧ { t with coh := s.coh } = s)) ∧
        (∀ p wb, x.demand = some p → p.opc = 2 → p.sec = sector → x.inval = true → s.coh.snoops = [x] → s.coh.heldReqs = [] →
          s.keepsTokens iod sector = false → lookup? (iod, sector) s.coh.holdoff = none → l.tok ≠ 0 →
          Answers (exec (.birsp iod sector wb) s) (fun t =>
            t.line iod sector = Line.reset ∧ t.coh.snoops = [] ∧ t.coh.heldReqs = [] ∧
            t.net = (s.send ((s.tokens iod p.src sector l.tok l.own (l.own && (l.dirty || wb.isSome)) l.ser
              (if l.own then some (wb.getD l.data) else none)).answering p)).net ∧
            { t with coh := s.coh, net := s.net } = s)) ∧
        (x.raised = false → x.since + 40 * microsecond ≤ s.time →
          Answers (exec (.hostSnoopTimeout iod sector) s) (fun t =>
            t.coh = { s.coh with snoops := s.coh.snoops.map (fun y => if y = x then { y with raised := true } else y) } ∧
            t.net = (s.report 6 iod sector).net ∧ { t with coh := s.coh, net := s.net } = s))) ∧
      (∀ (s : State) (iod site sector : Nat), s.cxlServed iod = true → isFarSec sector = true → s.farIod (sector * 64) = iod →
        s.coh.farSnoop = [(site, sector)] → (s.line site sector).far = true → (s.line site sector).dirty = true →
        let l := s.line site sector
        let told : List (Nat × Nat × BitVec 512) := s.coh.hostReads ++ [(iod, sector * 64, l.data)]
        Answers (exec (.hostSnoop iod sector 0) s) (fun t =>
          t.line site sector = Line.reset ∧ t.coh.farSnoop = [] ∧ t.coh.hostReads = told ∧ { t with coh := s.coh } = s) ∧
        Answers (exec (.hostSnoop iod sector 1) s) (fun t =>
          t.line site sector = { l with hs := .s, dirty := false } ∧ t.coh.farSnoop = s.coh.farSnoop ∧ t.coh.hostReads = told ∧
          { t with coh := s.coh } = s)) ∧
      (∀ (s : State) (k : Nat) (a : Access), nth? s.coh.cxlReqs k = some a →
        let sec := sectorOf a.pa
        (∀ x d, a.who = .lane x →
          Answers (exec (.cxlCacheCompletion k true d) s) (fun t =>
            t.returns = s.returns ++ [⟨x, a.mark, [], some ⟨14, 0x46, BitVec.ofNat 64 (a.pa + 2 ^ 44 * s.nmod), if a.reads then 0 else 2, none⟩⟩] ∧
            t.coh = { s.coh with cxlReqs := removeNth s.coh.cxlReqs k } ∧ { t with coh := s.coh, returns := s.returns } = s)) ∧
        (∀ d, a.who = .service →
          Answers (exec (.cxlCacheCompletion k true d) s) (fun t =>
            lookup? (a.site, sec) t.coh.farFails = some s.time ∧ t.coh.cxlReqs = removeNth s.coh.cxlReqs k ∧ { t with coh := s.coh } = s)) ∧
        (∀ d, a.who = .service → a.op = 0 → a.kind = .read → s.inSet a.site (setOf a.site sec) = [] → s.coh.farSnoop = [] → (s.line a.site sec).far = false →
          Answers (exec (.cxlCacheCompletion k false d) s) (fun t =>
            (t.line a.site sec).far = true ∧ (t.line a.site sec).dv = true ∧ (t.line a.site sec).data = d ∧ (t.line a.site sec).dirty = false ∧
            (t.line a.site sec).hs = .s ∧ t.coh.farSnoop = [(a.site, sec)] ∧ t.coh.cxlReqs = removeNth s.coh.cxlReqs k ∧
            { t with coh := s.coh } = s))) ∧
      (∀ (s : State) (n : Nat) (v : BitVec 32), n < 8 →
        let ok := !v.getLsbD 31 || s.windowOk n (v.toNat % 2 ^ 14) ((lookupD n 0 s.mgmt.fml).toNat % 2 ^ 14)
        (ok = true → exec (.fmbWrite n v) s = .next { s with mgmt := { s.mgmt with fmb := put n (v &&& 0x80003FFF) s.mgmt.fmb } }) ∧
        (ok = false → Answers (exec (.fmbWrite n v) s) (fun t => t.mgmt.fmb = s.mgmt.fmb ∧ { t with mgmt := s.mgmt } = s))))) ∧
  (∀ s : State, s.moduleReady = true →
      (∀ v : BitVec 32, v.getLsbD 4 = true → v.toNat % 16 ≤ 0xC →
        (s.mgmt.hmbEn = false →
          exec (.hmbEnable v) s = .next { s with mgmt := ({ s.mgmt with
            hmbLog := v.extractLsb' 0 4, hmbEn := true, hmbProd := v.extractLsb' 16 16, hmbCons := v.extractLsb' 16 16
            hmbRprod := s.mgmt.hmbRcons } : Mgmt).writeIndex }) ∧
        (s.mgmt.hmbEn = true → v.extractLsb' 16 16 = s.mgmt.hmbCons + 1 → s.mgmt.replies.length < s.mgmt.ringSize →
          let r := msgOf (readCells (s.mgmt.ringBase + 256 * (s.mgmt.hmbCons.toNat % s.mgmt.ringSize)) s.mgmt.hostMem 256)
          r.dsock = 20 → r.dep = 0 →
          exec (.hmbDoorbell v) s = .next { s with mgmt := ({ s.mgmt with
            hmbProd := s.mgmt.hmbCons + 1, hmbCons := s.mgmt.hmbCons + 1
            requests := s.mgmt.requests ++ [{ r with ssock := 255 }] } : Mgmt).writeIndex })) ∧
      (∀ v : BitVec 32, s.mgmt.hmbProd = s.mgmt.hmbCons →
        exec (.hmbReplyConsume v) s = .next { s with mgmt := { s.mgmt with hmbRcons := v.extractLsb' 0 16 } }) ∧
      (∀ v : BitVec 32,
        let c := s.mgmt.ertidx.toNat
        ((lookupD c 1 s.mgmt.ert).getLsbD 31 = true → exec (.ertdatWrite v) s = .next s) ∧
        ((lookupD c 1 s.mgmt.ert).getLsbD 31 = false → ((List.range 25).filter (fun i => v.getLsbD i)).length = 1 →
          exec (.ertdatWrite v) s = .next { s with mgmt := { s.mgmt with ert := put c (v &&& 0x81FFFFFF) s.mgmt.ert } })) ∧
      (∀ owner v, 1 ≤ owner → owner ≤ 24 →
        exec (.evringWrite owner v) s = .next { s with mgmt := { s.mgmt with evring := put owner v s.mgmt.evring } }) ∧
      (∀ v : BitVec 32,
        exec (.regWrite 32 0 v) s = .next s ∧
        exec (.regWrite 32 0x520 v) s = .next { s with mgmt := { s.mgmt with evCi := v } } ∧
        (∀ die, die < 8 → Answers (exec (.regWrite die 0x3604 v) s) (fun t =>
          DieIs s t die { s.die die with obs := { (s.die die).obs with bp := v } } ∧ { t with dies := s.dies } = s)) ∧
        (∀ die n, die < 8 → n < 64 → (s.queue die n).en = false →
          Answers (exec (.regWrite (8 + die) (16 * n + 12) v) s) (fun t =>
            DispIs s t die { s.dispatcher die with
              queues := put n { s.queue die n with asid := v.extractLsb' 0 8 } (s.dispatcher die).queues } ∧
            { t with disp := s.disp } = s))))

/-! ## The scale-up fabric -/

/-- NMOD takes a number until it is locked; EN is set only with NMOD locked, else a write error; a map that names a plane whose port is
not up is a write error; a port that trains comes up with its spine count, or stays down as a duplicate; a port that fails goes down with
an event; EN cleared takes every port down and resets every flag state; a unit adopts the new map once nothing is outstanding on a plane
that changes; a reset not yet confirmed is sent on the lowest live plane (R71, R72, R89 to R91). The model's choices here: log 5, 6, 9 and
49. -/
def Obligations.FabricRegisterSteps : Prop :=
  ∀ s : State,
    (∀ v : BitVec 32,
      exec (.nmodWrite v) s = .next (if s.fab.lock then s
        else { s with fab := { s.fab with nmod := v.extractLsb' 0 8, lock := v.getLsbD 8 } }) ∧
      ((∀ h, h < 8 → s.fab.live.getLsbD (v.toNat / 2 ^ (3 * h) % 8) = true) →
        exec (.npmapWrite v) s = .next { s with fab := { s.fab with map := v.extractLsb' 0 24 } }) ∧
      (∀ h, h < 8 → s.fab.live.getLsbD (v.toNat / 2 ^ (3 * h) % 8) = false →
        exec (.npmapWrite v) s = .next { s with mgmt := { s.mgmt with writeErrors := s.mgmt.writeErrors + 1 } })) ∧
    (exec .nctlEnSet s = .next (if s.fab.lock then { s with fab := { s.fab with en := true } }
      else { s with mgmt := { s.mgmt with writeErrors := s.mgmt.writeErrors + 1 } })) ∧
    (s.fab.en = true → (∀ k, (s.rau k).txns = [] ∧ (s.rau k).held = []) →
      Answers (exec .nctlEnClear s) (fun t =>
        t.fab.en = false ∧ t.fab.live = 0 ∧ t.fab.up = 0 ∧
        (∀ p, p < 8 → t.link (nimTx p) = { Link.reset with down := true } ∧ t.link (nimRx p) = { Link.reset with down := true }) ∧
        (∀ k ∈ holderSites, ∀ d, (t.rau k).flag d = { (s.rau k).flag d with
          snc := [], fseqn := 0, ufl := 0, fsyn := ((s.rau k).flag d).fsyn + 1, shold := true, rnfl := none, rsynAt := none }) ∧
        { t with fab := s.fab, net := s.net } = s)) ∧
    (∀ p, p < 8 → s.fab.en = true → s.fab.up.getLsbD p = false → ∀ n : BitVec 8,
      exec (.nimcorPortTrained p true n) s = .next { s with fab := { s.fab with dup := s.fab.dup ||| 1#8 <<< p } } ∧
      Answers (exec (.nimcorPortTrained p false n) s) (fun t =>
        t.fab = { s.fab with live := s.fab.live ||| 1#8 <<< p, up := s.fab.up ||| 1#8 <<< p, dup := s.fab.dup &&& ~~~(1#8 <<< p)
                             spn := put p n s.fab.spn } ∧
        t.link (nimTx p) = { Link.reset with down := false } ∧ t.link (nimRx p) = { Link.reset with down := false } ∧
        (∀ l, l ≠ nimTx p → l ≠ nimRx p → t.link l = s.link l) ∧ { t with fab := s.fab, net := s.net } = s)) ∧
    (∀ p, p < 8 → s.fab.up.getLsbD p = true → (∀ k, ∀ x ∈ (s.rau k).txns, x.pkt.plane ≠ p) →
      (∀ x ∈ (s.port (planeIod p)).service, x.2.plane ≠ p) → (∀ k, ∀ h ∈ (s.rau k).held, planeOf (s.rau k).map h.pkt.planeKey ≠ p) →
      Answers (exec (.planeFail p) s) (fun t =>
        t.fab.up = s.fab.up &&& ~~~(1#8 <<< p) ∧ t.fab.live = s.fab.live &&& ~~~(1#8 <<< p) ∧
        t.link (nimTx p) = { Link.reset with down := true } ∧ t.link (nimRx p) = { Link.reset with down := true } ∧
        t.net.inbox = s.net.inbox ++ [(20, eventPacket ⟨4, 20, 0, BitVec.ofNat 64 s.time, Config.eventDetail 4 p, none⟩)] ∧
        (∀ l, l ≠ nimTx p → l ≠ nimRx p → t.link l = s.link l) ∧ (∀ k, t.rau k = s.rau k) ∧ { t with fab := s.fab, net := s.net } = s)) ∧
    (∀ sock, (∀ x ∈ (s.rau sock).txns, ∀ h, h < 8 → bitsAt (s.rau sock).map.toNat (3 * h) 3 = x.pkt.plane →
        bitsAt s.fab.map.toNat (3 * h) 3 = x.pkt.plane) →
      exec (.npmapAdopt sock) s = .next (s.onRau sock (fun r => { r with map := s.fab.map }))) ∧
    (∀ (sock p : Nat) (d : BitVec 8), let r := s.rau sock
      s.fab.en = true → (r.flag d).shold = true → (r.flag d).rsynAt = none → r.txns = [] → p < 8 → s.fab.up.getLsbD p = true →
      (∀ q, q < p → s.fab.up.getLsbD q = false) →
      let n : NPacket := { NPacket.blank with
        nopc := 7, dmod := d, plane := p, fsyn := (r.flag d).fsyn, smod := s.fab.nmod, ssock := sock
        ntag := (lookupD 0 0 r.gens) ++ (0 : BitVec 10), pent := s.pentOf r d p }
      exec (.rsynResend sock d.toNat) s = .next ((s.onRau sock (fun r => { r.setFlag d { r.flag d with rsynAt := some s.time } with
        txns := [⟨0, n, [], none, 0, 0, s.time, none, false⟩] })).toPort sock n))

/-- RAU_SEND: a read on the plane of its address takes the first free entry, with its tag, and goes to the port; with the fabric disabled
an access ends UNREACH. A response whose NTAG names an outstanding access frees its entry, delivers the value of a read or atomic, and
counts OUT down for a write; a STAT other than OK, and a millisecond without a response, end it with class 14. RFAK of an RSYN ends the
hold; RNAK has the flag sent again 2 microseconds later (R71, R78 to R82, R84, R86, R90). The model's choices here: log 5, 6, 10, 14, 48
and 140. -/
def Obligations.RemoteAccessSteps : Prop :=
  ∀ (s : State) (sock : Nat), let r := s.rau sock
    let RauIs (t : State) (v : Rau) : Prop := t.rau sock = v ∧ ∀ x, x ≠ sock → t.rau x = s.rau x
    let freed (x : Txn) : Rau := { r with txns := [], gens := put x.idx (lookupD x.idx 0 r.gens + 1) r.gens }
    (∀ h : Held, r.held = [h] → h.pkt.nopc = 1 →
      (r.txns = [] → s.fab.en = true → (r.flag h.pkt.dmod).shold = false → s.fab.up.getLsbD (planeOf r.map h.pkt.pa.toNat) = true →
        let n : NPacket := { h.pkt with
          plane := planeOf r.map h.pkt.pa.toNat, ep := false, fsyn := 0, fseq := 0, cnt := List.replicate 8 0
          smod := s.fab.nmod, ssock := sock, ntag := (lookupD 0 0 r.gens) ++ (0 : BitVec 10)
          pent := s.pentOf r h.pkt.dmod (planeOf r.map h.pkt.pa.toNat) }
        exec (.rauSend sock 0) s = .next ((s.onRau sock (fun r => { r with
          held := [], txns := [⟨0, n, h.accs, h.warp, h.opId, h.grid, h.since.getD s.time, none, h.kept⟩] })).toPort sock n)) ∧
      (∀ (a : Access) (x : ThreadId), s.fab.en = false → h.accs = [a] → a.who = .lane x → s.issuerHere h.warp h.opId = true →
        (s.thread x).st ≠ .exited →
        Answers (exec (.rauSend sock 0) s) (fun t =>
          RauIs t { r with held := [] } ∧
          t.returns = s.returns ++ [⟨x, a.mark, [], some ⟨14, 0x40, BitVec.ofNat 64 a.pa, if a.reads then 0 else 2, none⟩⟩] ∧
          { t with fab := s.fab, returns := s.returns, warps := s.warps } = s))) ∧
    (∀ (n : NPacket) (x : Txn) (a : Access) (y : ThreadId), r.inbox = [n] → n.ce = false → r.txns = [x] → x.pkt.ntag = n.ntag →
      x.accs = [a] → a.who = .lane y → a.acq < 3 →
      let v : Rau := { freed x with inbox := [] }
      let only (t : State) : Prop := { t with fab := s.fab, returns := s.returns, warps := s.warps } = s
      (n.nopc = 0x10 → n.stat = 0 → x.pkt.nopc = 1 → maskSectors x.pkt.bmask = [a.pa / 64 % 2] → a.dest ≠ [] →
        Answers (exec (.rrsp sock 0) s) (fun t => RauIs t v ∧ only t ∧
          t.returns = s.returns ++ [⟨y, a.mark, a.regs ((nth 0 n.data 0).toNat / 256 ^ (a.pa % 64) % 256 ^ a.size), none⟩])) ∧
      (n.nopc = 0x11 → n.stat = 0 → x.pkt.nopc = 2 → a.dest = [] →
        let key := (x.pkt.ep, x.pkt.dmod.toNat, x.pkt.plane)
        Answers (exec (.rack sock 0) s) (fun t =>
          RauIs t { v with out := put key (lookupD key 0 r.out - 1) r.out } ∧ only t ∧ t.returns = s.returns)) ∧
      (n.nopc = 0x12 → n.stat = 0 → x.pkt.nopc = 3 → a.dest ≠ [] → a.size ≠ 16 →
        Answers (exec (.rars sock 0) s) (fun t => (t.rau sock).txns = [] ∧ only t ∧
          t.returns = s.returns ++ [⟨y, a.mark, a.regs (n.opa.toNat % 256 ^ a.size), none⟩])) ∧
      (∀ q ∈ ([(.rrsp sock 0, 0x10), (.rack sock 0, 0x11), (.rars sock 0, 0x12)] : List (Instr × BitVec 8)), n.nopc = q.2 →
        n.stat ≠ 0 → 1 ≤ x.pkt.nopc.toNat → x.pkt.nopc.toNat ≤ 4 → s.issuerHere x.warp x.opId = true → (s.thread y).st ≠ .exited →
        Answers (exec q.1 s) (fun t => (t.rau sock).txns = [] ∧ only t ∧
          t.returns = s.returns ++ [⟨y, a.mark, [], some ⟨14, if n.stat = 1 then 0x41 else if n.stat = 2 then 0x42 else 0x40,
            BitVec.ofNat 64 a.pa, if a.reads then 0 else 2, none⟩⟩]))) ∧
    (∀ (n : NPacket) (x : Txn), r.inbox = [n] → n.ce = false → r.txns = [x] → x.pkt.ntag = n.ntag →
      (n.nopc = 0x13 → x.pkt.nopc = 7 → x.pkt.fsyn = (r.flag x.pkt.dmod).fsyn →
        Answers (exec (.rfak sock 0) s) (fun t =>
          RauIs t ({ freed x with inbox := [] }.setFlag x.pkt.dmod { r.flag x.pkt.dmod with shold := false }) ∧
          { t with fab := s.fab } = s)) ∧
      (n.nopc = 0x14 → Answers (exec (.rnak sock 0) s) (fun t =>
        RauIs t { r with inbox := [], txns := [{ x with resendAt := some (s.time + 2 * microsecond) }] } ∧ { t with fab := s.fab } = s))) ∧
    (∀ x : Txn, r.txns = [x] →
      (∀ at', x.resendAt = some at' → at' ≤ s.time →
        exec (.flagResend sock 0) s =
          .next ((s.onRau sock (fun r => { r with txns := [{ x with resendAt := none }] })).toPort sock x.pkt)) ∧
      (∀ (a : Access) (y : ThreadId), x.sentAt + 1000 * microsecond ≤ s.time → x.pkt.nopc = 1 → x.accs = [a] → a.who = .lane y →
        s.issuerHere x.warp x.opId = true → (s.thread y).st ≠ .exited →
        Answers (exec (.remoteTimeout sock 0) s) (fun t => RauIs t (freed x) ∧
          t.returns = s.returns ++ [⟨y, a.mark, [], some ⟨14, 0x44, BitVec.ofNat 64 a.pa, if a.reads then 0 else 2, none⟩⟩] ∧
          { t with fab := s.fab, returns := s.returns, warps := s.warps } = s)))

/-- A request of another module at an I/O die: out of range it is answered STAT 1, an atomic of a reserved code is discarded, else it
makes one access of the far cache for each sector and waits in the service table, where that has room. A flag of another epoch is
discarded, one without a place refused with RNAK, else it waits; RSYN of a new epoch resets its source and goes to the peer, of the epoch
in force it is answered; OCHK of a reset is confirmed; OCNF performs the flag or answers the RSYN it names; NXRQ and NXRS go on to the
plane, or to the unit of their die (R76, R78 to R80, R82, R85, R86, R90, R110, R382). The model's choices here: log 5, 6, 13, 34, 138, 139
and 141. -/
def Obligations.RemoteServiceSteps : Prop :=
  (∀ (s : State) (iod k : Nat) (n : NPacket), nth? (s.port iod).arrivals k = some n →
    let u := s.onPort iod (fun p => { p with arrivals := removeNth p.arrivals k })
    let outside : Prop := localEnd ≤ n.pa.toNat % 2 ^ 44
    let op := (n.aop.extractLsb' 0 4).toNat
    let kept (v : NPacket) (a : Access) : State := { u.onPort iod (fun p => { p with service := put s.fresh v p.service }) with
      fresh := s.fresh + 1, coh := { s.coh with accesses := s.coh.accesses ++ [a] } }
    ((s.port iod).service.length < 1024 →
      (n.nopc = 1 → outside → exec (.rrd iod k) s = .next (u.answer n 1 0 [0])) ∧
      (n.nopc = 2 → outside → exec (.rwr iod k) s = .next (u.answer n 1 0 [])) ∧
      (∀ q ∈ ([(.ratm iod k, 3, false), (.rcas iod k, 4, true)] : List (Instr × BitVec 8 × Bool)), n.nopc = q.2.1 →
        (aopBad q.2.2 n = true → exec q.1 s = .next u) ∧
        (aopBad q.2.2 n = false → outside → exec q.1 s = .next (u.answer n 1 0 []))) ∧
      (∀ h, maskSectors n.bmask = [h] → ¬ outside →
        let pa := n.pa.toNat % 2 ^ 44 / 128 * 128 + 64 * h
        (n.nopc = 1 → exec (.rrd iod k) s = .next (kept { n with data := [0, 0] } (remoteAccess iod s.fresh .read pa 64 0 0 0))) ∧
        (∀ d, n.nopc = 2 → n.data = [d] → exec (.rwr iod k) s =
          .next (kept n (remoteAccess iod s.fresh .write pa 64 d.toNat (n.bmask.toNat / 2 ^ (64 * h) % 2 ^ 64) 0)))) ∧
      (∀ size, ¬ outside → size = 4 * 2 ^ (n.aop.extractLsb' 4 2).toNat → size ≠ 16 →
        let kind := AccKind.atom op (n.aop.extractLsb' 6 2).toNat
        (n.nopc = 3 → aopBad false n = false → exec (.ratm iod k) s = .next (kept n
          (remoteAccess iod s.fresh kind (n.pa.toNat % 2 ^ 44) size (n.opa.toNat % 256 ^ size) (2 ^ size - 1) 0))) ∧
        (n.nopc = 4 → aopBad true n = false → exec (.rcas iod k) s = .next (kept n
          (remoteAccess iod s.fresh kind (n.pa.toNat % 2 ^ 44) size (n.opa.toNat % 256 ^ size) (2 ^ size - 1)
            (n.opb.toNat % 256 ^ size)))))) ∧
    (let v := s.source iod n.source;
      (s.port iod).service.length < 1024 →
      (∀ q ∈ ([(.rflg iod k, 5), (.rnfl iod k, 6)] : List (Instr × BitVec 8)), n.nopc = q.2 →
        (n.fsyn ≠ v.sync → exec q.1 s = .next u) ∧
        (n.fsyn = v.sync → 256 ≤ (s.port iod).flags.countP (fun f => f.pkt.nopc != 7) →
          exec q.1 s = .next (u.sendFlits (nimTx n.plane) { nimAnswer s.fab.nmod n 0 0 [] with nopc := 0x14, ep := false })) ∧
        (n.fsyn = v.sync → n.fseq ≠ v.nextf → (s.port iod).flags = [] → (s.port iod).checks = [] →
          exec q.1 s = .next (u.onPort iod (fun p => { p with flags := [⟨n, false, false⟩] })))) ∧
      (n.nopc = 7 → (s.port iod).flags = [] → (s.port iod).checks = [] →
        (n.fsyn = v.sync → exec (.rsyn iod k) s = .next (u.answer n 0 0 [])) ∧
        (n.fsyn ≠ v.sync → exec (.rsyn iod k) s = .next ((u.onPort iod (fun p => { p with
          sources := put n.source ⟨[], 0, n.fsyn⟩ p.sources, flags := [⟨n, true, false⟩] })).sendCheck iod true n))))) ∧
  (∀ (s : State) (d : Nat) (p : Packet), nth? s.net.inbox s.pick = some (d, p) →
    let u := s.takeArrived
    (∀ n, checkOf d (nth 0 p.data 0) = n → p.opc = 0x64 →
      (n.nopc = 7 → n.fsyn = (s.source d n.source).sync → exec .ochk s = .next (u.sendConfirm d n)) ∧
      (n.nopc ≠ 7 → n.fsyn = (s.source d n.source).sync → n.fseq ≠ (s.source d n.source).nextf → (s.port d).flags = [] →
        (s.port d).checks = [] → exec .ochk s = .next (u.onPort d (fun v => { v with checks := [n] })))) ∧
    (∀ f : WaitingFlag, p.opc = 0x65 → (s.port d).flags = [f] → f.checked = true → f.pkt.source = (p.rmod, p.rsock) →
      f.pkt.fsyn.toNat = bitsAt p.sector 16 3 →
      let w := u.onPort d (fun v => { v with flags := [] })
      (p.sector.testBit 19 = true → f.pkt.nopc = 7 → exec .ocnf s = .next (w.answer f.pkt 0 0 [])) ∧
      (p.sector.testBit 19 = false → f.pkt.nopc = 6 → f.pkt.fseq.toNat = bitsAt p.sector 0 16 → (s.port d).service.length < 1024 →
        exec .ocnf s = .next (((w.setSource d f.pkt.source ((s.source d f.pkt.source).clear d f.pkt.fseq)).answer f.pkt 0 0 []).flagDone d
          f.pkt))) ∧
    (∀ (n : NPacket), nimUnwrap p = some n → ∀ q ∈ ([(.nxrq, 0x62), (.nxrs, 0x63)] : List (Instr × BitVec 8)), p.opc = q.2 →
      (n.dmod ≠ s.fab.nmod → 20 ≤ d → exec q.1 s = .next (u.sendFlits (nimTx n.plane) n)) ∧
      (n.dmod = s.fab.nmod → n.nopc.toNat < 0x20 →
        exec q.1 s = .next (u.onRau n.ssock (fun r => { r with inbox := r.inbox ++ [n] })))))

/-! ## Chits, service cores and Ethernet -/

/-- An invocation that reaches an entry breaks on a stale chit, inherits from a broken one, is queued at one that waits or whose producer
runs there, goes on to the location, or is released by a result; CTSK pushes a record into QSEL 64 to 79 of the global dispatcher and
drops others; CLOC sends the queue on; the first CRES ends the chit and releases or breaks its queue; CFRE frees a location's entry, and a
home's once its chit is complete (R93 to R97, R133, R415, R420). CACK lets the sender's next message about the chit go, and retires the
invocation that it counted; a reserve takes the lowest entry of its I/O die's table that may be issued, up to 64. A service core takes a
published descriptor and moves CIDX, and later returns a completion, where its ring has room, and moves PIDX. A frame for a connection
goes into its RX ring, a ring whose header breaks its rules is closed with STATE 3, and without room a frame holds its priority back under
flow control and else is dropped (R25, R94, R95, R115 to R117, R415). The model's choices here: log 2, 5, 6, 12, 16, 50, 57, 122, 124, 126
and 151. -/
def Obligations.ChitAndServiceSteps : Prop :=
  (∀ (s : State) (sock k : Nat) (m : ChitMsg), nth? s.chits.msgs k = some m → m.dsock = sock →
      let c := m.chit
      let i : Invocation := ⟨m.payload, m.other⟩
      let u := { s with chits := { s.chits with msgs := removeNth s.chits.msgs k } }
      (m.nopc = 0x20 → s.liveChit c = none →
        exec (.cinv sock k) s = .next ((u.breakChit sock m.other (brokenRec 3 0 c)).sendCack m)) ∧
      (m.nopc = 0x21 →
        (64 ≤ recQsel m.payload → recQsel m.payload ≤ 79 →
          exec (.ctsk sock k) s = .next ((u.pushRecord 20 ⟨m.payload, recQsel m.payload, false, 0, none, none⟩).sendCack m)) ∧
        (recQsel m.payload < 64 ∨ 79 < recQsel m.payload → recChv m.payload = true →
          exec (.ctsk sock k) s = .next (((u.launchEvent 20 0xFF 0x0A 0).breakChit 20 (recChit m.payload)
            (brokenRec 1 0 (recChit m.payload))).sendCack m))) ∧
      (∀ e, s.liveChit c = some e →
        let ended (st : ChitState) : State := u.setChit c { e with queue := [], spill := [], state := st, result := m.payload }
        (m.nopc = 0x20 →
          (e.state = .broken → exec (.cinv sock k) s = .next ((u.breakChit sock m.other (inheritRec e.result)).sendCack m)) ∧
          (e.state = .wait ∨ (e.state = .placed ∧ e.loc = some c) →
            exec (.cinv sock k) s = .next ((u.setChit c (e.enqueue i)).sendCack m)) ∧
          (∀ l, e.state = .placed ∨ e.state = .done → e.loc = some l → l ≠ c →
            exec (.cinv sock k) s = .next (((u.setChit c { e with forwarded := e.forwarded + 1 }).postChit
              { u.chitMsg 0x20 (chitSock c) l with payload := m.payload, other := m.other }).sendCack m)) ∧
          (e.state = .done → e.loc = none ∨ e.loc = some c →
            exec (.cinv sock k) s = .next ((u.releaseInvocation sock i e.result).sendCack m))) ∧
        (m.nopc = 0x22 → e.state = .wait →
          (e.queue = [] → e.spill = [] →
            exec (.cloc sock k) s = .next ((u.setChit c { e with loc := some m.other, state := .placed }).sendCack m)) ∧
          (∀ q, e.queue = [q] → e.spill = [] →
            exec (.cloc sock k) s = .next (((u.setChit c { e with loc := some m.other, state := .placed, queue := [] }).forwardOne c m.other
              q).sendCack m))) ∧
        (m.nopc = 0x23 →
          (e.state = .done ∨ e.state = .broken → exec (.cres sock k) s = .next (u.sendCack m)) ∧
          (∀ q, e.state = .wait ∨ e.state = .placed → e.queue = [q] → e.spill = [] → e.release = false →
            (m.broken = false →
              exec (.cres sock k) s = .next (((ended .done).releaseInvocation sock q m.payload).sendCack m)) ∧
            (m.broken = true →
              exec (.cres sock k) s = .next (((ended .broken).breakChit sock q.chit (inheritRec m.payload)).sendCack m)))) ∧
        (m.nopc = 0x24 →
          (e.locOnly = true → e.queue = [] → e.spill = [] → exec (.cfre sock k) s = .next ((u.freeEntry c).sendCack m)) ∧
          (e.locOnly = false → e.state = .wait ∨ e.state = .placed →
            exec (.cfre sock k) s = .next ((u.setChit c { e with release := true }).sendCack m)) ∧
          (e.locOnly = false → e.state = .done ∨ e.state = .broken → e.forwarded = 0 → e.loc = none ∨ e.loc = some c →
            exec (.cfre sock k) s = .next (((u.setChit c { e with release := true }).freeEntry c).sendCack m))))) ∧
  (∀ s : State,
      (∀ (sock k : Nat) (m : ChitMsg), nth? s.chits.msgs k = some m → m.dsock = sock → m.nopc = 0x25 → m.smod = s.fab.nmod → m.chit ≠ 0 →
        s.chits.waiting = [] → (∀ p ∈ s.chits.tables, p.1.1 = sock → p.2.loc ≠ some m.chit) →
        let u := { s with chits := { s.chits with msgs := removeNth s.chits.msgs k, unacked := s.chits.unacked.erase (sock, m.chit) } }
        (m.warp = none → exec (.cack sock k) s = .next u) ∧
        (∀ w, m.warp = some w → exec (.cack sock k) s = .next (u.opDone w 4 m.opId))) ∧
      (∀ die iod, die ≤ 7 → iod = 20 ∨ iod = 21 →
        let r := lookupD (die, iod) [] s.chits.reserves
        (64 ≤ r.length → exec (.chitReserveRefill die iod) s = .next s) ∧
        (∀ i, r.length < 64 → s.freeChit iod = some i →
          exec (.chitReserveRefill die iod) s =
            .next { s with chits := { s.chits with reserves := put (die, iod) (r ++ [i]) s.chits.reserves } })) ∧
      (∀ (die svc : Nat), die < 8 → svc < 16 → s.moduleReady = true →
        let a := Config.requestRing die svc
        let b := Config.completionRing die svc
        let site := serviceDie svc
        let took (t : State) (r : List ((Nat × Nat) × BitVec 512)) : State := { t with service := { t.service with requests := r } }
        (lookup? (die, svc) s.service.requests = none →
          (∀ sec, s.ringHead site a = .error sec → exec (.serviceRequest die svc) s = .next (s.await site sec false)) ∧
          (∀ h, s.ringHead site a = .ok (some h) → h.fill = 0 ∨ h.size < h.fill → exec (.serviceRequest die svc) s = .next s) ∧
          (∀ h bs t, s.ringHead site a = .ok (some h) → h.fill ≠ 0 → h.fill ≤ h.size →
            s.physRead site 0 (a + 64 + 64 * (h.cidx % h.size)) 64 = .ok bs → s.writeAll site [(a + 8, bytesOfNat 4 (h.cidx + 1))] = .ok t →
            exec (.serviceRequest die svc) s =
              .next (took t (put (die, svc) (BitVec.ofNat 512 (natOfBytes bs)) t.service.requests)))) ∧
        (∀ d, lookup? (die, svc) s.service.requests = some d →
          (∀ sec, s.ringHead site b = .error sec → exec (.serviceRequest die svc) s = .next (s.await site sec false)) ∧
          (∀ c, s.ringHead site b = .ok (some c) → c.size ≤ c.fill → exec (.serviceRequest die svc) s = .next s) ∧
          (∀ c t, s.ringHead site b = .ok (some c) → c.fill < c.size →
            ({ s with openVals := s.openVals + 8 }).writeAll site
              [(b + 64 + 64 * (c.pidx % c.size), openCompletion s.openVals), (b, bytesOfNat 4 (c.pidx + 1))] = .ok t →
            exec (.serviceRequest die svc) s = .next (took t (drop (die, svc) t.service.requests))))) ∧
      (∀ (iod conn prio : Nat) (data : List Byte), s.moduleReady = true → iod = 20 ∨ iod = 21 → prio < 8 → conn < 65536 →
        s.portByte iod 10 1 ≠ 0 → data.length ≤ s.portByte iod 12 2 → conn ∉ s.service.closed →
        let a := Config.rxRing conn
        let placed (h : StreamHead) : Except Nat State := s.writeAll iod
          (streamWrites (a + 64) h.size h.pidx data ++ [(a, bytesOfNat 4 (h.pidx + data.length))])
        exec (.ethernetFrameReceive iod conn prio data) s =
          .next (match s.streamHead iod a with
            | .error sec => s.await iod sec true
            | .ok none => s
            | .ok (some h) =>
              if h.bad = true then (match s.writeAll iod [(a + 16, [3])] with
                | .error sec => s.await iod sec true
                | .ok t => { t with service := { t.service with closed := conn :: t.service.closed } })
              else if h.state ≠ 0 then s
              else if h.size < h.fill + data.length then
                (if (s.portByte iod 11 1).testBit prio = true then s.setPaused iod prio true else s)
              else (match placed h with | .error sec => s.await iod sec true | .ok t => t.setPaused iod prio false))))

/-! ## Task records, queues and dispatchers -/

/-- QCFG: LOG below 4 is a write error; THRM and EN are written, ERRC keeps the bits not written with 1, and LOG changes only while EN is
0; a queue enabled anew accepts again. RECORD_ACCEPT takes a published record once CONS has moved on: without a fault of R129 it becomes a
grid at the end of its dispatcher's order, else it is rejected with its code and event 0x0A; a fault on the queue stops acceptance with
0x0C (R129 to R132, R134). HW_PUSH drops a record that names no queue of its dispatcher, with QUEUE 0xFF in the event, hands one for a
device queue to the global dispatcher, and pushes another: RESV moves on, then the slot is written in the phase that publishes it; a full
queue waits. An item's priority rises by one for each 100 microseconds; a die reports its free entries; the global dispatcher sends a
batch of the first grid to a die; a die dispatcher places its first item on the first core from its cursor that can hold it (R130, R131,
R133 to R138). The model's choices here: log 6, 9, 12, 39, 43, 45, 46, 59 and 130. -/
def Obligations.QueueAndDispatchSteps : Prop :=
  (∀ (s : State) (disp n : Nat), hasQueue disp n = true →
      let q := s.queue disp n
      (∀ v : BitVec 32,
        ((v.extractLsb' 1 4).toNat < 4 → ∀ i ∈ [Instr.queueEnable disp n v, .queueDisable disp n v, .qcfgErrcClear disp n v],
          (i = .queueEnable disp n v → v.getLsbD 0 = true) → (i = .queueDisable disp n v → v.getLsbD 0 = false) →
          (i = .qcfgErrcClear disp n v → v.getLsbD 0 = q.en) →
          exec i s = .next { s with mgmt := { s.mgmt with writeErrors := s.mgmt.writeErrors + 1 } }) ∧
        (4 ≤ (v.extractLsb' 1 4).toNat →
          let q1 : Queue := { q with thrm := v.getLsbD 5, errc := q.errc &&& ~~~ v.extractLsb' 8 8 }
          let q2 : Queue := { q1 with log := v.extractLsb' 1 4 }
          (v.getLsbD 0 = true → exec (.queueEnable disp n v) s =
            .next (s.setQueue disp n (if q.en then q1 else { q2 with en := true, stuck := false }))) ∧
          (v.getLsbD 0 = false → exec (.queueDisable disp n v) s =
            .next (s.setQueue disp n (if q.en then { q1 with en := false } else q2))) ∧
          (v.getLsbD 0 = q.en → exec (.qcfgErrcClear disp n v) s = .next (s.setQueue disp n (if q.en then q1 else q2))))) ∧
      (s.takesWork disp = true → q.en = true → q.stuck = false →
        (∀ i, s.published disp n = .ok (i, none) → exec (.recordAccept disp n) s = .next s) ∧
        (∀ va, s.published disp n = .error (.fault va) →
          exec (.recordAccept disp n) s =
            .next ((s.setQueue disp n { q with errc := 0x0C, stuck := true }).launchEvent disp n 0x0C va.toNat)) ∧
        (∀ i r t, s.published disp n = .ok (i, some r) → s.advanceCons disp n i = .ok t → recChv r = false →
          (∀ code, recFault r = some code → exec (.recordAccept disp n) s =
            .next ((t.setQueue disp n { t.queue disp n with errc := BitVec.ofNat 8 code }).launchEvent disp n code (q.slotVa i).toNat)) ∧
          (recFault r = none → recJinit r = 0 →
            let g : Grid := {
              disp := disp, queue := some n, index := i, record := r, acceptedAt := t.time, asid := (t.queue disp n).asid
              thrm := (t.queue disp n).thrm, nextElem := 0, finished := 0, brk := none, loc := none, fatal := none, gone := false }
            exec (.recordAccept disp n) s = .next ({ t with fresh := t.fresh + 1, grids := put t.fresh g t.grids }.onDisp disp
              (fun d => { d with items := d.items ++ [(⟨t.fresh, 0, false, t.time, recPrio r, recPrio r⟩ : Item)] })))))) ∧
  (∀ (s : State) (disp : Nat), let d := s.dispatcher disp
      (∀ (p : Push) (rest : List Push), d.hold = p :: rest → d.holdSpill = [] →
        let w := s.onDisp disp (fun d => { d with hold := rest })
        (79 < p.queue ∨ (p.queue < 64 ∧ 8 ≤ disp) → p.cont = false → recChv p.record = false →
          exec (.hwPush disp 0) s = .next (w.launchEvent disp 0xFF 0x0A 0)) ∧
        (64 ≤ p.queue → p.queue ≤ 79 → disp ≠ 20 → exec (.hwPush disp 0) s = .next (w.pushRecord 20 { p with op := none })) ∧
        (∀ n, n = p.queue % 64 → (p.queue < 64 ∧ disp < 8) ∨ (64 ≤ p.queue ∧ p.queue < 80 ∧ disp = 20) →
          let q := s.queue disp n
          q.en = true → q.stuck = false → p.frameCopy = none → ∀ bs, s.dispRead disp q.asid q.va 16 1 = .ok bs →
          let resv := natOfBytes (bs.take 8)
          let used := (resv + 2 ^ 64 - natOfBytes (bs.drop 8)) % 2 ^ 64
          (2 ^ q.log.toNat ≤ used → exec (.hwPush disp 0) s = .next s) ∧
          (∀ u v, used < 2 ^ q.log.toNat → s.dispWrite disp q.asid q.va (bytesOfNat 8 (resv + 1)) = .ok u →
            u.dispWrite disp q.asid (q.slotVa resv) (bytesOfNat 64 (recSet p.record 63 1 (q.phase resv)).toNat) = .ok v →
            exec (.hwPush disp 0) s = .next (v.takeHeld disp 0)))) ∧
      (∀ k i, nth? d.items k = some i → i.prio < 7 →
        (i.since + 100 * microsecond * (i.prio + 1 - i.base) ≤ s.time →
          exec (.priorityPromote disp k) s = .next (s.setDispatcher disp { d with items := setNth { i with prio := i.prio + 1 } d.items k })) ∧
        (s.time < i.since + 100 * microsecond * (i.prio + 1 - i.base) → exec (.priorityPromote disp k) s = .next s)) ∧
      (disp < 8 → exec (.freeReport disp) s = .next (s.onDisp 20 (fun d => { d with
        free := put disp (256 - s.batchUsed disp) d.free, weights := put disp (s.dieWeight disp) d.weights }))) ∧
      (∀ i g k, s.firstItem 20 = some i → s.grid? i.grid = some g → g.disp = 20 → i.saved = false → i.element = g.nextElem →
        recChv g.record = false →
        let n := Nat.min (64 / recMembers g.record) (recElements g.record - g.nextElem)
        s.batchDie g.thrm (s.batchDies (n * recMembers g.record)) = some k →
        let next := g.nextElem + n
        let items := (s.dispatcher 20).items
        Answers (exec .batchSend s) (fun t =>
          t.dispatcher k = { s.dispatcher k with
            batch := (s.dispatcher k).batch ++ (List.range n).map (fun m => { i with element := i.element + m }) } ∧
          t.dispatcher 20 = { s.dispatcher 20 with
            lastDie := k, free := put k (lookupD k 0 (s.dispatcher 20).free - n * recMembers g.record) (s.dispatcher 20).free
            items := if next < recElements g.record then items.map (fun (x : Item) => if x = i then { x with element := next } else x)
              else items.erase i } ∧
          t.grid? i.grid = some { g with nextElem := next } ∧ { t with disp := s.disp, grids := s.grids } = s)) ∧
      (∀ i g, disp < 8 → s.takesWork disp = true → (s.die disp).wreq = false → s.firstItem disp = some i → s.grid? i.grid = some g →
        g.thrm = false →
        (recBps g.record = 0 →
          ((∀ c, c < 192 → s.canHold disp c i 0 = false) → exec (.placeItem disp) s = .next s) ∧
          (∀ j c, j < 192 → c = (d.coreCursor + j) % 192 → s.canHold disp c i 0 = true →
            (∀ m, m < j → s.canHold disp ((d.coreCursor + m) % 192) i 0 = false) →
            exec (.placeItem disp) s =
              .next ((s.seatItem disp [c] i).onDisp disp (fun d => { d with coreCursor := (c + 1) % 192 })))) ∧
        (0 < recBps g.record → ∀ j k cs, j < 4 → k = (d.clusterCursor + j) % 4 → s.spreadCores disp k i = some cs →
          (∀ m, m < j → s.spreadCores disp ((d.clusterCursor + m) % 4) i = none) →
          exec (.placeItem disp) s =
            .next ((s.seatItem disp cs i).onDisp disp (fun d => { d with clusterCursor := (k + 1) % 4 })))))

/-! ## Pre-emption, halts and dumps -/

/-- PEREQ is refused with a write error or queued; a request halts the victims of its cores, or reserves an empty one at once and ends
DONE; a victim wholly halted and drained is saved, and gives its place up once the save is done; TOUT resumes what has not halted and ends
the request LATE; reservations lapse 100 microseconds after their request; a context read back goes into its new bundle. The halt
broadcast halts a grid's bundles on a die and discards its unplaced work; a forced halt stops a thread at a run boundary; the dump ends
the grid with an event (R142 to R149, R263, R264). The model's choices here: log 6, 12, 42, 79 and 81. -/
def Obligations.PreemptionSteps : Prop :=
  ∀ (s : State) (die : Nat),
    (∀ v : BitVec 32, die < 8 → v.getLsbD 18 = true →
      let id := bitsAt v.toNat 16 2
      let count := bitsAt v.toNat 0 8
      let refused := count = 0 ∨ (if v.getLsbD 8 then 4 else 192) < count ∨ v.extractLsb' 12 4 = 0 ∨
        (s.pestatOf die id).st ∈ [PeStage.queued, .halting, .saving]
      (refused → exec (.pereqSubmit die v) s = .next { s with mgmt := { s.mgmt with writeErrors := s.mgmt.writeErrors + 1 } }) ∧
      (¬ refused → exec (.pereqSubmit die v) s = .next (s.onDisp die (fun d => { d with
        pestat := put id ⟨.queued, false, 0⟩ d.pestat, reqs := d.reqs ++ [pereqOf v] })))) ∧
    (∀ (r : PeReq) (c : Nat) (us : List (List Nat)), (s.dispatcher die).reqs = [r] → r.begun = false → r.dieoff = false → r.id < 4 →
      r.count = 1 → r.late = false →
      (s.rankedUnits die r = [] →
        exec (.preemptStart die) s = .next ((s.onDisp die (fun d => { d with
          reqs := [], reserved := d.reserved.map (fun (x : Nat × Nat × Option Nat) => (x.1, x.2.1, x.2.2.or (some s.time))) })).onPestat
            die r.id (fun p => { p with trim := false, st := .none }))) ∧
      (s.rankedUnits die r = [c] :: us →
        (s.residents die c = [] → s.reservedCore die c = false → s.shadowUsed die ≤ shadowSize →
          exec (.preemptStart die) s = .next ((s.onDisp die (fun d => { d with
            reqs := [], reserved := (d.reserved ++ [(c, r.prio, none)]).map (fun (x : Nat × Nat × Option Nat) =>
              (x.1, x.2.1, x.2.2.or (some s.time))) })).onPestat die r.id (fun p => { p with trim := false, got := p.got + 1, st := .done }))) ∧
        (∀ b v, s.residents die c = [(b, v)] → v.begun = true → v.prio < r.prio → s.spreadOf die v = [(c, b)] →
          s.shadowUsed die + s.saveBytes die [(c, b)] ≤ shadowSize →
          exec (.preemptStart die) s = .next (((s.onPestat die r.id (fun p => { p with trim := false, st := .halting })).haltBundle
            ⟨die, c⟩ b (.save r.id)).setRequest die r (some { r with begun := true, start := s.time, victims := [(c, b)] }))))) ∧
    (∀ (r : PeReq) (v : Nat × Nat) (x : Saved), s.inService die = some r → r.victims = [v] → x = s.capture ⟨die, v.1⟩ v.2 →
      (∀ b, lookup? v.2 (s.core ⟨die, v.1⟩).bundles = some b →
        (r.saved = [] → s.restoring ⟨die, v.1⟩ v.2 = false → s.whollyHalted die v = true → s.bundleDrained ⟨die, v.1⟩ v.2 = true →
          exec (.bundleSave die 0) s = .next (({ s with
            shadow := s.shadow ++ [{ x with far := decide (shadowSize < s.shadowUsed die + x.image.length) }] }.setRequest die r
              (some { r with saved := [v] })).onPestat die r.id (fun p => { p with st := .saving }))) ∧
        (r.saved = [v] →
          let r' := { r with victims := [], saved := [] }
          exec (.saveDone die 0) s = .next ((((((s.keepSpread ⟨die, v.1⟩ b).leaveCore ⟨die, v.1⟩ v.2).readySaved die r b).reserve die r' v.1).endRequest die r'
            (if r.late then .late else .done)))) ∧
        (r.tout ≠ 0 → r.late = false →
          (s.time < r.start + 10 * r.tout * microsecond → exec (.preemptTimeout die) s = .next s) ∧
          (r.start + 10 * r.tout * microsecond ≤ s.time → s.whollyHalted die v = false →
            exec (.preemptTimeout die) s = .next ((s.resumeBundle ⟨die, v.1⟩ v.2).endRequest die { r with late := true, victims := [] }
              .late))))) ∧
    (∀ core, exec (.reservationLapse die core) s = .next (s.onDisp die (fun d => { d with
      reserved := d.reserved.filter (fun (x : Nat × Nat × Option Nat) =>
        !(decide (x.1 = core) && (match x.2.2 with | some t => decide (t + 100 * microsecond ≤ s.time) | none => false))) }))) ∧
    (∀ k v core b, nth? s.shadow k = some v → v.restoring = some (core, b) → v.die = die → (s.bundleAt ⟨die, core⟩ b).begun = true →
      exec (.contextRestoreDone die k) s = .next ({ s with shadow := removeNth s.shadow k }.restoreContext v ⟨die, core⟩ b (!v.far))) ∧
    (∀ (grid : Nat) (g : Grid) (f : Fatal), s.grid? grid = some g → g.fatal = some f → g.gone = false →
      (die < 8 → (∀ p ∈ f.reached, p.1 ≠ die) →
        let u := s.setGrid grid { g with fatal := some { f with reached := f.reached ++ [(die, s.time)] } }
        (s.gridBundles die grid = [] →
          exec (.haltBroadcast die grid) s = .next ((u.discardItems die grid).discardItems g.disp grid)) ∧
        (∀ c b v, s.gridBundles die grid = [(c, b)] → lookup? b (s.core c).bundles = some v → v.begun = true →
          exec (.haltBroadcast die grid) s =
            .next (((u.haltBundle c b (.fatal grid)).discardItems die grid).discardItems g.disp grid))) ∧
      (∀ c b w x, s.forcedHalt grid die = true → s.gridBundles die grid = [(c, b)] → s.warpsOf c b = [w] →
        (s.warp w).halt = some (.fatal grid) → w.threads.filter (fun x => (s.thread x).forceable) = [x] →
        exec (.haltForceTimeout die grid) s = .next ((s.haltThread x).markForced grid)) ∧
      (∀ u addr len, s.dumpReady grid f = true → s.writeDump g f grid = .ok (u, addr, len) → recChv g.record = false →
        exec (.dumpWrite grid) s = .next ((u.raiseEvent 0x0A g.disp (dumpDetail addr len f.trap)).dropGrid grid)))

/-! ## Endpoints, die states, events and attestation -/

/-- A request from a source that its type does not allow is answered DENIED, of an unknown type BADTYPE, else carried out and answered:
PING with OK, REGRD with the register's value, REGWR after writing it, LOSTCLR after clearing LOSTB of the sector at that offset of the
stack, MEXT after extending MR4 to MR7, ATTEST with the report in twelve replies, OWNKEY after storing an admitted key, EVPOST after
raising a class of 0x40 or more; UNMAP once V is clear in every entry and no access to the page is still to be performed, RDROP once the
replica lines are gone; a reply for the host is written into its ring (R64, R66, R109 to R112, R120, R123 to R125, R193). The model's
choices here: log 4, 6, 111, 112, 113, 114, 117 and 120. -/
def Obligations.MessageSteps : Prop :=
  (∀ (s : State) (m : EpMsg), nth? s.mgmt.requests s.pick = some m →
    let u : State := { s with mgmt := { s.mgmt with requests := removeNth s.mgmt.requests s.pick } }
    let die := if m.dsock < 8 then m.dsock else 0
    (∀ p ∈ ([(.ping, 0x01, anyone), (.regrd, 0x10, [.host, .dieManager]), (.regwr, 0x11, [.host]),
        (.unmap, 0x20, [.host, .dieManager, .serviceCore]), (.rdrop, 0x21, [.host]), (.lostclr, 0x22, [.dieManager]), (.dieoff, 0x30, [.host]),
        (.dieon, 0x31, [.host]), (.evpost, 0x40, [.dieManager, .serviceCore]), (.mext, 0x50, [.host]), (.attest, 0x51, [.host]),
        (.ownkey, 0x52, [.host])] : List (Instr × BitVec 16 × List Sender)),
      m.typ = p.2.1 → m.sender ∉ p.2.2 → exec p.1 s = .next (u.reply m 2)) ∧
    (m.typ ∉ ([0x01, 0x10, 0x11, 0x20, 0x21, 0x22, 0x30, 0x31, 0x40, 0x50, 0x51, 0x52] : List (BitVec 16)) →
      exec .endpointBadtype s = .next (u.reply m 4)) ∧
    (m.typ = 0x01 → exec .ping s = .next (u.reply m 0)) ∧
    (m.typ = 0x10 → m.sender = .host ∨ m.sender = .dieManager →
      exec .regrd s = .next (u.reply m 0 m.arg (bytesOfNat 4 (s.readBlock m.arg.toNat).toNat))) ∧
    (m.typ = 0x11 → m.sender = .host →
      exec .regwr s = .next ((u.writeBlock m.arg.toNat (BitVec.ofNat 32 (natOfBytes (m.body.take 4)))).reply m 0 m.arg)) ∧
    (m.typ = 0x20 → m.sender ≠ .other → s.mgmt.unmaps = [] →
      (s.leafOf die m.asid m.va = .ok none → exec .unmap s = .next ((u.shootDown m.asid m.va).reply m 0)) ∧
      (∀ l t, s.leafOf die m.asid m.va = .ok (some l) → s.clearEntries die (l.entries m.va) = .ok t → t.mgmt.unmaps = [] →
        let size := pageBytes l.entry
        let base := pteOut l.entry
        let w := t.takeRequest.shootDown m.asid m.va
        (w.pageBusy base size = false → exec .unmap s = .next (w.reply m 0)) ∧
        (w.pageBusy base size = true →
          exec .unmap s = .next ({ w with mgmt := { w.mgmt with unmaps := [(m, base, size)] } }.cleanPage base size)))) ∧
    (m.typ = 0x21 → m.sender = .host →
      (s.leafOf die m.asid m.va = .ok none → exec .rdrop s = .next (u.reply m 0)) ∧
      (∀ l, s.leafOf die m.asid m.va = .ok (some l) →
        exec .rdrop s = .next ((u.dropReplicas m.dsock (pteOut l.entry % 2 ^ 44) (pageBytes l.entry)).reply m 0))) ∧
    (∀ sec, m.typ = 0x22 → m.sender = .dieManager → sec * 64 < localEnd → homeSock sec = m.dsock →
      stackOffset (sec * 64) = m.arg.toNat % 2 ^ 30 * 64 →
      exec .lostclr s = .next ((u.setHome sec { s.homeEntry sec with lostb := false }).reply m 0)) ∧
    (m.typ = 0x40 → m.sender = .dieManager ∨ m.sender = .serviceCore →
      (m.arg.toNat % 256 < 0x40 → exec .evpost s = .next (u.reply m 2)) ∧
      (0x40 ≤ m.arg.toNat % 256 → exec .evpost s = .next ((u.report (m.arg.toNat % 256) m.ssock (natOfBytes m.body)).reply m 0))) ∧
    (m.typ = 0x50 → m.sender = .host →
      (4 ≤ m.arg.toNat → m.arg.toNat ≤ 7 →
        exec .mext s = .next ((u.extendMr m.arg.toNat (BitVec.ofNat 256 (natOfBytes (m.body.take 32)))).reply m 0 m.arg)) ∧
      (¬ (4 ≤ m.arg.toNat ∧ m.arg.toNat ≤ 7) → exec .mext s = .next (u.reply m 2))) ∧
    (m.typ = 0x51 → m.sender = .host →
      exec .attest s = .next (([0, 1, 2, 3, 4, 5, 6, 7, 8, 9, 10, 11] : List Nat).foldl (fun t i =>
        t.reply m 0 (BitVec.ofNat 32 (240 * i)) (((s.attestation m.body).drop (240 * i)).take 240)) u)) ∧
    (m.typ = 0x52 → m.sender = .host →
      exec .ownkey s = .next (if s.ownerAdmitted m = true then { u with boot := { s.boot with
        ownerStored := some (BitVec.ofNat 256 (natOfBytes (m.body.take 32)))
        flashCounter := BitVec.ofNat 32 (natOfBytes ((m.body.drop 32).take 4)) } }.reply m 0 else u.reply m 3))) ∧
  (∀ (s : State) (d : Nat) (p : Packet), nth? s.net.inbox s.pick = some (d, p) →
    let u := s.takeArrived
    (p.opc = 0x60 →
      let m : EpMsg := { p.message with dsock := d }
      exec .eprq s = .next { u with mgmt := if m.dep = 0 then { s.mgmt with requests := s.mgmt.requests ++ [m] }
        else { s.mgmt with delivered := s.mgmt.delivered ++ [m] } }) ∧
    (p.opc = 0x61 →
      exec .eprs s = .next { u with mgmt := if p.message.dsock = 255 then { s.mgmt with replies := s.mgmt.replies ++ [p.message] }
        else { s.mgmt with delivered := s.mgmt.delivered ++ [p.message] } })) ∧
  (∀ (s : State) (r : EpMsg) (rest : List EpMsg), s.mgmt.replies = r :: rest →
    (s.mgmt.hmbEn = false ∨ Nat.min s.mgmt.ringSize 65535 ≤ (s.mgmt.hmbRprod - s.mgmt.hmbRcons).toNat →
      exec .replyWrite s = .next s) ∧
    (s.mgmt.hmbEn = true → (s.mgmt.hmbRprod - s.mgmt.hmbRcons).toNat < Nat.min s.mgmt.ringSize 65535 → s.mgmt.hmbProd = s.mgmt.hmbCons →
      let at' := s.mgmt.ringBase + 256 * s.mgmt.ringSize + 256 * (s.mgmt.hmbRprod.toNat % s.mgmt.ringSize)
      exec .replyWrite s = .next { s with mgmt := ({ s.mgmt with
        replies := rest, hostMem := writeCells at' r.bytes s.mgmt.hostMem, hmbRprod := s.mgmt.hmbRprod + 1 } : Mgmt).writeIndex }))

/-- DIEOFF is refused for an I/O die, BUSY in DRAIN or while another memory die is out, OK for a die OFFLINE, and else begins the drain,
of a compute die with a request for all its clusters; a drained die is OFFLINE and its request answered. A memory die in DRAIN is answered
REFUSED where a structure of the machine's own lies in local memory or no room is left for a page, and else has its pages migrated to far
memory one after another until no leaf maps local memory; DIEON brings a compute die back at once and has a memory die retrained, which
comes back zeroed. The arbiter numbers a record and holds it for its class's owner, into whose ring it goes while there is room (R113,
R114, R118 to R121, R148). The model's choices here: log 6, 9, 12, 115, 116 and 150. -/
def Obligations.DieAndEventSteps : Prop :=
  (∀ (s : State) (m : EpMsg), nth? s.mgmt.requests s.pick = some m → m.sender = .host →
    let k := m.dsock
    let u : State := { s with mgmt := { s.mgmt with requests := removeNth s.mgmt.requests s.pick } }
    let noted (t : State) : State := { t with mgmt := { t.mgmt with draining := t.mgmt.draining ++ [(k, m)] } }
    (m.typ = 0x30 →
      (20 ≤ k → exec .dieoff s = .next (u.reply m 3 3)) ∧
      (k < 20 → s.stateOf k = 1 → exec .dieoff s = .next (u.reply m 1)) ∧
      (k < 20 → s.stateOf k = 2 → exec .dieoff s = .next (u.reply m 0)) ∧
      (8 ≤ k → k < 20 → s.stateOf k = 0 →
        ((∃ j, 8 ≤ j ∧ j < 20 ∧ j ≠ k ∧ s.stateOf j ≠ 0) → exec .dieoff s = .next (u.reply m 1)) ∧
        ((∀ j, 8 ≤ j → j < 20 → j ≠ k → s.stateOf j = 0) → exec .dieoff s = .next (noted (u.setDieState k 1)))) ∧
      (k < 8 → s.stateOf k = 0 → (s.dispatcher k).items = [] → (s.dispatcher k).batch = [] →
        exec .dieoff s = .next ((noted (u.setDieState k 1)).onDisp k (fun d => { d with
          batch := [], items := [], reqs := d.reqs ++ [dieoffReq] })))) ∧
    (m.typ = 0x31 →
      (s.stateOf k = 0 → exec .dieon s = .next (u.reply m 0)) ∧
      (8 ≤ k → s.stateOf k = 2 → exec .dieon s = .next (noted u)) ∧
      (k < 8 → s.stateOf k = 2 → (∀ x ∈ s.mgmt.draining, x.1 ≠ k) →
        exec .dieon s = .next (((u.setDieState k 0).onDisp k (fun d => { d with
          reqs := d.reqs.filter (fun r => !r.dieoff || r.begun) })).reply m 0)))) ∧
  (∀ (s : State) (k : Nat) (m : EpMsg), s.mgmt.draining = [(k, m)] →
    let rid (t : State) : State := { t with mgmt := { t.mgmt with draining := [] } }
    (k < 8 → s.stateOf k = 1 → (s.dispatcher k).reqs = [] → s.locationsOn k = [] → s.dieEmpty k = true → ∀ why,
      exec (.dieDrainDone k why) s = .next ((rid (s.setDieState k 2)).reply m 0)) ∧
    (8 ≤ k → k < 20 → (∀ x t, s.mgmt.migration = some x → s.migrateStep s.movingDie x = .ok t → ∀ why,
      exec (.dieDrainDone k why) s = .next t)) ∧
    (8 ≤ k → k < 20 → s.stateOf k = 1 → s.mgmt.migration = none →
      (∀ why : BitVec 3, why = 1 ∨ why = 2 ∨ why = 4 →
        exec (.dieDrainDone k why) s = .next ((rid s).reply m 3 (BitVec.ofNat 32 why.toNat))) ∧
      (∀ mp, s.mapped s.movingDie = .ok mp →
        (s.localStructure mp = true → exec (.dieDrainDone k 0) s = .next ((rid s).reply m 3 4)) ∧
        (s.localStructure mp = false →
          (mp.leaves.find? s.mapsLocal = none → exec (.dieDrainDone k 0) s = .next ((rid (s.setDieState k 2)).reply m 0)) ∧
          (∀ l, mp.leaves.find? s.mapsLocal = some l →
            (s.farRoom mp (pageBytes l.entry) = none → exec (.dieDrainDone k 0) s = .next ((rid s).reply m 3 2)) ∧
            (∀ d, s.farRoom mp (pageBytes l.entry) = some d → exec (.dieDrainDone k 0) s = .next (s.beginMigration mp l d)))))) ∧
    (8 ≤ k → k < 20 → s.stateOf k = 2 →
      exec (.memoryDieRestoreDone k) s = .next ((rid ((s.clearStack k).setDieState k 0)).reply m 0))) ∧
  (∀ (s : State) (d : Nat) (p : Packet), nth? s.net.inbox s.pick = some (d, p) → p.opc = 0x66 → d = 20 →
    let e := EventRec.ofNum (nth 0 p.data 0).toNat
    exec .evnt s = .next { s.takeArrived with mgmt := { s.mgmt with
      evSeq := s.mgmt.evSeq + 1
      events := s.mgmt.events ++ [{ e with seq := s.mgmt.evSeq, owner := some (ownerOf (s.route e.cls.toNat)) }] } }) ∧
  (∀ (s : State) (e : EventRec) (owner : Nat), s.mgmt.events.find? (fun e => decide (e.owner = some owner)) = some e →
    let size := 2 ^ s.mgmt.evLog.toNat
    (owner = 0 →
      (s.mgmt.evEn = false ∨ size ≤ (s.mgmt.evPi - s.mgmt.evCi).toNat → exec (.eventDeliver owner) s = .next s) ∧
      (s.mgmt.evEn = true → (s.mgmt.evPi - s.mgmt.evCi).toNat < size →
        let at' := (s.mgmt.evbh ++ s.mgmt.evbl).toNat / 4096 * 4096 + 32 * (s.mgmt.evPi.toNat % size)
        exec (.eventDeliver owner) s = .next { s with mgmt := { s.mgmt with
          evPi := s.mgmt.evPi + 1, hostMem := writeCells at' e.bytes s.mgmt.hostMem, events := s.mgmt.events.erase e } })) ∧
    (owner ≠ 0 →
      (lookup? owner s.mgmt.evring = none → exec (.eventDeliver owner) s = .next s) ∧
      (∀ ring h u v, lookup? owner s.mgmt.evring = some ring →
        let a := ring.toNat % 2 ^ 44 / 64 * 64
        s.physRead 20 0 a 16 = .ok h →
        let pidx := bitsAt (natOfBytes h) 0 32
        let log := bitsAt (natOfBytes h) 96 8
        6 ≤ log → log ≤ 20 → (pidx + 2 ^ 32 - bitsAt (natOfBytes h) 64 32) % 2 ^ 32 < 2 ^ log →
        s.physWrite 20 0 (a + 64 + 32 * (pidx % 2 ^ log)) e.bytes = .ok u → u.physWrite 20 0 a (bytesOfNat 4 (pidx + 1)) = .ok v →
        exec (.eventDeliver owner) s = .next { v with mgmt := { v.mgmt with events := v.mgmt.events.erase e } })))

/-! ## Rules stated whole -/

/-- AND, OR, XOR and ANDN of two sources of one width, and ANDI with its immediate extended, work bit by bit on any tag, give A's tag,
leave bits [31:30] of a T6x5 result zero and raise no flag; sources of two widths are class 01, subcode 0x04 (R328). -/
def Obligations.LogicRule : Prop :=
  ∀ (s : State) (k : GroupKey) (c : LaneCtx) (g : BitVec 4) (h : BitVec 1) (d a b : BitVec 7) (u v : Val),
    let low (t : BitVec 4) : BitVec 64 := if isPairTag t then BitVec.allOnes 64 else if t = tagT6 then 0x3FFFFFFF else 0xFFFFFFFF
    let gives (i : Instr) (r : BitVec 64) : Prop := Answers (exec i s) (fun t =>
      AluAfter i s t (fun _ => writesOf (fld d) ⟨r &&& low u.tag, u.tag⟩) (fun _ => 0))
    (∀ p ∈ ([(.and g h d a b, 10, u.bits &&& v.bits), (.or g h d a b, 11, u.bits ||| v.bits), (.xor g h d a b, 12, u.bits ^^^ v.bits),
        (.andn g h d a b, 13, u.bits &&& ~~~v.bits)] : List (Instr × Nat × BitVec 64)),
      Solo p.1 s k c → c.sources [fld a, fld b] = .ok [u, v] → c.narrowBad p.2.1 [fld a, fld b] = false →
      (isPairTag u.tag = isPairTag v.tag → (∃ n, c.dest (fld d) (isPairTag u.tag) = .ok n) → gives p.1 p.2.2) ∧
      (isPairTag u.tag ≠ isPairTag v.tag → s.canTrap c.tid →
        Answers (exec p.1 s) (fun t =>
          ThreadIs s t c.tid ((s.thread c.tid).trapped ⟨1, 4, BitVec.ofNat 64 (fld b), 0, none⟩ (s.warp c.tid.warp).tbase
            (s.thread c.tid).lr s.time) ∧
          { t with threads := s.threads, groups := s.groups } = s))) ∧
    (Solo (.andi g h d a b) s k c → c.sources [fld a] = .ok [u] → c.narrowBad 19 [fld a] = false →
      (∃ n, c.dest (fld d) (isPairTag u.tag) = .ok n) → gives (.andi g h d a b) (u.bits &&& b.signExtend 64))

/-- SEL in each member lane writes A where the selector is set, as it always is for G = 12, else B, with its tag and no flag; a chosen
source of tag 15 is class 01, subcode 0x01, and sources of two widths subcode 0x04 (R333). -/
def Obligations.SelectRule : Prop :=
  ∀ (s : State) (k : GroupKey) (g : BitVec 4) (h : BitVec 1) (d a b : BitVec 7) (u v : LaneCtx → Val) (x : LaneCtx → Bool),
    let i := Instr.sel g h d a b
    let zr (o : BitVec 7) (w : Val) : Val := ⟨0, if o = 120 then tagB32 else w.tag⟩
    let chosen (c : LaneCtx) : Val := if x c then u c else v c
    let reads (c : LaneCtx) : Prop := (g = 12 → x c = true) ∧ c.predVal g.toNat = .ok (x c) ∧
      (if a = 120 then u c = zr b (v c) else c.selSource (fld a) 0 = .ok (u c)) ∧
      (if b = 120 then v c = zr a (u c) else c.selSource (fld b) 2 = .ok (v c))
    (s.cur = some k → wellFormed i = true →
      (∀ c ∈ laneCtxs s, reads c ∧ (chosen c).tag ≠ 15 ∧ isPairTag (u c).tag = isPairTag (v c).tag ∧
        ∃ n, c.dest (fld d) (isPairTag (chosen c).tag) = .ok n) →
      Answers (exec i s) (fun t => AluAfter i s t (fun c => writesOf (fld d) (chosen c)) (fun _ => 0))) ∧
    (∀ c, Solo i s k c → g.toNat ≤ 12 → reads c → s.canTrap c.tid →
      let stops (sub field : Nat) : Prop := Answers (exec i s) (fun t =>
        ThreadIs s t c.tid ((s.thread c.tid).trapped ⟨1, sub, BitVec.ofNat 64 field, 0, none⟩ (s.warp c.tid.warp).tbase
          (s.thread c.tid).lr s.time) ∧
        { t with threads := s.threads, groups := s.groups } = s)
      ((chosen c).tag = 15 → stops 1 (fld (if x c then a else b))) ∧
      ((chosen c).tag ≠ 15 → isPairTag (u c).tag ≠ isPairTag (v c).tag → stops 4 (fld b)))

/-- PLACE gives the bundle's number, the coordinates of its element, its core, die, cluster and member index, or its ASID and the module
number, as they are when it executes; another selector is class 04, subcode 0x60 (R428). -/
def Obligations.PlaceRule : Prop :=
  ∀ (s : State) (k : GroupKey) (c : LaneCtx) (g : BitVec 4) (h : BitVec 1) (d a : BitVec 7) (sel : BitVec 32),
    let i := Instr.place g h d a
    let r := s.recordOf c.bundle
    let e := c.bundle.element
    Solo i s k c → c.word (fld a) 0 = .ok sel → (∃ n, c.dest (fld d) true = .ok n) →
    (∀ p ∈ ([
      (0, BitVec.ofNat 64 c.bundle.bn),
      (1, BitVec.ofNat 64 (e % recGx r % 2 ^ 32 + 2 ^ 32 * (e / recGx r % recGy r % 2 ^ 16) + 2 ^ 48 * (e / (recGx r * recGy r) % 2 ^ 16))),
      (2, BitVec.ofNat 64 (c.tid.warp.core % 256 + 2 ^ 8 * (c.tid.warp.die % 8) + 2 ^ 11 * (c.tid.warp.core / 48 % 4) +
        2 ^ 13 * (c.bundle.member % 64))),
      (3, BitVec.setWidth 64 c.bundle.asid + 2 ^ 8 * BitVec.setWidth 64 s.fab.nmod)] : List (Nat × BitVec 64)),
      sel.toNat = p.1 →
      Answers (exec i s) (fun t =>
        ResultsAfter i s t (fld d) [(p.2.extractLsb' 0 32, tagN64), (p.2.extractLsb' 32 32, tagN64)] false ∧
        { t with threads := s.threads, groups := s.groups, returns := s.returns, fresh := s.fresh } = s)) ∧
    (3 < sel.toNat → s.canTrap c.tid →
      Answers (exec i s) (fun t =>
        ThreadIs s t c.tid ((s.thread c.tid).trapped ⟨4, 0x60, BitVec.setWidth 64 sel, 0, none⟩ (s.warp c.tid.warp).tbase
          (s.thread c.tid).lr s.time) ∧
        { t with threads := s.threads, groups := s.groups } = s))

/-- The home begins mending a sector when a persistent request for it has been active for 50 microseconds, or when LOST names it with SER
as it is at the home; LOST for a sector already being mended, or with another SER, is ignored (R61). -/
def Obligations.MendStartRule : Prop :=
  ∀ (s : State) (sec : Nat),
    (∀ e, s.activeHome sec = some e → s.mendOf sec = none →
      (e.since + 50 * microsecond ≤ s.time → Answers (exec (.mendStartTimeout sec) s) (fun t => ∃ m, t.mendOf sec = some m ∧ m.since = s.time)) ∧
      (s.time < e.since + 50 * microsecond → exec (.mendStartTimeout sec) s = .next s)) ∧
    (∀ d p, nth? s.net.inbox s.pick = some (d, p) → p.opc = 0x33 → p.sec = sec →
      (s.mendOf sec = none → p.ser = (s.homeEntry sec).ser →
        Answers (exec .lost s) (fun t => ∃ m, t.mendOf sec = some m ∧ m.since = s.time)) ∧
      ((∃ m, s.mendOf sec = some m) ∨ p.ser ≠ (s.homeEntry sec).ser → exec .lost s = .next s.takeArrived))

/-! ## Completion of the forms that lanes, engines, the matrix unit and the homes carry out together -/

/-- A predicate function or vote completes wherever each active lane reads the predicates it names, P2R, SETP, VBAL, a shuffle and a
reduction wherever each active lane reads its sources and can write its destination: every thread stays where it stands, no thread but
those of the active lanes changes, and beside threads, groups and warps nothing does (R337 to R341). Shuffles are taken at every tag of
one register, reductions at N32 and S32. The model's choices here: log 129. -/
def Obligations.LaneExchangesComplete : Prop :=
  ∀ (s : State) (k : GroupKey) (g p q r : BitVec 4) (h : BitVec 1) (d a b : BitVec 7), s.cur = some k →
    let completes (i : Instr) (reads : LaneCtx → Prop) : Prop := wellFormed i = true → guardsRead i s → (∀ c ∈ activeLanes i s, reads c) →
      ∃ t, exec i s = .next t ∧ s.sameBut t ∧ (∀ x, (t.thread x).st = (s.thread x).st ∧ (t.thread x).pc = (s.thread x).pc) ∧
        ∀ x, (∀ c ∈ activeLanes i s, c.tid ≠ x) → t.thread x = s.thread x
    let pred (n : BitVec 4) (seed : Nat) (c : LaneCtx) : Prop := ∃ u, c.predVal n.toNat seed = .ok u
    let dest (c : LaneCtx) : Prop := ∃ n, c.dest (fld d) false = .ok n
    (∀ i ∈ ([.pand g p q r, .por g p q r, .pxor g p q r, .pandn g p q r] : List Instr), completes i (fun c => pred r 0 c ∧ pred q 2 c)) ∧
    (∀ i ∈ ([.vany g p q, .vall g p q, .vuni g p q] : List Instr), completes i (pred q 0)) ∧
    completes (.vbal g d q) (fun c => pred q 0 c ∧ dest c) ∧
    completes (.p2r g d) (fun c => (∀ n, n < 12 → ∃ u, c.pred n 1 = .ok u) ∧ dest c) ∧
    completes (.setp g h a) (fun c => ∃ x, c.word (fld a) 0 = .ok x) ∧
    (∀ t, isPairTag t = false → t ≠ 15 →
      completes (.shfl g h d a b) (fun c => (∃ x, c.src (fld a) 0 = .ok (oneReg x t)) ∧ (∃ n, c.word (fld b) 2 = .ok n) ∧ dest c) ∧
      completes (.shfi g h d a b) (fun c => (∃ x, c.src (fld a) 0 = .ok (oneReg x t)) ∧ dest c)) ∧
    (∀ t, t = tagN32 ∨ t = tagS32 →
      ∀ i ∈ ([.redAdd g h d a, .redMin g h d a, .redMax g h d a, .redAnd g h d a, .redOr g h d a, .redXor g h d a, .redScani g h d a,
        .redScanx g h d a] : List Instr),
      completes i (fun c => (∃ x, c.sources [fld a] = .ok [oneReg x t]) ∧ dest c))

/-- Every message of a persistent request, of a mending and of a replica read completes at the site or home that it has reached: PREQ is
known there, PACT entered as active and PDEACT taken out again, PDONE and PACK counted (R56 to R60); MEND notes its serial, MRET counts
its site and the tenth, or 50 µs, ends the mending, a sector that no site returned the owner token of then being lost, and MDONE takes the
note away (R62 to R65); GETR and BRDQ send their answers alone, and RMIS, DATR and BRDR end the replica misses that they answer (R66,
R67). The model's choices here: log 5, 6, 31, 32 and 33. -/
def Obligations.HomeMessagesComplete : Prop :=
  (∀ (s : State) (d : Nat) (p : Packet), nth? s.net.inbox s.pick = some (d, p) →
    let sec := p.sec
    (p.opc = 0x20 → ∃ t, exec .preq s = .next t ∧ t.knowsPreq sec p.rsock = true ∧ { t with coh := s.coh, net := s.net } = s) ∧
    (p.opc = 0x21 → ∃ t, exec .pact s = .next t ∧ (⟨d, sec, p.rmod, p.rsock, p.pk⟩ : Active) ∈ t.coh.active) ∧
    (p.opc = 0x22 → ∃ t, exec .pdone s = .next t ∧ { t with coh := s.coh, net := s.net } = s ∧
      ((sec, p.rsock) ∈ t.coh.doneEarly ∨ ∃ e ∈ t.coh.preqs, e.sector = sec ∧ e.rsock = p.rsock ∧ e.pdone = true)) ∧
    (p.opc = 0x23 → ∃ t, exec .pdeact s = .next t ∧ (∀ a ∈ t.coh.active, ¬ (a.site = d ∧ a.sector = sec)) ∧
      { t with coh := s.coh, net := s.net } = s) ∧
    (p.opc = 0x24 → ∃ t, exec .pack s = .next t ∧ { t with coh := s.coh, net := s.net } = s ∧
      ∀ e, s.coh.preqs.find? (fun e => decide (e.sector = sec) && (decide (e.stage = .active) || decide (e.stage = .ending))) = some e →
        e.packs + 1 < 10 → { e with packs := e.packs + 1 } ∈ t.coh.preqs) ∧
    (p.opc = 0x30 → ∃ t, exec .mend s = .next t ∧ t.mendNote d sec = some p.ser) ∧
    (p.opc = 0x31 → ∀ m, s.mendOf sec = some m → p.ser = (s.homeEntry sec).ser → p.src ∉ m.got → ∃ t, exec .mret s = .next t ∧
      t.mendOf sec = (if m.got.length = 9 then none else some { m with got := m.got ++ [p.src], current := m.current || p.own })) ∧
    (p.opc = 0x32 → ∃ t, exec .mdone s = .next t ∧ t.mendNote d sec ≠ some p.ser) ∧
    (∀ q ∈ ([(.getr, 0x03), (.brdq, 0x50)] : List (Instr × BitVec 8)), p.opc = q.2 →
      ∃ t, exec q.1 s = .next t ∧ { t with net := s.net } = s) ∧
    (p.opc = 0x13 → ∃ t, exec .rmis s = .next t ∧ (∀ x ∈ t.coh.misses, x.1 = d → x.2.txn = p.txn → x.2.replica = false) ∧
      { t with coh := s.coh, net := s.net } = s) ∧
    (∀ q ∈ ([(.datr, 0x12, 1), (.brdr, 0x51, (joinHalves p.data).length)] : List (Instr × BitVec 8 × Nat)), p.opc = q.2.1 →
      s.coh.accesses = [] →
      ∃ t, exec q.1 s = .next t ∧ ∀ n, n < q.2.2 → ∀ m, t.missOf d (sec + n) = some m → m.replica = false)) ∧
  (∀ (s : State) (sec : Nat) (m : Mend), s.mendOf sec = some m →
    (m.since + 50 * microsecond ≤ s.time → ∃ t, exec (.mendWindowTimeout sec) s = .next t ∧ t.mendOf sec = none ∧
      (t.homeEntry sec).lostb = ((s.homeEntry sec).lostb || !m.current)) ∧
    (s.time < m.since + 50 * microsecond → exec (.mendWindowTimeout sec) s = .next s))

/-- The engines and the matrix unit complete what they are given. CPY and GTH queue their operation (R233, R236); COPY_DONE and
GATHER_DONE retire one that has moved, committed and received all, whichever others stand in the queue (R216, R234); COPY_FAULT ends a
copy one of whose elements has an address that traps, its warp holding the fault for the lanes that issued it (R233); ENGINE_SLOT_COMMIT
fills a slot that a claim has filled (R238). MMA counts itself at its warp (R256); MMA_COMMIT and MTX_TRANSFER_DONE take an operation
alone in its warp's queue off it, the tile of an MMA or an LD then live (R386, R395, R407). The model's choices here: log 6 and 71. -/
def Obligations.EnginesAndMatrixComplete : Prop :=
  (∀ (s : State) (k : GroupKey) (l0 : LaneCtx) (pfx : BitVec 26) (g : BitVec 4) (h : BitVec 1) (d a b : BitVec 7),
    (∀ p ∈ ([(.cpy pfx g h d a b, false), (.gth pfx g h d a b, true)] : List (Instr × Bool)), ∀ j,
      Once p.1 s k l0 → (∀ c ∈ activeLanes p.1 s, s.released k c.tid 3 = true ∧ ∃ v, engineOperands pfx a b c = .ok v) →
      s.engineIssue p.2 pfx a b (activeLanes p.1 s) l0 = .ok j → s.engineFull p.2 l0.tid.warp = false →
      ∃ t, exec p.1 s = .next t ∧ t.jobs = s.jobs ++ [j]) ∧
    (WholeWarp (.mma pfx g h d a b) s k l0 → l0.warp.partnered = false → (∀ j ∈ s.matrix, j.warp ≠ l0.tid.warp) →
      s.tileMoving l0.tid.warp (fld d) = false → (∃ x, s.mmaArgs d a b (laneCtxs s) = .ok x ∧ mcLines x.ra = [] ∧ mcLines x.rb = []) →
      ∃ t, exec (.mma pfx g h d a b) s = .next t ∧ (t.warp l0.tid.warp).mmaCount = (s.warp l0.tid.warp).mmaCount + 1)) ∧
  (∀ (s : State) (j : EngineJob), s.job? j.id = some j →
    (∀ p ∈ ([(.copyDone, false), (.gatherDone, true)] : List (Instr × Bool)), nth? s.jobs s.pick = some j → j.gather = p.2 → j.nextPart = none →
      (∀ n, n < j.fills.length → j.committed.testBit n = true) → j.got = [] → s.engAway j = false →
      ∃ t, exec p.1 s = .next t ∧ t.jobs = s.jobs.filter (fun x => decide (x.id ≠ j.id))) ∧
    (∀ k e tr, nth? s.jobs k = some j → s.working j = true → j.mayMove e = true → j.gather = false →
      let va := j.elementVa (j.num 0 8) 60 e
      j.esz ∈ [1, 2, 4, 8] → va.toNat % 64 + j.esz ≤ 64 → s.locate j.warp va j.esz 0 0 = .trap tr → s.gridEnding j.lane0 = false →
      ∃ t, exec (.copyFault k e) s = .next t ∧ t.jobs = s.jobs.filter (fun x => decide (x.id ≠ j.id)) ∧
        (t.warp j.warp).faults = (s.warp j.warp).faults ++ [⟨j.id, 0, tr, j.lanes⟩]) ∧
    (∀ n tr i, nth? s.jobs (s.pick % 65536) = some j → s.jobTray j (if j.gather then j.num 16 1 else j.num 8 1) = some (n, tr) →
      nth? j.fills (s.pick / 65536) = some i → j.committed.testBit (s.pick / 65536) = false → j.slotFull tr.size (s.pick / 65536) = true →
      ∃ t, exec .engineSlotCommit s = .next t ∧
        lookup? n (t.core j.warp.coreId).trays = some { tr with slots := setNth .filled tr.slots i })) ∧
  (∀ (s : State) (j : MatrixJob), nth? s.matrix s.pick = some j → s.matrix.filter (fun x => decide (x.warp = j.warp)) = [j] →
    let taken (t : State) : Prop := t.matrix = s.matrix.filter (fun x => decide (x.id ≠ j.id))
    (∀ es fl, j.fn = 5 → j.waits = [] → j.firing = none → s.mmaResult j = .ok (es, fl) → j.ten &&& fl = 0 →
      ∃ t, exec .mmaCommit s = .next t ∧ taken t ∧ ∃ v, (t.warp j.warp).tile? j.tile = some v ∧ v.elems = es ∧ v.live = true) ∧
    (∀ rows v, j.fn = 1 → (s.warp j.warp).tile? j.tile = some v →
      s.mtxLines j.warp [] (trBase j.recA) (trRowBytes j.recA) ((List.range (trRows j.recA)).map (fun i => i * trStride j.recA)) = .ok rows →
      ∃ t, exec .mtxTransferDone s = .next t ∧ taken t ∧ ∃ w, (t.warp j.warp).tile? j.tile = some w ∧ w.live = true) ∧
    (∀ u, j.fn = 2 →
      let es := stElems (((s.warp j.warp).tile? j.tile).filter (fun x => x.live)) j.recA
      j.ten &&& orFlags (es.map (fun e => e.2.2.2)) = 0 →
      stWrites j.warp (fun leaf => if (trCtl j.recA).testBit 2 then BitVec.ofNat 2 (trCtl j.recA) else pteRcl leaf) es s = (u, none) →
      u.matrix = s.matrix → ∃ t, exec .mtxTransferDone s = .next t ∧ taken t))

/-! ## The whole machine -/

/-- Right after a cold reset bring-up is in POWER at TIME 0, no module number is set or locked, the fabric is off with each plane mapped
to itself, every sector has its 16 tokens at its home, the measurement registers are zero, every core has the reset partition of its pool,
and memory lists nothing (R12, R29, R48, R71, R72, R122, R162). The model's choices here: log 1. -/
def Obligations.ResetValues : Prop :=
  let s := State.reset
  s.time = 0 ∧ s.boot.phase = .power ∧ s.boot.cold = true ∧ s.fab.nmod = 0 ∧ s.fab.lock = false ∧ s.fab.en = false ∧
  s.fab.map = 0xFAC688 ∧ s.fab.live = 0 ∧ s.fab.up = 0 ∧
  (∀ h, h < 8 → planeOf s.fab.map (h * 256) = h) ∧
  (∀ sec, (s.homeEntry sec).htok = 16 ∧ (s.homeEntry sec).hown = true ∧ (s.homeEntry sec).ser = 0) ∧
  (∀ i, s.mrOf i = 0) ∧
  (∀ c n, n < 40 → (nth ⟨.reg, 0⟩ ((s.core c).segs.map (fun x => (x.role, x.idx))) n) =
    (if n % 10 < 6 then (Role.reg, n % 10) else if n % 10 < 8 then (Role.cch, 2 * (n / 10) + (n % 10 - 6)) else (Role.mxs, 0))) ∧
  s.mem = [] ∧ Memory.wf s.mem = true

/-- From every state whose memory list is in its canonical form, a step that goes on leaves it so: addresses rise strictly, and no byte
listed is zero, whatever the step is. -/
def Obligations.MemoryStaysCanonical : Prop :=
  ∀ s t : State, Memory.wf s.mem = true → step s = .next t → Memory.wf t.mem = true

/-- No instruction and no step of the part stops the machine: from every state each has a next state, of its own effect, of the trap it
takes, or unchanged where it may not act. The model's choices here: log 5 and 6. -/
def Obligations.EveryInstructionAnswers : Prop :=
  ∀ (i : Instr) (s : State), Answers (exec i s) (fun _ => True)

/-- A step issues the next instruction of a group: where the group is fetched, may issue now, its next words decode, and neither region
entry, placement rule, pending register, unit nor the POOL of a lower partition holds it back, the step is that instruction's meaning in
the state in which it is current, the group has moved past its words, its members have entered their region, and its units are in use
(R252, R292, R303, R305, R307). The model's choices here: log 7, 23 and 41. -/
def Obligations.StepRunsDecoded : Prop :=
  ∀ (s : State) (k : GroupKey) (rest : List Move) (g : Group) (i : Instr) (n : Nat),
    s.agenda = .issue k :: rest → s.group? k = some g → g.fetched = true → g.next < g.len →
    decodeWords (g.words.drop g.next) = .ok (i, n) →
    let u : State := { s with agenda := rest }
    u.onDuty k = true → u.issueDue k g = true → isPool i = false ∨ u.poolBefore k = false →
    let g1 := g.advance n (varDestFields i)
    let v := issueAt k g1 u
    let first := g.next = 0 ∧ g.entered = false
    (first → ∀ c ∈ laneCtxs v, regionWaits v g1 c = false) → placementFault g1 i (blocksHere i v) (k.port == 1) = none →
    let w := if g.next = 0 ∧ g.entered = false ∧ blocksHere i v = false then enterAll k v else v
    w.readsPending i = false → u.unitsFree k { g with here := g.next } i (laneCtxs w) = true →
    step s = exec i (w.useUnits k i (laneCtxs w)) ∧
    (∃ g', w.group? k = some g' ∧ w.cur = some k ∧ g'.here = g.next ∧ g'.next = g.next + n)

/-- Every instruction that has words is read back from them, with every operand and whatever words follow, and from their bytes in
little-endian order (R3, R292). -/
def Obligations.EncodeDecodes : Prop :=
  ∀ (i : Instr) (rest : List Word), encode i ≠ [] →
    decodeWords (encode i ++ rest) = .ok (i, (encode i).length) ∧
    decodeBytes ((encode i).flatMap bytesOfWord) = .ok (i, (encode i).length)

/-- Words written out from the opcode tables decode to the instructions they stand for, and a reserved function, a lone PFX, a PFX before
an instruction that takes none and a trailer to none (R292, R308, R319). -/
def Obligations.WordsDecode : Prop :=
  (∀ p ∈ ([
    (0b000001_1100_0_0000001_0000010_0000011, .add none 12 0 1 2 3), (0b011000_0101_1_0001010_0000111_0000100, .clz 5 1 10 7),
    (0b010110_1100_0_011_0100_0000001_0000010, .cmp 12 0 3 4 1 2), (0b011011_1100_0_0010_0011_1100_000000001, .por 12 2 3 12),
    (0b100000_1100_1111111111111111111110, .bra 12 0x3FFFFE), (0b100111_1100_1_0000100_0001000_01_10_011, .ld none 12 1 4 8 1 2 3),
    (0b110001_1100_0_0000101_0001001_011_0000, .barInit 12 5 9 3), (0b110111_1100_1_0000110_0000000_0001110, .mfs 12 1 6 14),
    (0b111010_1100_0_0000000_0000000_0000000, .exit 12 0), (0b010100_0001000_1111111111111111111, .movi 8 0x7FFFF)] :
      List (Nat × Instr)), decodeTableWord 32 p.1 = some p.2) ∧
  decodeWords [0b111110_00000000000000000000000101#32, 0b101001_1100_0_0000001_0000010_0000011#32] = .ok (.atom 5 12 0 1 2 3, 2) ∧
  decodeWords [0b011000_1100_0_0000001_0000010_0001011#32] = .error .reserved ∧
  decodeWords [0b111110_00000000000000000000000000#32] = .error .lonePfx ∧
  decodeWords [0b111110_00000000000000000000000000#32, 0b001000_1100_0_0000001_0000010_0000011#32] = .error .badPfx ∧
  decodeWords [0b111111_00000000000000000000000000#32] = .error .trailer
end

