-- ==== Sys2Proof/Laws/Encode.lean ====
section
/-! SUPPORT. The fields of packed words. -/

namespace Sys2Proof

/-- A field that lies wholly in the upper part of two joined bit strings. -/
theorem extract_high {n m : Nat} (x : BitVec n) (y : BitVec m) {lo : Nat} (len : Nat) (h : m ≤ lo) :
    (x ++ y).extractLsb' lo len = x.extractLsb' (lo - m) len := by
  ext i hi
  simp only [BitVec.getElem_extractLsb', BitVec.getLsbD_append]
  rw [if_neg (by omega), show lo + i - m = lo - m + i by omega]

/-- A field that lies wholly in the lower part of two joined bit strings. -/
theorem extract_low {n m : Nat} (x : BitVec n) (y : BitVec m) {lo len : Nat} (h : lo + len ≤ m) :
    (x ++ y).extractLsb' lo len = y.extractLsb' lo len := by
  ext i hi
  simp only [BitVec.getElem_extractLsb', BitVec.getLsbD_append]
  rw [if_pos (by omega)]

theorem extract_all {n : Nat} (x : BitVec n) : x.extractLsb' 0 n = x := by
  ext i hi
  simp

section PackA
variable (op : BitVec 6) (g : BitVec 4) (h : BitVec 1) (d a b : BitVec 7)

/-- The low seven bits of a format A word, any field of them. -/
theorem packA_low {lo len : Nat} (k : lo + len ≤ 7) : (packA op g h d a b).extractLsb' lo len = b.extractLsb' lo len := by
  rw [packA, extract_low _ _ k]

theorem packA_mid {lo len : Nat} (j : 7 ≤ lo) (k : lo + len ≤ 14) :
    (packA op g h d a b).extractLsb' lo len = a.extractLsb' (lo - 7) len := by
  rw [packA, extract_high _ _ _ j, extract_low _ _ (by omega)]

theorem packA_d {lo len : Nat} (j : 14 ≤ lo) (k : lo + len ≤ 21) :
    (packA op g h d a b).extractLsb' lo len = d.extractLsb' (lo - 14) len := by
  rw [packA, extract_high _ _ _ (by omega), extract_high _ _ _ (by omega), extract_low _ _ (by omega), show lo - 7 - 7 = lo - 14 by omega]

@[simp] theorem field_packA_op : field (packA op g h d a b) 26 6 = op := by
  rw [field, packA, extract_high _ _ _ (by omega), extract_high _ _ _ (by omega), extract_high _ _ _ (by omega), extract_high _ _ _ (by omega), extract_high _ _ _ (by omega), extract_all]
@[simp] theorem field_packA_g : field (packA op g h d a b) 22 4 = g := by
  rw [field, packA, extract_high _ _ _ (by omega), extract_high _ _ _ (by omega), extract_high _ _ _ (by omega), extract_high _ _ _ (by omega), extract_low _ _ (by omega), extract_all]
@[simp] theorem field_packA_h : field (packA op g h d a b) 21 1 = h := by
  rw [field, packA, extract_high _ _ _ (by omega), extract_high _ _ _ (by omega), extract_high _ _ _ (by omega), extract_low _ _ (by omega), extract_all]
@[simp] theorem field_packA_d : field (packA op g h d a b) 14 7 = d := by
  rw [field, packA, extract_high _ _ _ (by omega), extract_high _ _ _ (by omega), extract_low _ _ (by omega), extract_all]
@[simp] theorem field_packA_a : field (packA op g h d a b) 7 7 = a := by
  rw [field, packA, extract_high _ _ _ (by omega), extract_low _ _ (by omega), extract_all]
@[simp] theorem field_packA_b : field (packA op g h d a b) 0 7 = b := by
  rw [field, packA, extract_low _ _ (by omega), extract_all]
@[simp] theorem opOf_packA : opOf (packA op g h d a b) = op.toNat := by simp [opOf]
@[simp] theorem fnOf_packA : fnOf (packA op g h d a b) = b.toNat := by simp [fnOf]

end PackA

@[simp] theorem opOf_packL (op : BitVec 6) (d : BitVec 7) (i : BitVec 19) : opOf (packL op d i) = op.toNat := by
  rw [opOf, field, packL, extract_high _ _ _ (by omega), extract_high _ _ _ (by omega), extract_all]
@[simp] theorem field_packL_d (op : BitVec 6) (d : BitVec 7) (i : BitVec 19) : field (packL op d i) 19 7 = d := by
  rw [field, packL, extract_high _ _ _ (by omega), extract_low _ _ (by omega), extract_all]
@[simp] theorem field_packL_i (op : BitVec 6) (d : BitVec 7) (i : BitVec 19) : field (packL op d i) 0 19 = i := by
  rw [field, packL, extract_low _ _ (by omega), extract_all]

@[simp] theorem opOf_packJ (op : BitVec 6) (g : BitVec 4) (d : BitVec 22) : opOf (packJ op g d) = op.toNat := by
  rw [opOf, field, packJ, extract_high _ _ _ (by omega), extract_high _ _ _ (by omega), extract_all]
@[simp] theorem field_packJ_g (op : BitVec 6) (g : BitVec 4) (d : BitVec 22) : field (packJ op g d) 22 4 = g := by
  rw [field, packJ, extract_high _ _ _ (by omega), extract_low _ _ (by omega), extract_all]
@[simp] theorem field_packJ_d (op : BitVec 6) (g : BitVec 4) (d : BitVec 22) : field (packJ op g d) 0 22 = d := by
  rw [field, packJ, extract_low _ _ (by omega), extract_all]

@[simp] theorem opOf_packM (op : BitVec 6) (x : BitVec 5) (d a b : BitVec 7) : opOf (packM op x d a b) = op.toNat := by
  rw [opOf, field, packM, extract_high _ _ _ (by omega), extract_high _ _ _ (by omega), extract_high _ _ _ (by omega), extract_high _ _ _ (by omega), extract_all]

@[simp] theorem opOf_packX (op : BitVec 6) (x : BitVec 26) : opOf (packX op x) = op.toNat := by
  rw [opOf, field, packX, extract_high _ _ _ (by omega), extract_all]
@[simp] theorem field_packX (op : BitVec 6) (x : BitVec 26) : field (packX op x) 0 26 = x := by
  rw [field, packX, extract_low _ _ (by omega), extract_all]

@[simp] theorem opOf_packP (g p q r : BitVec 4) (fn : BitVec 9) : opOf (packP g p q r fn) = 0x1B := by
  rw [opOf, field, packP, extract_high _ _ _ (by omega), extract_high _ _ _ (by omega), extract_high _ _ _ (by omega), extract_high _ _ _ (by omega), extract_high _ _ _ (by omega), extract_high _ _ _ (by omega), extract_all]
  rfl

@[simp] theorem opOf_pfxWord (p : BitVec 26) : opOf (pfxWord p) = 0x3E := by simp [pfxWord]
@[simp] theorem field_pfxWord (p : BitVec 26) : field (pfxWord p) 0 26 = p := by simp [pfxWord]

end Sys2Proof
end

