-- ==== Sys2Proof/Laws/State.lean ====
section
/-! SUPPORT. What each update of State leaves in each field, and tables read after a write. -/

namespace Sys2Proof.Machine

/-! ## Tables -/

variable {κ α : Type} [DecidableEq κ]

@[simp] theorem lookup?_put_same (k : κ) (v : α) (m : List (κ × α)) : lookup? k (put k v m) = some v := by
  induction m with
  | nil => simp [put, lookup?]
  | cons p t ih =>
    obtain ⟨j, w⟩ := p
    by_cases h : j = k
    · simp [put, lookup?, h]
    · simp [put, lookup?, h, ih]

@[simp] theorem lookup?_put_other {k j : κ} (h : j ≠ k) (v : α) (m : List (κ × α)) : lookup? j (put k v m) = lookup? j m := by
  induction m with
  | nil => simp [put, lookup?, Ne.symm h]
  | cons p t ih =>
    obtain ⟨i, w⟩ := p
    by_cases h' : i = k
    · have hk : ¬ k = j := fun e => h e.symm
      simp [put, lookup?, h', hk]
    · by_cases h'' : i = j
      · subst h''
        simp [put, lookup?, h']
      · simp [put, lookup?, h', h'', ih]

theorem lookup?_put (k j : κ) (v : α) (m : List (κ × α)) : lookup? j (put k v m) = if j = k then some v else lookup? j m := by
  by_cases h : j = k
  · simp [h]
  · simp [h]

@[simp] theorem lookupD_put_same (k : κ) (d v : α) (m : List (κ × α)) : lookupD k d (put k v m) = v := by
  simp [lookupD]

@[simp] theorem lookupD_put_other {k j : κ} (h : j ≠ k) (d v : α) (m : List (κ × α)) : lookupD j d (put k v m) = lookupD j d m := by
  simp [lookupD, h]

@[simp] theorem put_put (k : κ) (v w : α) (m : List (κ × α)) : put k w (put k v m) = put k w m := by
  induction m with
  | nil => simp [put]
  | cons p t ih =>
    obtain ⟨j, x⟩ := p
    by_cases h : j = k
    · simp [put, h]
    · simp [put, h, ih]

/-! ## Fields -/

@[simp] theorem State.setThread_time (s : State) (t : ThreadId) (v : Thread) : (s.setThread t v).time = s.time := rfl
@[simp] theorem State.setThread_boot (s : State) (t : ThreadId) (v : Thread) : (s.setThread t v).boot = s.boot := rfl
@[simp] theorem State.setThread_net (s : State) (t : ThreadId) (v : Thread) : (s.setThread t v).net = s.net := rfl
@[simp] theorem State.setThread_coh (s : State) (t : ThreadId) (v : Thread) : (s.setThread t v).coh = s.coh := rfl
@[simp] theorem State.setThread_fab (s : State) (t : ThreadId) (v : Thread) : (s.setThread t v).fab = s.fab := rfl
@[simp] theorem State.setThread_chits (s : State) (t : ThreadId) (v : Thread) : (s.setThread t v).chits = s.chits := rfl
@[simp] theorem State.setThread_mgmt (s : State) (t : ThreadId) (v : Thread) : (s.setThread t v).mgmt = s.mgmt := rfl
@[simp] theorem State.setThread_disp (s : State) (t : ThreadId) (v : Thread) : (s.setThread t v).disp = s.disp := rfl
@[simp] theorem State.setThread_grids (s : State) (t : ThreadId) (v : Thread) : (s.setThread t v).grids = s.grids := rfl
@[simp] theorem State.setThread_shadow (s : State) (t : ThreadId) (v : Thread) : (s.setThread t v).shadow = s.shadow := rfl
@[simp] theorem State.setThread_cores (s : State) (t : ThreadId) (v : Thread) : (s.setThread t v).cores = s.cores := rfl
@[simp] theorem State.setThread_clusters (s : State) (t : ThreadId) (v : Thread) : (s.setThread t v).clusters = s.clusters := rfl
@[simp] theorem State.setThread_dies (s : State) (t : ThreadId) (v : Thread) : (s.setThread t v).dies = s.dies := rfl
@[simp] theorem State.setThread_devBars (s : State) (t : ThreadId) (v : Thread) : (s.setThread t v).devBars = s.devBars := rfl
@[simp] theorem State.setThread_devRegs (s : State) (t : ThreadId) (v : Thread) : (s.setThread t v).devRegs = s.devRegs := rfl
@[simp] theorem State.setThread_warps (s : State) (t : ThreadId) (v : Thread) : (s.setThread t v).warps = s.warps := rfl
@[simp] theorem State.setThread_threads (s : State) (t : ThreadId) (v : Thread) : (s.setThread t v).threads = put t v s.threads := rfl
@[simp] theorem State.setThread_groups (s : State) (t : ThreadId) (v : Thread) : (s.setThread t v).groups = s.groups := rfl
@[simp] theorem State.setThread_mem (s : State) (t : ThreadId) (v : Thread) : (s.setThread t v).mem = s.mem := rfl
@[simp] theorem State.setThread_weights (s : State) (t : ThreadId) (v : Thread) : (s.setThread t v).weights = s.weights := rfl
@[simp] theorem State.setThread_returns (s : State) (t : ThreadId) (v : Thread) : (s.setThread t v).returns = s.returns := rfl
@[simp] theorem State.setThread_sfu (s : State) (t : ThreadId) (v : Thread) : (s.setThread t v).sfu = s.sfu := rfl
@[simp] theorem State.setThread_jobs (s : State) (t : ThreadId) (v : Thread) : (s.setThread t v).jobs = s.jobs := rfl
@[simp] theorem State.setThread_matrix (s : State) (t : ThreadId) (v : Thread) : (s.setThread t v).matrix = s.matrix := rfl
@[simp] theorem State.setThread_service (s : State) (t : ThreadId) (v : Thread) : (s.setThread t v).service = s.service := rfl
@[simp] theorem State.setThread_agenda (s : State) (t : ThreadId) (v : Thread) : (s.setThread t v).agenda = s.agenda := rfl
@[simp] theorem State.setThread_pick (s : State) (t : ThreadId) (v : Thread) : (s.setThread t v).pick = s.pick := rfl
@[simp] theorem State.setThread_cur (s : State) (t : ThreadId) (v : Thread) : (s.setThread t v).cur = s.cur := rfl
@[simp] theorem State.setThread_fresh (s : State) (t : ThreadId) (v : Thread) : (s.setThread t v).fresh = s.fresh := rfl
@[simp] theorem State.setThread_openVals (s : State) (t : ThreadId) (v : Thread) : (s.setThread t v).openVals = s.openVals := rfl

@[simp] theorem State.setWarp_time (s : State) (w : WarpId) (v : Warp) : (s.setWarp w v).time = s.time := rfl
@[simp] theorem State.setWarp_boot (s : State) (w : WarpId) (v : Warp) : (s.setWarp w v).boot = s.boot := rfl
@[simp] theorem State.setWarp_net (s : State) (w : WarpId) (v : Warp) : (s.setWarp w v).net = s.net := rfl
@[simp] theorem State.setWarp_coh (s : State) (w : WarpId) (v : Warp) : (s.setWarp w v).coh = s.coh := rfl
@[simp] theorem State.setWarp_fab (s : State) (w : WarpId) (v : Warp) : (s.setWarp w v).fab = s.fab := rfl
@[simp] theorem State.setWarp_chits (s : State) (w : WarpId) (v : Warp) : (s.setWarp w v).chits = s.chits := rfl
@[simp] theorem State.setWarp_mgmt (s : State) (w : WarpId) (v : Warp) : (s.setWarp w v).mgmt = s.mgmt := rfl
@[simp] theorem State.setWarp_disp (s : State) (w : WarpId) (v : Warp) : (s.setWarp w v).disp = s.disp := rfl
@[simp] theorem State.setWarp_grids (s : State) (w : WarpId) (v : Warp) : (s.setWarp w v).grids = s.grids := rfl
@[simp] theorem State.setWarp_shadow (s : State) (w : WarpId) (v : Warp) : (s.setWarp w v).shadow = s.shadow := rfl
@[simp] theorem State.setWarp_cores (s : State) (w : WarpId) (v : Warp) : (s.setWarp w v).cores = s.cores := rfl
@[simp] theorem State.setWarp_clusters (s : State) (w : WarpId) (v : Warp) : (s.setWarp w v).clusters = s.clusters := rfl
@[simp] theorem State.setWarp_dies (s : State) (w : WarpId) (v : Warp) : (s.setWarp w v).dies = s.dies := rfl
@[simp] theorem State.setWarp_devBars (s : State) (w : WarpId) (v : Warp) : (s.setWarp w v).devBars = s.devBars := rfl
@[simp] theorem State.setWarp_devRegs (s : State) (w : WarpId) (v : Warp) : (s.setWarp w v).devRegs = s.devRegs := rfl
@[simp] theorem State.setWarp_warps (s : State) (w : WarpId) (v : Warp) : (s.setWarp w v).warps = put w v s.warps := rfl
@[simp] theorem State.setWarp_threads (s : State) (w : WarpId) (v : Warp) : (s.setWarp w v).threads = s.threads := rfl
@[simp] theorem State.setWarp_groups (s : State) (w : WarpId) (v : Warp) : (s.setWarp w v).groups = s.groups := rfl
@[simp] theorem State.setWarp_mem (s : State) (w : WarpId) (v : Warp) : (s.setWarp w v).mem = s.mem := rfl
@[simp] theorem State.setWarp_weights (s : State) (w : WarpId) (v : Warp) : (s.setWarp w v).weights = s.weights := rfl
@[simp] theorem State.setWarp_returns (s : State) (w : WarpId) (v : Warp) : (s.setWarp w v).returns = s.returns := rfl
@[simp] theorem State.setWarp_sfu (s : State) (w : WarpId) (v : Warp) : (s.setWarp w v).sfu = s.sfu := rfl
@[simp] theorem State.setWarp_jobs (s : State) (w : WarpId) (v : Warp) : (s.setWarp w v).jobs = s.jobs := rfl
@[simp] theorem State.setWarp_matrix (s : State) (w : WarpId) (v : Warp) : (s.setWarp w v).matrix = s.matrix := rfl
@[simp] theorem State.setWarp_service (s : State) (w : WarpId) (v : Warp) : (s.setWarp w v).service = s.service := rfl
@[simp] theorem State.setWarp_agenda (s : State) (w : WarpId) (v : Warp) : (s.setWarp w v).agenda = s.agenda := rfl
@[simp] theorem State.setWarp_pick (s : State) (w : WarpId) (v : Warp) : (s.setWarp w v).pick = s.pick := rfl
@[simp] theorem State.setWarp_cur (s : State) (w : WarpId) (v : Warp) : (s.setWarp w v).cur = s.cur := rfl
@[simp] theorem State.setWarp_fresh (s : State) (w : WarpId) (v : Warp) : (s.setWarp w v).fresh = s.fresh := rfl
@[simp] theorem State.setWarp_openVals (s : State) (w : WarpId) (v : Warp) : (s.setWarp w v).openVals = s.openVals := rfl

@[simp] theorem State.setCore_time (s : State) (c : CoreId) (v : Core) : (s.setCore c v).time = s.time := rfl
@[simp] theorem State.setCore_boot (s : State) (c : CoreId) (v : Core) : (s.setCore c v).boot = s.boot := rfl
@[simp] theorem State.setCore_net (s : State) (c : CoreId) (v : Core) : (s.setCore c v).net = s.net := rfl
@[simp] theorem State.setCore_coh (s : State) (c : CoreId) (v : Core) : (s.setCore c v).coh = s.coh := rfl
@[simp] theorem State.setCore_fab (s : State) (c : CoreId) (v : Core) : (s.setCore c v).fab = s.fab := rfl
@[simp] theorem State.setCore_chits (s : State) (c : CoreId) (v : Core) : (s.setCore c v).chits = s.chits := rfl
@[simp] theorem State.setCore_mgmt (s : State) (c : CoreId) (v : Core) : (s.setCore c v).mgmt = s.mgmt := rfl
@[simp] theorem State.setCore_disp (s : State) (c : CoreId) (v : Core) : (s.setCore c v).disp = s.disp := rfl
@[simp] theorem State.setCore_grids (s : State) (c : CoreId) (v : Core) : (s.setCore c v).grids = s.grids := rfl
@[simp] theorem State.setCore_shadow (s : State) (c : CoreId) (v : Core) : (s.setCore c v).shadow = s.shadow := rfl
@[simp] theorem State.setCore_cores (s : State) (c : CoreId) (v : Core) : (s.setCore c v).cores = put c v s.cores := rfl
@[simp] theorem State.setCore_clusters (s : State) (c : CoreId) (v : Core) : (s.setCore c v).clusters = s.clusters := rfl
@[simp] theorem State.setCore_dies (s : State) (c : CoreId) (v : Core) : (s.setCore c v).dies = s.dies := rfl
@[simp] theorem State.setCore_devBars (s : State) (c : CoreId) (v : Core) : (s.setCore c v).devBars = s.devBars := rfl
@[simp] theorem State.setCore_devRegs (s : State) (c : CoreId) (v : Core) : (s.setCore c v).devRegs = s.devRegs := rfl
@[simp] theorem State.setCore_warps (s : State) (c : CoreId) (v : Core) : (s.setCore c v).warps = s.warps := rfl
@[simp] theorem State.setCore_threads (s : State) (c : CoreId) (v : Core) : (s.setCore c v).threads = s.threads := rfl
@[simp] theorem State.setCore_groups (s : State) (c : CoreId) (v : Core) : (s.setCore c v).groups = s.groups := rfl
@[simp] theorem State.setCore_mem (s : State) (c : CoreId) (v : Core) : (s.setCore c v).mem = s.mem := rfl
@[simp] theorem State.setCore_weights (s : State) (c : CoreId) (v : Core) : (s.setCore c v).weights = s.weights := rfl
@[simp] theorem State.setCore_returns (s : State) (c : CoreId) (v : Core) : (s.setCore c v).returns = s.returns := rfl
@[simp] theorem State.setCore_sfu (s : State) (c : CoreId) (v : Core) : (s.setCore c v).sfu = s.sfu := rfl
@[simp] theorem State.setCore_jobs (s : State) (c : CoreId) (v : Core) : (s.setCore c v).jobs = s.jobs := rfl
@[simp] theorem State.setCore_matrix (s : State) (c : CoreId) (v : Core) : (s.setCore c v).matrix = s.matrix := rfl
@[simp] theorem State.setCore_service (s : State) (c : CoreId) (v : Core) : (s.setCore c v).service = s.service := rfl
@[simp] theorem State.setCore_agenda (s : State) (c : CoreId) (v : Core) : (s.setCore c v).agenda = s.agenda := rfl
@[simp] theorem State.setCore_pick (s : State) (c : CoreId) (v : Core) : (s.setCore c v).pick = s.pick := rfl
@[simp] theorem State.setCore_cur (s : State) (c : CoreId) (v : Core) : (s.setCore c v).cur = s.cur := rfl
@[simp] theorem State.setCore_fresh (s : State) (c : CoreId) (v : Core) : (s.setCore c v).fresh = s.fresh := rfl
@[simp] theorem State.setCore_openVals (s : State) (c : CoreId) (v : Core) : (s.setCore c v).openVals = s.openVals := rfl

@[simp] theorem State.setCluster_time (s : State) (d k : Nat) (v : Cluster) : (s.setCluster d k v).time = s.time := rfl
@[simp] theorem State.setCluster_boot (s : State) (d k : Nat) (v : Cluster) : (s.setCluster d k v).boot = s.boot := rfl
@[simp] theorem State.setCluster_net (s : State) (d k : Nat) (v : Cluster) : (s.setCluster d k v).net = s.net := rfl
@[simp] theorem State.setCluster_coh (s : State) (d k : Nat) (v : Cluster) : (s.setCluster d k v).coh = s.coh := rfl
@[simp] theorem State.setCluster_fab (s : State) (d k : Nat) (v : Cluster) : (s.setCluster d k v).fab = s.fab := rfl
@[simp] theorem State.setCluster_chits (s : State) (d k : Nat) (v : Cluster) : (s.setCluster d k v).chits = s.chits := rfl
@[simp] theorem State.setCluster_mgmt (s : State) (d k : Nat) (v : Cluster) : (s.setCluster d k v).mgmt = s.mgmt := rfl
@[simp] theorem State.setCluster_disp (s : State) (d k : Nat) (v : Cluster) : (s.setCluster d k v).disp = s.disp := rfl
@[simp] theorem State.setCluster_grids (s : State) (d k : Nat) (v : Cluster) : (s.setCluster d k v).grids = s.grids := rfl
@[simp] theorem State.setCluster_shadow (s : State) (d k : Nat) (v : Cluster) : (s.setCluster d k v).shadow = s.shadow := rfl
@[simp] theorem State.setCluster_cores (s : State) (d k : Nat) (v : Cluster) : (s.setCluster d k v).cores = s.cores := rfl
@[simp] theorem State.setCluster_clusters (s : State) (d k : Nat) (v : Cluster) : (s.setCluster d k v).clusters = put (d, k) v s.clusters := rfl
@[simp] theorem State.setCluster_dies (s : State) (d k : Nat) (v : Cluster) : (s.setCluster d k v).dies = s.dies := rfl
@[simp] theorem State.setCluster_devBars (s : State) (d k : Nat) (v : Cluster) : (s.setCluster d k v).devBars = s.devBars := rfl
@[simp] theorem State.setCluster_devRegs (s : State) (d k : Nat) (v : Cluster) : (s.setCluster d k v).devRegs = s.devRegs := rfl
@[simp] theorem State.setCluster_warps (s : State) (d k : Nat) (v : Cluster) : (s.setCluster d k v).warps = s.warps := rfl
@[simp] theorem State.setCluster_threads (s : State) (d k : Nat) (v : Cluster) : (s.setCluster d k v).threads = s.threads := rfl
@[simp] theorem State.setCluster_groups (s : State) (d k : Nat) (v : Cluster) : (s.setCluster d k v).groups = s.groups := rfl
@[simp] theorem State.setCluster_mem (s : State) (d k : Nat) (v : Cluster) : (s.setCluster d k v).mem = s.mem := rfl
@[simp] theorem State.setCluster_weights (s : State) (d k : Nat) (v : Cluster) : (s.setCluster d k v).weights = s.weights := rfl
@[simp] theorem State.setCluster_returns (s : State) (d k : Nat) (v : Cluster) : (s.setCluster d k v).returns = s.returns := rfl
@[simp] theorem State.setCluster_sfu (s : State) (d k : Nat) (v : Cluster) : (s.setCluster d k v).sfu = s.sfu := rfl
@[simp] theorem State.setCluster_jobs (s : State) (d k : Nat) (v : Cluster) : (s.setCluster d k v).jobs = s.jobs := rfl
@[simp] theorem State.setCluster_matrix (s : State) (d k : Nat) (v : Cluster) : (s.setCluster d k v).matrix = s.matrix := rfl
@[simp] theorem State.setCluster_service (s : State) (d k : Nat) (v : Cluster) : (s.setCluster d k v).service = s.service := rfl
@[simp] theorem State.setCluster_agenda (s : State) (d k : Nat) (v : Cluster) : (s.setCluster d k v).agenda = s.agenda := rfl
@[simp] theorem State.setCluster_pick (s : State) (d k : Nat) (v : Cluster) : (s.setCluster d k v).pick = s.pick := rfl
@[simp] theorem State.setCluster_cur (s : State) (d k : Nat) (v : Cluster) : (s.setCluster d k v).cur = s.cur := rfl
@[simp] theorem State.setCluster_fresh (s : State) (d k : Nat) (v : Cluster) : (s.setCluster d k v).fresh = s.fresh := rfl
@[simp] theorem State.setCluster_openVals (s : State) (d k : Nat) (v : Cluster) : (s.setCluster d k v).openVals = s.openVals := rfl

@[simp] theorem State.setDie_time (s : State) (d : Nat) (v : Die) : (s.setDie d v).time = s.time := rfl
@[simp] theorem State.setDie_boot (s : State) (d : Nat) (v : Die) : (s.setDie d v).boot = s.boot := rfl
@[simp] theorem State.setDie_net (s : State) (d : Nat) (v : Die) : (s.setDie d v).net = s.net := rfl
@[simp] theorem State.setDie_coh (s : State) (d : Nat) (v : Die) : (s.setDie d v).coh = s.coh := rfl
@[simp] theorem State.setDie_fab (s : State) (d : Nat) (v : Die) : (s.setDie d v).fab = s.fab := rfl
@[simp] theorem State.setDie_chits (s : State) (d : Nat) (v : Die) : (s.setDie d v).chits = s.chits := rfl
@[simp] theorem State.setDie_mgmt (s : State) (d : Nat) (v : Die) : (s.setDie d v).mgmt = s.mgmt := rfl
@[simp] theorem State.setDie_disp (s : State) (d : Nat) (v : Die) : (s.setDie d v).disp = s.disp := rfl
@[simp] theorem State.setDie_grids (s : State) (d : Nat) (v : Die) : (s.setDie d v).grids = s.grids := rfl
@[simp] theorem State.setDie_shadow (s : State) (d : Nat) (v : Die) : (s.setDie d v).shadow = s.shadow := rfl
@[simp] theorem State.setDie_cores (s : State) (d : Nat) (v : Die) : (s.setDie d v).cores = s.cores := rfl
@[simp] theorem State.setDie_clusters (s : State) (d : Nat) (v : Die) : (s.setDie d v).clusters = s.clusters := rfl
@[simp] theorem State.setDie_dies (s : State) (d : Nat) (v : Die) : (s.setDie d v).dies = put d v s.dies := rfl
@[simp] theorem State.setDie_devBars (s : State) (d : Nat) (v : Die) : (s.setDie d v).devBars = s.devBars := rfl
@[simp] theorem State.setDie_devRegs (s : State) (d : Nat) (v : Die) : (s.setDie d v).devRegs = s.devRegs := rfl
@[simp] theorem State.setDie_warps (s : State) (d : Nat) (v : Die) : (s.setDie d v).warps = s.warps := rfl
@[simp] theorem State.setDie_threads (s : State) (d : Nat) (v : Die) : (s.setDie d v).threads = s.threads := rfl
@[simp] theorem State.setDie_groups (s : State) (d : Nat) (v : Die) : (s.setDie d v).groups = s.groups := rfl
@[simp] theorem State.setDie_mem (s : State) (d : Nat) (v : Die) : (s.setDie d v).mem = s.mem := rfl
@[simp] theorem State.setDie_weights (s : State) (d : Nat) (v : Die) : (s.setDie d v).weights = s.weights := rfl
@[simp] theorem State.setDie_returns (s : State) (d : Nat) (v : Die) : (s.setDie d v).returns = s.returns := rfl
@[simp] theorem State.setDie_sfu (s : State) (d : Nat) (v : Die) : (s.setDie d v).sfu = s.sfu := rfl
@[simp] theorem State.setDie_jobs (s : State) (d : Nat) (v : Die) : (s.setDie d v).jobs = s.jobs := rfl
@[simp] theorem State.setDie_matrix (s : State) (d : Nat) (v : Die) : (s.setDie d v).matrix = s.matrix := rfl
@[simp] theorem State.setDie_service (s : State) (d : Nat) (v : Die) : (s.setDie d v).service = s.service := rfl
@[simp] theorem State.setDie_agenda (s : State) (d : Nat) (v : Die) : (s.setDie d v).agenda = s.agenda := rfl
@[simp] theorem State.setDie_pick (s : State) (d : Nat) (v : Die) : (s.setDie d v).pick = s.pick := rfl
@[simp] theorem State.setDie_cur (s : State) (d : Nat) (v : Die) : (s.setDie d v).cur = s.cur := rfl
@[simp] theorem State.setDie_fresh (s : State) (d : Nat) (v : Die) : (s.setDie d v).fresh = s.fresh := rfl
@[simp] theorem State.setDie_openVals (s : State) (d : Nat) (v : Die) : (s.setDie d v).openVals = s.openVals := rfl

@[simp] theorem State.setDispatcher_time (s : State) (d : Nat) (v : Dispatcher) : (s.setDispatcher d v).time = s.time := rfl
@[simp] theorem State.setDispatcher_boot (s : State) (d : Nat) (v : Dispatcher) : (s.setDispatcher d v).boot = s.boot := rfl
@[simp] theorem State.setDispatcher_net (s : State) (d : Nat) (v : Dispatcher) : (s.setDispatcher d v).net = s.net := rfl
@[simp] theorem State.setDispatcher_coh (s : State) (d : Nat) (v : Dispatcher) : (s.setDispatcher d v).coh = s.coh := rfl
@[simp] theorem State.setDispatcher_fab (s : State) (d : Nat) (v : Dispatcher) : (s.setDispatcher d v).fab = s.fab := rfl
@[simp] theorem State.setDispatcher_chits (s : State) (d : Nat) (v : Dispatcher) : (s.setDispatcher d v).chits = s.chits := rfl
@[simp] theorem State.setDispatcher_mgmt (s : State) (d : Nat) (v : Dispatcher) : (s.setDispatcher d v).mgmt = s.mgmt := rfl
@[simp] theorem State.setDispatcher_disp (s : State) (d : Nat) (v : Dispatcher) : (s.setDispatcher d v).disp = put d v s.disp := rfl
@[simp] theorem State.setDispatcher_grids (s : State) (d : Nat) (v : Dispatcher) : (s.setDispatcher d v).grids = s.grids := rfl
@[simp] theorem State.setDispatcher_shadow (s : State) (d : Nat) (v : Dispatcher) : (s.setDispatcher d v).shadow = s.shadow := rfl
@[simp] theorem State.setDispatcher_cores (s : State) (d : Nat) (v : Dispatcher) : (s.setDispatcher d v).cores = s.cores := rfl
@[simp] theorem State.setDispatcher_clusters (s : State) (d : Nat) (v : Dispatcher) : (s.setDispatcher d v).clusters = s.clusters := rfl
@[simp] theorem State.setDispatcher_dies (s : State) (d : Nat) (v : Dispatcher) : (s.setDispatcher d v).dies = s.dies := rfl
@[simp] theorem State.setDispatcher_devBars (s : State) (d : Nat) (v : Dispatcher) : (s.setDispatcher d v).devBars = s.devBars := rfl
@[simp] theorem State.setDispatcher_devRegs (s : State) (d : Nat) (v : Dispatcher) : (s.setDispatcher d v).devRegs = s.devRegs := rfl
@[simp] theorem State.setDispatcher_warps (s : State) (d : Nat) (v : Dispatcher) : (s.setDispatcher d v).warps = s.warps := rfl
@[simp] theorem State.setDispatcher_threads (s : State) (d : Nat) (v : Dispatcher) : (s.setDispatcher d v).threads = s.threads := rfl
@[simp] theorem State.setDispatcher_groups (s : State) (d : Nat) (v : Dispatcher) : (s.setDispatcher d v).groups = s.groups := rfl
@[simp] theorem State.setDispatcher_mem (s : State) (d : Nat) (v : Dispatcher) : (s.setDispatcher d v).mem = s.mem := rfl
@[simp] theorem State.setDispatcher_weights (s : State) (d : Nat) (v : Dispatcher) : (s.setDispatcher d v).weights = s.weights := rfl
@[simp] theorem State.setDispatcher_returns (s : State) (d : Nat) (v : Dispatcher) : (s.setDispatcher d v).returns = s.returns := rfl
@[simp] theorem State.setDispatcher_sfu (s : State) (d : Nat) (v : Dispatcher) : (s.setDispatcher d v).sfu = s.sfu := rfl
@[simp] theorem State.setDispatcher_jobs (s : State) (d : Nat) (v : Dispatcher) : (s.setDispatcher d v).jobs = s.jobs := rfl
@[simp] theorem State.setDispatcher_matrix (s : State) (d : Nat) (v : Dispatcher) : (s.setDispatcher d v).matrix = s.matrix := rfl
@[simp] theorem State.setDispatcher_service (s : State) (d : Nat) (v : Dispatcher) : (s.setDispatcher d v).service = s.service := rfl
@[simp] theorem State.setDispatcher_agenda (s : State) (d : Nat) (v : Dispatcher) : (s.setDispatcher d v).agenda = s.agenda := rfl
@[simp] theorem State.setDispatcher_pick (s : State) (d : Nat) (v : Dispatcher) : (s.setDispatcher d v).pick = s.pick := rfl
@[simp] theorem State.setDispatcher_cur (s : State) (d : Nat) (v : Dispatcher) : (s.setDispatcher d v).cur = s.cur := rfl
@[simp] theorem State.setDispatcher_fresh (s : State) (d : Nat) (v : Dispatcher) : (s.setDispatcher d v).fresh = s.fresh := rfl
@[simp] theorem State.setDispatcher_openVals (s : State) (d : Nat) (v : Dispatcher) : (s.setDispatcher d v).openVals = s.openVals := rfl

@[simp] theorem State.setGrid_time (s : State) (g : Nat) (v : Grid) : (s.setGrid g v).time = s.time := rfl
@[simp] theorem State.setGrid_boot (s : State) (g : Nat) (v : Grid) : (s.setGrid g v).boot = s.boot := rfl
@[simp] theorem State.setGrid_net (s : State) (g : Nat) (v : Grid) : (s.setGrid g v).net = s.net := rfl
@[simp] theorem State.setGrid_coh (s : State) (g : Nat) (v : Grid) : (s.setGrid g v).coh = s.coh := rfl
@[simp] theorem State.setGrid_fab (s : State) (g : Nat) (v : Grid) : (s.setGrid g v).fab = s.fab := rfl
@[simp] theorem State.setGrid_chits (s : State) (g : Nat) (v : Grid) : (s.setGrid g v).chits = s.chits := rfl
@[simp] theorem State.setGrid_mgmt (s : State) (g : Nat) (v : Grid) : (s.setGrid g v).mgmt = s.mgmt := rfl
@[simp] theorem State.setGrid_disp (s : State) (g : Nat) (v : Grid) : (s.setGrid g v).disp = s.disp := rfl
@[simp] theorem State.setGrid_grids (s : State) (g : Nat) (v : Grid) : (s.setGrid g v).grids = put g v s.grids := rfl
@[simp] theorem State.setGrid_shadow (s : State) (g : Nat) (v : Grid) : (s.setGrid g v).shadow = s.shadow := rfl
@[simp] theorem State.setGrid_cores (s : State) (g : Nat) (v : Grid) : (s.setGrid g v).cores = s.cores := rfl
@[simp] theorem State.setGrid_clusters (s : State) (g : Nat) (v : Grid) : (s.setGrid g v).clusters = s.clusters := rfl
@[simp] theorem State.setGrid_dies (s : State) (g : Nat) (v : Grid) : (s.setGrid g v).dies = s.dies := rfl
@[simp] theorem State.setGrid_devBars (s : State) (g : Nat) (v : Grid) : (s.setGrid g v).devBars = s.devBars := rfl
@[simp] theorem State.setGrid_devRegs (s : State) (g : Nat) (v : Grid) : (s.setGrid g v).devRegs = s.devRegs := rfl
@[simp] theorem State.setGrid_warps (s : State) (g : Nat) (v : Grid) : (s.setGrid g v).warps = s.warps := rfl
@[simp] theorem State.setGrid_threads (s : State) (g : Nat) (v : Grid) : (s.setGrid g v).threads = s.threads := rfl
@[simp] theorem State.setGrid_groups (s : State) (g : Nat) (v : Grid) : (s.setGrid g v).groups = s.groups := rfl
@[simp] theorem State.setGrid_mem (s : State) (g : Nat) (v : Grid) : (s.setGrid g v).mem = s.mem := rfl
@[simp] theorem State.setGrid_weights (s : State) (g : Nat) (v : Grid) : (s.setGrid g v).weights = s.weights := rfl
@[simp] theorem State.setGrid_returns (s : State) (g : Nat) (v : Grid) : (s.setGrid g v).returns = s.returns := rfl
@[simp] theorem State.setGrid_sfu (s : State) (g : Nat) (v : Grid) : (s.setGrid g v).sfu = s.sfu := rfl
@[simp] theorem State.setGrid_jobs (s : State) (g : Nat) (v : Grid) : (s.setGrid g v).jobs = s.jobs := rfl
@[simp] theorem State.setGrid_matrix (s : State) (g : Nat) (v : Grid) : (s.setGrid g v).matrix = s.matrix := rfl
@[simp] theorem State.setGrid_service (s : State) (g : Nat) (v : Grid) : (s.setGrid g v).service = s.service := rfl
@[simp] theorem State.setGrid_agenda (s : State) (g : Nat) (v : Grid) : (s.setGrid g v).agenda = s.agenda := rfl
@[simp] theorem State.setGrid_pick (s : State) (g : Nat) (v : Grid) : (s.setGrid g v).pick = s.pick := rfl
@[simp] theorem State.setGrid_cur (s : State) (g : Nat) (v : Grid) : (s.setGrid g v).cur = s.cur := rfl
@[simp] theorem State.setGrid_fresh (s : State) (g : Nat) (v : Grid) : (s.setGrid g v).fresh = s.fresh := rfl
@[simp] theorem State.setGrid_openVals (s : State) (g : Nat) (v : Grid) : (s.setGrid g v).openVals = s.openVals := rfl

@[simp] theorem State.setGroup_time (s : State) (k : GroupKey) (v : Group) : (s.setGroup k v).time = s.time := rfl
@[simp] theorem State.setGroup_boot (s : State) (k : GroupKey) (v : Group) : (s.setGroup k v).boot = s.boot := rfl
@[simp] theorem State.setGroup_net (s : State) (k : GroupKey) (v : Group) : (s.setGroup k v).net = s.net := rfl
@[simp] theorem State.setGroup_coh (s : State) (k : GroupKey) (v : Group) : (s.setGroup k v).coh = s.coh := rfl
@[simp] theorem State.setGroup_fab (s : State) (k : GroupKey) (v : Group) : (s.setGroup k v).fab = s.fab := rfl
@[simp] theorem State.setGroup_chits (s : State) (k : GroupKey) (v : Group) : (s.setGroup k v).chits = s.chits := rfl
@[simp] theorem State.setGroup_mgmt (s : State) (k : GroupKey) (v : Group) : (s.setGroup k v).mgmt = s.mgmt := rfl
@[simp] theorem State.setGroup_disp (s : State) (k : GroupKey) (v : Group) : (s.setGroup k v).disp = s.disp := rfl
@[simp] theorem State.setGroup_grids (s : State) (k : GroupKey) (v : Group) : (s.setGroup k v).grids = s.grids := rfl
@[simp] theorem State.setGroup_shadow (s : State) (k : GroupKey) (v : Group) : (s.setGroup k v).shadow = s.shadow := rfl
@[simp] theorem State.setGroup_cores (s : State) (k : GroupKey) (v : Group) : (s.setGroup k v).cores = s.cores := rfl
@[simp] theorem State.setGroup_clusters (s : State) (k : GroupKey) (v : Group) : (s.setGroup k v).clusters = s.clusters := rfl
@[simp] theorem State.setGroup_dies (s : State) (k : GroupKey) (v : Group) : (s.setGroup k v).dies = s.dies := rfl
@[simp] theorem State.setGroup_devBars (s : State) (k : GroupKey) (v : Group) : (s.setGroup k v).devBars = s.devBars := rfl
@[simp] theorem State.setGroup_devRegs (s : State) (k : GroupKey) (v : Group) : (s.setGroup k v).devRegs = s.devRegs := rfl
@[simp] theorem State.setGroup_warps (s : State) (k : GroupKey) (v : Group) : (s.setGroup k v).warps = s.warps := rfl
@[simp] theorem State.setGroup_threads (s : State) (k : GroupKey) (v : Group) : (s.setGroup k v).threads = s.threads := rfl
@[simp] theorem State.setGroup_groups (s : State) (k : GroupKey) (v : Group) : (s.setGroup k v).groups = put k v s.groups := rfl
@[simp] theorem State.setGroup_mem (s : State) (k : GroupKey) (v : Group) : (s.setGroup k v).mem = s.mem := rfl
@[simp] theorem State.setGroup_weights (s : State) (k : GroupKey) (v : Group) : (s.setGroup k v).weights = s.weights := rfl
@[simp] theorem State.setGroup_returns (s : State) (k : GroupKey) (v : Group) : (s.setGroup k v).returns = s.returns := rfl
@[simp] theorem State.setGroup_sfu (s : State) (k : GroupKey) (v : Group) : (s.setGroup k v).sfu = s.sfu := rfl
@[simp] theorem State.setGroup_jobs (s : State) (k : GroupKey) (v : Group) : (s.setGroup k v).jobs = s.jobs := rfl
@[simp] theorem State.setGroup_matrix (s : State) (k : GroupKey) (v : Group) : (s.setGroup k v).matrix = s.matrix := rfl
@[simp] theorem State.setGroup_service (s : State) (k : GroupKey) (v : Group) : (s.setGroup k v).service = s.service := rfl
@[simp] theorem State.setGroup_agenda (s : State) (k : GroupKey) (v : Group) : (s.setGroup k v).agenda = s.agenda := rfl
@[simp] theorem State.setGroup_pick (s : State) (k : GroupKey) (v : Group) : (s.setGroup k v).pick = s.pick := rfl
@[simp] theorem State.setGroup_cur (s : State) (k : GroupKey) (v : Group) : (s.setGroup k v).cur = s.cur := rfl
@[simp] theorem State.setGroup_fresh (s : State) (k : GroupKey) (v : Group) : (s.setGroup k v).fresh = s.fresh := rfl
@[simp] theorem State.setGroup_openVals (s : State) (k : GroupKey) (v : Group) : (s.setGroup k v).openVals = s.openVals := rfl

@[simp] theorem State.setBundle_time (s : State) (c : CoreId) (b : Nat) (v : Bundle) : (s.setBundle c b v).time = s.time := rfl
@[simp] theorem State.setBundle_boot (s : State) (c : CoreId) (b : Nat) (v : Bundle) : (s.setBundle c b v).boot = s.boot := rfl
@[simp] theorem State.setBundle_net (s : State) (c : CoreId) (b : Nat) (v : Bundle) : (s.setBundle c b v).net = s.net := rfl
@[simp] theorem State.setBundle_coh (s : State) (c : CoreId) (b : Nat) (v : Bundle) : (s.setBundle c b v).coh = s.coh := rfl
@[simp] theorem State.setBundle_fab (s : State) (c : CoreId) (b : Nat) (v : Bundle) : (s.setBundle c b v).fab = s.fab := rfl
@[simp] theorem State.setBundle_chits (s : State) (c : CoreId) (b : Nat) (v : Bundle) : (s.setBundle c b v).chits = s.chits := rfl
@[simp] theorem State.setBundle_mgmt (s : State) (c : CoreId) (b : Nat) (v : Bundle) : (s.setBundle c b v).mgmt = s.mgmt := rfl
@[simp] theorem State.setBundle_disp (s : State) (c : CoreId) (b : Nat) (v : Bundle) : (s.setBundle c b v).disp = s.disp := rfl
@[simp] theorem State.setBundle_grids (s : State) (c : CoreId) (b : Nat) (v : Bundle) : (s.setBundle c b v).grids = s.grids := rfl
@[simp] theorem State.setBundle_shadow (s : State) (c : CoreId) (b : Nat) (v : Bundle) : (s.setBundle c b v).shadow = s.shadow := rfl
@[simp] theorem State.setBundle_cores (s : State) (c : CoreId) (b : Nat) (v : Bundle) : (s.setBundle c b v).cores = put c { s.core c with bundles := put b v (s.core c).bundles } s.cores := rfl
@[simp] theorem State.setBundle_clusters (s : State) (c : CoreId) (b : Nat) (v : Bundle) : (s.setBundle c b v).clusters = s.clusters := rfl
@[simp] theorem State.setBundle_dies (s : State) (c : CoreId) (b : Nat) (v : Bundle) : (s.setBundle c b v).dies = s.dies := rfl
@[simp] theorem State.setBundle_devBars (s : State) (c : CoreId) (b : Nat) (v : Bundle) : (s.setBundle c b v).devBars = s.devBars := rfl
@[simp] theorem State.setBundle_devRegs (s : State) (c : CoreId) (b : Nat) (v : Bundle) : (s.setBundle c b v).devRegs = s.devRegs := rfl
@[simp] theorem State.setBundle_warps (s : State) (c : CoreId) (b : Nat) (v : Bundle) : (s.setBundle c b v).warps = s.warps := rfl
@[simp] theorem State.setBundle_threads (s : State) (c : CoreId) (b : Nat) (v : Bundle) : (s.setBundle c b v).threads = s.threads := rfl
@[simp] theorem State.setBundle_groups (s : State) (c : CoreId) (b : Nat) (v : Bundle) : (s.setBundle c b v).groups = s.groups := rfl
@[simp] theorem State.setBundle_mem (s : State) (c : CoreId) (b : Nat) (v : Bundle) : (s.setBundle c b v).mem = s.mem := rfl
@[simp] theorem State.setBundle_weights (s : State) (c : CoreId) (b : Nat) (v : Bundle) : (s.setBundle c b v).weights = s.weights := rfl
@[simp] theorem State.setBundle_returns (s : State) (c : CoreId) (b : Nat) (v : Bundle) : (s.setBundle c b v).returns = s.returns := rfl
@[simp] theorem State.setBundle_sfu (s : State) (c : CoreId) (b : Nat) (v : Bundle) : (s.setBundle c b v).sfu = s.sfu := rfl
@[simp] theorem State.setBundle_jobs (s : State) (c : CoreId) (b : Nat) (v : Bundle) : (s.setBundle c b v).jobs = s.jobs := rfl
@[simp] theorem State.setBundle_matrix (s : State) (c : CoreId) (b : Nat) (v : Bundle) : (s.setBundle c b v).matrix = s.matrix := rfl
@[simp] theorem State.setBundle_service (s : State) (c : CoreId) (b : Nat) (v : Bundle) : (s.setBundle c b v).service = s.service := rfl
@[simp] theorem State.setBundle_agenda (s : State) (c : CoreId) (b : Nat) (v : Bundle) : (s.setBundle c b v).agenda = s.agenda := rfl
@[simp] theorem State.setBundle_pick (s : State) (c : CoreId) (b : Nat) (v : Bundle) : (s.setBundle c b v).pick = s.pick := rfl
@[simp] theorem State.setBundle_cur (s : State) (c : CoreId) (b : Nat) (v : Bundle) : (s.setBundle c b v).cur = s.cur := rfl
@[simp] theorem State.setBundle_fresh (s : State) (c : CoreId) (b : Nat) (v : Bundle) : (s.setBundle c b v).fresh = s.fresh := rfl
@[simp] theorem State.setBundle_openVals (s : State) (c : CoreId) (b : Nat) (v : Bundle) : (s.setBundle c b v).openVals = s.openVals := rfl

@[simp] theorem State.onCoh_time (s : State) (f : Coherence → Coherence) : (s.onCoh f).time = s.time := rfl
@[simp] theorem State.onCoh_boot (s : State) (f : Coherence → Coherence) : (s.onCoh f).boot = s.boot := rfl
@[simp] theorem State.onCoh_net (s : State) (f : Coherence → Coherence) : (s.onCoh f).net = s.net := rfl
@[simp] theorem State.onCoh_coh (s : State) (f : Coherence → Coherence) : (s.onCoh f).coh = f s.coh := rfl
@[simp] theorem State.onCoh_fab (s : State) (f : Coherence → Coherence) : (s.onCoh f).fab = s.fab := rfl
@[simp] theorem State.onCoh_chits (s : State) (f : Coherence → Coherence) : (s.onCoh f).chits = s.chits := rfl
@[simp] theorem State.onCoh_mgmt (s : State) (f : Coherence → Coherence) : (s.onCoh f).mgmt = s.mgmt := rfl
@[simp] theorem State.onCoh_disp (s : State) (f : Coherence → Coherence) : (s.onCoh f).disp = s.disp := rfl
@[simp] theorem State.onCoh_grids (s : State) (f : Coherence → Coherence) : (s.onCoh f).grids = s.grids := rfl
@[simp] theorem State.onCoh_shadow (s : State) (f : Coherence → Coherence) : (s.onCoh f).shadow = s.shadow := rfl
@[simp] theorem State.onCoh_cores (s : State) (f : Coherence → Coherence) : (s.onCoh f).cores = s.cores := rfl
@[simp] theorem State.onCoh_clusters (s : State) (f : Coherence → Coherence) : (s.onCoh f).clusters = s.clusters := rfl
@[simp] theorem State.onCoh_dies (s : State) (f : Coherence → Coherence) : (s.onCoh f).dies = s.dies := rfl
@[simp] theorem State.onCoh_devBars (s : State) (f : Coherence → Coherence) : (s.onCoh f).devBars = s.devBars := rfl
@[simp] theorem State.onCoh_devRegs (s : State) (f : Coherence → Coherence) : (s.onCoh f).devRegs = s.devRegs := rfl
@[simp] theorem State.onCoh_warps (s : State) (f : Coherence → Coherence) : (s.onCoh f).warps = s.warps := rfl
@[simp] theorem State.onCoh_threads (s : State) (f : Coherence → Coherence) : (s.onCoh f).threads = s.threads := rfl
@[simp] theorem State.onCoh_groups (s : State) (f : Coherence → Coherence) : (s.onCoh f).groups = s.groups := rfl
@[simp] theorem State.onCoh_mem (s : State) (f : Coherence → Coherence) : (s.onCoh f).mem = s.mem := rfl
@[simp] theorem State.onCoh_weights (s : State) (f : Coherence → Coherence) : (s.onCoh f).weights = s.weights := rfl
@[simp] theorem State.onCoh_returns (s : State) (f : Coherence → Coherence) : (s.onCoh f).returns = s.returns := rfl
@[simp] theorem State.onCoh_sfu (s : State) (f : Coherence → Coherence) : (s.onCoh f).sfu = s.sfu := rfl
@[simp] theorem State.onCoh_jobs (s : State) (f : Coherence → Coherence) : (s.onCoh f).jobs = s.jobs := rfl
@[simp] theorem State.onCoh_matrix (s : State) (f : Coherence → Coherence) : (s.onCoh f).matrix = s.matrix := rfl
@[simp] theorem State.onCoh_service (s : State) (f : Coherence → Coherence) : (s.onCoh f).service = s.service := rfl
@[simp] theorem State.onCoh_agenda (s : State) (f : Coherence → Coherence) : (s.onCoh f).agenda = s.agenda := rfl
@[simp] theorem State.onCoh_pick (s : State) (f : Coherence → Coherence) : (s.onCoh f).pick = s.pick := rfl
@[simp] theorem State.onCoh_cur (s : State) (f : Coherence → Coherence) : (s.onCoh f).cur = s.cur := rfl
@[simp] theorem State.onCoh_fresh (s : State) (f : Coherence → Coherence) : (s.onCoh f).fresh = s.fresh := rfl
@[simp] theorem State.onCoh_openVals (s : State) (f : Coherence → Coherence) : (s.onCoh f).openVals = s.openVals := rfl

@[simp] theorem State.onNet_time (s : State) (f : Net → Net) : (s.onNet f).time = s.time := rfl
@[simp] theorem State.onNet_boot (s : State) (f : Net → Net) : (s.onNet f).boot = s.boot := rfl
@[simp] theorem State.onNet_net (s : State) (f : Net → Net) : (s.onNet f).net = f s.net := rfl
@[simp] theorem State.onNet_coh (s : State) (f : Net → Net) : (s.onNet f).coh = s.coh := rfl
@[simp] theorem State.onNet_fab (s : State) (f : Net → Net) : (s.onNet f).fab = s.fab := rfl
@[simp] theorem State.onNet_chits (s : State) (f : Net → Net) : (s.onNet f).chits = s.chits := rfl
@[simp] theorem State.onNet_mgmt (s : State) (f : Net → Net) : (s.onNet f).mgmt = s.mgmt := rfl
@[simp] theorem State.onNet_disp (s : State) (f : Net → Net) : (s.onNet f).disp = s.disp := rfl
@[simp] theorem State.onNet_grids (s : State) (f : Net → Net) : (s.onNet f).grids = s.grids := rfl
@[simp] theorem State.onNet_shadow (s : State) (f : Net → Net) : (s.onNet f).shadow = s.shadow := rfl
@[simp] theorem State.onNet_cores (s : State) (f : Net → Net) : (s.onNet f).cores = s.cores := rfl
@[simp] theorem State.onNet_clusters (s : State) (f : Net → Net) : (s.onNet f).clusters = s.clusters := rfl
@[simp] theorem State.onNet_dies (s : State) (f : Net → Net) : (s.onNet f).dies = s.dies := rfl
@[simp] theorem State.onNet_devBars (s : State) (f : Net → Net) : (s.onNet f).devBars = s.devBars := rfl
@[simp] theorem State.onNet_devRegs (s : State) (f : Net → Net) : (s.onNet f).devRegs = s.devRegs := rfl
@[simp] theorem State.onNet_warps (s : State) (f : Net → Net) : (s.onNet f).warps = s.warps := rfl
@[simp] theorem State.onNet_threads (s : State) (f : Net → Net) : (s.onNet f).threads = s.threads := rfl
@[simp] theorem State.onNet_groups (s : State) (f : Net → Net) : (s.onNet f).groups = s.groups := rfl
@[simp] theorem State.onNet_mem (s : State) (f : Net → Net) : (s.onNet f).mem = s.mem := rfl
@[simp] theorem State.onNet_weights (s : State) (f : Net → Net) : (s.onNet f).weights = s.weights := rfl
@[simp] theorem State.onNet_returns (s : State) (f : Net → Net) : (s.onNet f).returns = s.returns := rfl
@[simp] theorem State.onNet_sfu (s : State) (f : Net → Net) : (s.onNet f).sfu = s.sfu := rfl
@[simp] theorem State.onNet_jobs (s : State) (f : Net → Net) : (s.onNet f).jobs = s.jobs := rfl
@[simp] theorem State.onNet_matrix (s : State) (f : Net → Net) : (s.onNet f).matrix = s.matrix := rfl
@[simp] theorem State.onNet_service (s : State) (f : Net → Net) : (s.onNet f).service = s.service := rfl
@[simp] theorem State.onNet_agenda (s : State) (f : Net → Net) : (s.onNet f).agenda = s.agenda := rfl
@[simp] theorem State.onNet_pick (s : State) (f : Net → Net) : (s.onNet f).pick = s.pick := rfl
@[simp] theorem State.onNet_cur (s : State) (f : Net → Net) : (s.onNet f).cur = s.cur := rfl
@[simp] theorem State.onNet_fresh (s : State) (f : Net → Net) : (s.onNet f).fresh = s.fresh := rfl
@[simp] theorem State.onNet_openVals (s : State) (f : Net → Net) : (s.onNet f).openVals = s.openVals := rfl

@[simp] theorem State.onFab_time (s : State) (f : Fabric → Fabric) : (s.onFab f).time = s.time := rfl
@[simp] theorem State.onFab_boot (s : State) (f : Fabric → Fabric) : (s.onFab f).boot = s.boot := rfl
@[simp] theorem State.onFab_net (s : State) (f : Fabric → Fabric) : (s.onFab f).net = s.net := rfl
@[simp] theorem State.onFab_coh (s : State) (f : Fabric → Fabric) : (s.onFab f).coh = s.coh := rfl
@[simp] theorem State.onFab_fab (s : State) (f : Fabric → Fabric) : (s.onFab f).fab = f s.fab := rfl
@[simp] theorem State.onFab_chits (s : State) (f : Fabric → Fabric) : (s.onFab f).chits = s.chits := rfl
@[simp] theorem State.onFab_mgmt (s : State) (f : Fabric → Fabric) : (s.onFab f).mgmt = s.mgmt := rfl
@[simp] theorem State.onFab_disp (s : State) (f : Fabric → Fabric) : (s.onFab f).disp = s.disp := rfl
@[simp] theorem State.onFab_grids (s : State) (f : Fabric → Fabric) : (s.onFab f).grids = s.grids := rfl
@[simp] theorem State.onFab_shadow (s : State) (f : Fabric → Fabric) : (s.onFab f).shadow = s.shadow := rfl
@[simp] theorem State.onFab_cores (s : State) (f : Fabric → Fabric) : (s.onFab f).cores = s.cores := rfl
@[simp] theorem State.onFab_clusters (s : State) (f : Fabric → Fabric) : (s.onFab f).clusters = s.clusters := rfl
@[simp] theorem State.onFab_dies (s : State) (f : Fabric → Fabric) : (s.onFab f).dies = s.dies := rfl
@[simp] theorem State.onFab_devBars (s : State) (f : Fabric → Fabric) : (s.onFab f).devBars = s.devBars := rfl
@[simp] theorem State.onFab_devRegs (s : State) (f : Fabric → Fabric) : (s.onFab f).devRegs = s.devRegs := rfl
@[simp] theorem State.onFab_warps (s : State) (f : Fabric → Fabric) : (s.onFab f).warps = s.warps := rfl
@[simp] theorem State.onFab_threads (s : State) (f : Fabric → Fabric) : (s.onFab f).threads = s.threads := rfl
@[simp] theorem State.onFab_groups (s : State) (f : Fabric → Fabric) : (s.onFab f).groups = s.groups := rfl
@[simp] theorem State.onFab_mem (s : State) (f : Fabric → Fabric) : (s.onFab f).mem = s.mem := rfl
@[simp] theorem State.onFab_weights (s : State) (f : Fabric → Fabric) : (s.onFab f).weights = s.weights := rfl
@[simp] theorem State.onFab_returns (s : State) (f : Fabric → Fabric) : (s.onFab f).returns = s.returns := rfl
@[simp] theorem State.onFab_sfu (s : State) (f : Fabric → Fabric) : (s.onFab f).sfu = s.sfu := rfl
@[simp] theorem State.onFab_jobs (s : State) (f : Fabric → Fabric) : (s.onFab f).jobs = s.jobs := rfl
@[simp] theorem State.onFab_matrix (s : State) (f : Fabric → Fabric) : (s.onFab f).matrix = s.matrix := rfl
@[simp] theorem State.onFab_service (s : State) (f : Fabric → Fabric) : (s.onFab f).service = s.service := rfl
@[simp] theorem State.onFab_agenda (s : State) (f : Fabric → Fabric) : (s.onFab f).agenda = s.agenda := rfl
@[simp] theorem State.onFab_pick (s : State) (f : Fabric → Fabric) : (s.onFab f).pick = s.pick := rfl
@[simp] theorem State.onFab_cur (s : State) (f : Fabric → Fabric) : (s.onFab f).cur = s.cur := rfl
@[simp] theorem State.onFab_fresh (s : State) (f : Fabric → Fabric) : (s.onFab f).fresh = s.fresh := rfl
@[simp] theorem State.onFab_openVals (s : State) (f : Fabric → Fabric) : (s.onFab f).openVals = s.openVals := rfl

@[simp] theorem State.onChits_time (s : State) (f : Chits → Chits) : (s.onChits f).time = s.time := rfl
@[simp] theorem State.onChits_boot (s : State) (f : Chits → Chits) : (s.onChits f).boot = s.boot := rfl
@[simp] theorem State.onChits_net (s : State) (f : Chits → Chits) : (s.onChits f).net = s.net := rfl
@[simp] theorem State.onChits_coh (s : State) (f : Chits → Chits) : (s.onChits f).coh = s.coh := rfl
@[simp] theorem State.onChits_fab (s : State) (f : Chits → Chits) : (s.onChits f).fab = s.fab := rfl
@[simp] theorem State.onChits_chits (s : State) (f : Chits → Chits) : (s.onChits f).chits = f s.chits := rfl
@[simp] theorem State.onChits_mgmt (s : State) (f : Chits → Chits) : (s.onChits f).mgmt = s.mgmt := rfl
@[simp] theorem State.onChits_disp (s : State) (f : Chits → Chits) : (s.onChits f).disp = s.disp := rfl
@[simp] theorem State.onChits_grids (s : State) (f : Chits → Chits) : (s.onChits f).grids = s.grids := rfl
@[simp] theorem State.onChits_shadow (s : State) (f : Chits → Chits) : (s.onChits f).shadow = s.shadow := rfl
@[simp] theorem State.onChits_cores (s : State) (f : Chits → Chits) : (s.onChits f).cores = s.cores := rfl
@[simp] theorem State.onChits_clusters (s : State) (f : Chits → Chits) : (s.onChits f).clusters = s.clusters := rfl
@[simp] theorem State.onChits_dies (s : State) (f : Chits → Chits) : (s.onChits f).dies = s.dies := rfl
@[simp] theorem State.onChits_devBars (s : State) (f : Chits → Chits) : (s.onChits f).devBars = s.devBars := rfl
@[simp] theorem State.onChits_devRegs (s : State) (f : Chits → Chits) : (s.onChits f).devRegs = s.devRegs := rfl
@[simp] theorem State.onChits_warps (s : State) (f : Chits → Chits) : (s.onChits f).warps = s.warps := rfl
@[simp] theorem State.onChits_threads (s : State) (f : Chits → Chits) : (s.onChits f).threads = s.threads := rfl
@[simp] theorem State.onChits_groups (s : State) (f : Chits → Chits) : (s.onChits f).groups = s.groups := rfl
@[simp] theorem State.onChits_mem (s : State) (f : Chits → Chits) : (s.onChits f).mem = s.mem := rfl
@[simp] theorem State.onChits_weights (s : State) (f : Chits → Chits) : (s.onChits f).weights = s.weights := rfl
@[simp] theorem State.onChits_returns (s : State) (f : Chits → Chits) : (s.onChits f).returns = s.returns := rfl
@[simp] theorem State.onChits_sfu (s : State) (f : Chits → Chits) : (s.onChits f).sfu = s.sfu := rfl
@[simp] theorem State.onChits_jobs (s : State) (f : Chits → Chits) : (s.onChits f).jobs = s.jobs := rfl
@[simp] theorem State.onChits_matrix (s : State) (f : Chits → Chits) : (s.onChits f).matrix = s.matrix := rfl
@[simp] theorem State.onChits_service (s : State) (f : Chits → Chits) : (s.onChits f).service = s.service := rfl
@[simp] theorem State.onChits_agenda (s : State) (f : Chits → Chits) : (s.onChits f).agenda = s.agenda := rfl
@[simp] theorem State.onChits_pick (s : State) (f : Chits → Chits) : (s.onChits f).pick = s.pick := rfl
@[simp] theorem State.onChits_cur (s : State) (f : Chits → Chits) : (s.onChits f).cur = s.cur := rfl
@[simp] theorem State.onChits_fresh (s : State) (f : Chits → Chits) : (s.onChits f).fresh = s.fresh := rfl
@[simp] theorem State.onChits_openVals (s : State) (f : Chits → Chits) : (s.onChits f).openVals = s.openVals := rfl

@[simp] theorem State.onMgmt_time (s : State) (f : Mgmt → Mgmt) : (s.onMgmt f).time = s.time := rfl
@[simp] theorem State.onMgmt_boot (s : State) (f : Mgmt → Mgmt) : (s.onMgmt f).boot = s.boot := rfl
@[simp] theorem State.onMgmt_net (s : State) (f : Mgmt → Mgmt) : (s.onMgmt f).net = s.net := rfl
@[simp] theorem State.onMgmt_coh (s : State) (f : Mgmt → Mgmt) : (s.onMgmt f).coh = s.coh := rfl
@[simp] theorem State.onMgmt_fab (s : State) (f : Mgmt → Mgmt) : (s.onMgmt f).fab = s.fab := rfl
@[simp] theorem State.onMgmt_chits (s : State) (f : Mgmt → Mgmt) : (s.onMgmt f).chits = s.chits := rfl
@[simp] theorem State.onMgmt_mgmt (s : State) (f : Mgmt → Mgmt) : (s.onMgmt f).mgmt = f s.mgmt := rfl
@[simp] theorem State.onMgmt_disp (s : State) (f : Mgmt → Mgmt) : (s.onMgmt f).disp = s.disp := rfl
@[simp] theorem State.onMgmt_grids (s : State) (f : Mgmt → Mgmt) : (s.onMgmt f).grids = s.grids := rfl
@[simp] theorem State.onMgmt_shadow (s : State) (f : Mgmt → Mgmt) : (s.onMgmt f).shadow = s.shadow := rfl
@[simp] theorem State.onMgmt_cores (s : State) (f : Mgmt → Mgmt) : (s.onMgmt f).cores = s.cores := rfl
@[simp] theorem State.onMgmt_clusters (s : State) (f : Mgmt → Mgmt) : (s.onMgmt f).clusters = s.clusters := rfl
@[simp] theorem State.onMgmt_dies (s : State) (f : Mgmt → Mgmt) : (s.onMgmt f).dies = s.dies := rfl
@[simp] theorem State.onMgmt_devBars (s : State) (f : Mgmt → Mgmt) : (s.onMgmt f).devBars = s.devBars := rfl
@[simp] theorem State.onMgmt_devRegs (s : State) (f : Mgmt → Mgmt) : (s.onMgmt f).devRegs = s.devRegs := rfl
@[simp] theorem State.onMgmt_warps (s : State) (f : Mgmt → Mgmt) : (s.onMgmt f).warps = s.warps := rfl
@[simp] theorem State.onMgmt_threads (s : State) (f : Mgmt → Mgmt) : (s.onMgmt f).threads = s.threads := rfl
@[simp] theorem State.onMgmt_groups (s : State) (f : Mgmt → Mgmt) : (s.onMgmt f).groups = s.groups := rfl
@[simp] theorem State.onMgmt_mem (s : State) (f : Mgmt → Mgmt) : (s.onMgmt f).mem = s.mem := rfl
@[simp] theorem State.onMgmt_weights (s : State) (f : Mgmt → Mgmt) : (s.onMgmt f).weights = s.weights := rfl
@[simp] theorem State.onMgmt_returns (s : State) (f : Mgmt → Mgmt) : (s.onMgmt f).returns = s.returns := rfl
@[simp] theorem State.onMgmt_sfu (s : State) (f : Mgmt → Mgmt) : (s.onMgmt f).sfu = s.sfu := rfl
@[simp] theorem State.onMgmt_jobs (s : State) (f : Mgmt → Mgmt) : (s.onMgmt f).jobs = s.jobs := rfl
@[simp] theorem State.onMgmt_matrix (s : State) (f : Mgmt → Mgmt) : (s.onMgmt f).matrix = s.matrix := rfl
@[simp] theorem State.onMgmt_service (s : State) (f : Mgmt → Mgmt) : (s.onMgmt f).service = s.service := rfl
@[simp] theorem State.onMgmt_agenda (s : State) (f : Mgmt → Mgmt) : (s.onMgmt f).agenda = s.agenda := rfl
@[simp] theorem State.onMgmt_pick (s : State) (f : Mgmt → Mgmt) : (s.onMgmt f).pick = s.pick := rfl
@[simp] theorem State.onMgmt_cur (s : State) (f : Mgmt → Mgmt) : (s.onMgmt f).cur = s.cur := rfl
@[simp] theorem State.onMgmt_fresh (s : State) (f : Mgmt → Mgmt) : (s.onMgmt f).fresh = s.fresh := rfl
@[simp] theorem State.onMgmt_openVals (s : State) (f : Mgmt → Mgmt) : (s.onMgmt f).openVals = s.openVals := rfl

@[simp] theorem State.onBoot_time (s : State) (f : Boot → Boot) : (s.onBoot f).time = s.time := rfl
@[simp] theorem State.onBoot_boot (s : State) (f : Boot → Boot) : (s.onBoot f).boot = f s.boot := rfl
@[simp] theorem State.onBoot_net (s : State) (f : Boot → Boot) : (s.onBoot f).net = s.net := rfl
@[simp] theorem State.onBoot_coh (s : State) (f : Boot → Boot) : (s.onBoot f).coh = s.coh := rfl
@[simp] theorem State.onBoot_fab (s : State) (f : Boot → Boot) : (s.onBoot f).fab = s.fab := rfl
@[simp] theorem State.onBoot_chits (s : State) (f : Boot → Boot) : (s.onBoot f).chits = s.chits := rfl
@[simp] theorem State.onBoot_mgmt (s : State) (f : Boot → Boot) : (s.onBoot f).mgmt = s.mgmt := rfl
@[simp] theorem State.onBoot_disp (s : State) (f : Boot → Boot) : (s.onBoot f).disp = s.disp := rfl
@[simp] theorem State.onBoot_grids (s : State) (f : Boot → Boot) : (s.onBoot f).grids = s.grids := rfl
@[simp] theorem State.onBoot_shadow (s : State) (f : Boot → Boot) : (s.onBoot f).shadow = s.shadow := rfl
@[simp] theorem State.onBoot_cores (s : State) (f : Boot → Boot) : (s.onBoot f).cores = s.cores := rfl
@[simp] theorem State.onBoot_clusters (s : State) (f : Boot → Boot) : (s.onBoot f).clusters = s.clusters := rfl
@[simp] theorem State.onBoot_dies (s : State) (f : Boot → Boot) : (s.onBoot f).dies = s.dies := rfl
@[simp] theorem State.onBoot_devBars (s : State) (f : Boot → Boot) : (s.onBoot f).devBars = s.devBars := rfl
@[simp] theorem State.onBoot_devRegs (s : State) (f : Boot → Boot) : (s.onBoot f).devRegs = s.devRegs := rfl
@[simp] theorem State.onBoot_warps (s : State) (f : Boot → Boot) : (s.onBoot f).warps = s.warps := rfl
@[simp] theorem State.onBoot_threads (s : State) (f : Boot → Boot) : (s.onBoot f).threads = s.threads := rfl
@[simp] theorem State.onBoot_groups (s : State) (f : Boot → Boot) : (s.onBoot f).groups = s.groups := rfl
@[simp] theorem State.onBoot_mem (s : State) (f : Boot → Boot) : (s.onBoot f).mem = s.mem := rfl
@[simp] theorem State.onBoot_weights (s : State) (f : Boot → Boot) : (s.onBoot f).weights = s.weights := rfl
@[simp] theorem State.onBoot_returns (s : State) (f : Boot → Boot) : (s.onBoot f).returns = s.returns := rfl
@[simp] theorem State.onBoot_sfu (s : State) (f : Boot → Boot) : (s.onBoot f).sfu = s.sfu := rfl
@[simp] theorem State.onBoot_jobs (s : State) (f : Boot → Boot) : (s.onBoot f).jobs = s.jobs := rfl
@[simp] theorem State.onBoot_matrix (s : State) (f : Boot → Boot) : (s.onBoot f).matrix = s.matrix := rfl
@[simp] theorem State.onBoot_service (s : State) (f : Boot → Boot) : (s.onBoot f).service = s.service := rfl
@[simp] theorem State.onBoot_agenda (s : State) (f : Boot → Boot) : (s.onBoot f).agenda = s.agenda := rfl
@[simp] theorem State.onBoot_pick (s : State) (f : Boot → Boot) : (s.onBoot f).pick = s.pick := rfl
@[simp] theorem State.onBoot_cur (s : State) (f : Boot → Boot) : (s.onBoot f).cur = s.cur := rfl
@[simp] theorem State.onBoot_fresh (s : State) (f : Boot → Boot) : (s.onBoot f).fresh = s.fresh := rfl
@[simp] theorem State.onBoot_openVals (s : State) (f : Boot → Boot) : (s.onBoot f).openVals = s.openVals := rfl

@[simp] theorem State.onThread_time (s : State) (t : ThreadId) (f : Thread → Thread) : (s.onThread t f).time = s.time := rfl
@[simp] theorem State.onThread_boot (s : State) (t : ThreadId) (f : Thread → Thread) : (s.onThread t f).boot = s.boot := rfl
@[simp] theorem State.onThread_net (s : State) (t : ThreadId) (f : Thread → Thread) : (s.onThread t f).net = s.net := rfl
@[simp] theorem State.onThread_coh (s : State) (t : ThreadId) (f : Thread → Thread) : (s.onThread t f).coh = s.coh := rfl
@[simp] theorem State.onThread_fab (s : State) (t : ThreadId) (f : Thread → Thread) : (s.onThread t f).fab = s.fab := rfl
@[simp] theorem State.onThread_chits (s : State) (t : ThreadId) (f : Thread → Thread) : (s.onThread t f).chits = s.chits := rfl
@[simp] theorem State.onThread_mgmt (s : State) (t : ThreadId) (f : Thread → Thread) : (s.onThread t f).mgmt = s.mgmt := rfl
@[simp] theorem State.onThread_disp (s : State) (t : ThreadId) (f : Thread → Thread) : (s.onThread t f).disp = s.disp := rfl
@[simp] theorem State.onThread_grids (s : State) (t : ThreadId) (f : Thread → Thread) : (s.onThread t f).grids = s.grids := rfl
@[simp] theorem State.onThread_shadow (s : State) (t : ThreadId) (f : Thread → Thread) : (s.onThread t f).shadow = s.shadow := rfl
@[simp] theorem State.onThread_cores (s : State) (t : ThreadId) (f : Thread → Thread) : (s.onThread t f).cores = s.cores := rfl
@[simp] theorem State.onThread_clusters (s : State) (t : ThreadId) (f : Thread → Thread) : (s.onThread t f).clusters = s.clusters := rfl
@[simp] theorem State.onThread_dies (s : State) (t : ThreadId) (f : Thread → Thread) : (s.onThread t f).dies = s.dies := rfl
@[simp] theorem State.onThread_devBars (s : State) (t : ThreadId) (f : Thread → Thread) : (s.onThread t f).devBars = s.devBars := rfl
@[simp] theorem State.onThread_devRegs (s : State) (t : ThreadId) (f : Thread → Thread) : (s.onThread t f).devRegs = s.devRegs := rfl
@[simp] theorem State.onThread_warps (s : State) (t : ThreadId) (f : Thread → Thread) : (s.onThread t f).warps = s.warps := rfl
@[simp] theorem State.onThread_threads (s : State) (t : ThreadId) (f : Thread → Thread) : (s.onThread t f).threads = put t (f (s.thread t)) s.threads := rfl
@[simp] theorem State.onThread_groups (s : State) (t : ThreadId) (f : Thread → Thread) : (s.onThread t f).groups = s.groups := rfl
@[simp] theorem State.onThread_mem (s : State) (t : ThreadId) (f : Thread → Thread) : (s.onThread t f).mem = s.mem := rfl
@[simp] theorem State.onThread_weights (s : State) (t : ThreadId) (f : Thread → Thread) : (s.onThread t f).weights = s.weights := rfl
@[simp] theorem State.onThread_returns (s : State) (t : ThreadId) (f : Thread → Thread) : (s.onThread t f).returns = s.returns := rfl
@[simp] theorem State.onThread_sfu (s : State) (t : ThreadId) (f : Thread → Thread) : (s.onThread t f).sfu = s.sfu := rfl
@[simp] theorem State.onThread_jobs (s : State) (t : ThreadId) (f : Thread → Thread) : (s.onThread t f).jobs = s.jobs := rfl
@[simp] theorem State.onThread_matrix (s : State) (t : ThreadId) (f : Thread → Thread) : (s.onThread t f).matrix = s.matrix := rfl
@[simp] theorem State.onThread_service (s : State) (t : ThreadId) (f : Thread → Thread) : (s.onThread t f).service = s.service := rfl
@[simp] theorem State.onThread_agenda (s : State) (t : ThreadId) (f : Thread → Thread) : (s.onThread t f).agenda = s.agenda := rfl
@[simp] theorem State.onThread_pick (s : State) (t : ThreadId) (f : Thread → Thread) : (s.onThread t f).pick = s.pick := rfl
@[simp] theorem State.onThread_cur (s : State) (t : ThreadId) (f : Thread → Thread) : (s.onThread t f).cur = s.cur := rfl
@[simp] theorem State.onThread_fresh (s : State) (t : ThreadId) (f : Thread → Thread) : (s.onThread t f).fresh = s.fresh := rfl
@[simp] theorem State.onThread_openVals (s : State) (t : ThreadId) (f : Thread → Thread) : (s.onThread t f).openVals = s.openVals := rfl

@[simp] theorem State.onWarp_time (s : State) (w : WarpId) (f : Warp → Warp) : (s.onWarp w f).time = s.time := rfl
@[simp] theorem State.onWarp_boot (s : State) (w : WarpId) (f : Warp → Warp) : (s.onWarp w f).boot = s.boot := rfl
@[simp] theorem State.onWarp_net (s : State) (w : WarpId) (f : Warp → Warp) : (s.onWarp w f).net = s.net := rfl
@[simp] theorem State.onWarp_coh (s : State) (w : WarpId) (f : Warp → Warp) : (s.onWarp w f).coh = s.coh := rfl
@[simp] theorem State.onWarp_fab (s : State) (w : WarpId) (f : Warp → Warp) : (s.onWarp w f).fab = s.fab := rfl
@[simp] theorem State.onWarp_chits (s : State) (w : WarpId) (f : Warp → Warp) : (s.onWarp w f).chits = s.chits := rfl
@[simp] theorem State.onWarp_mgmt (s : State) (w : WarpId) (f : Warp → Warp) : (s.onWarp w f).mgmt = s.mgmt := rfl
@[simp] theorem State.onWarp_disp (s : State) (w : WarpId) (f : Warp → Warp) : (s.onWarp w f).disp = s.disp := rfl
@[simp] theorem State.onWarp_grids (s : State) (w : WarpId) (f : Warp → Warp) : (s.onWarp w f).grids = s.grids := rfl
@[simp] theorem State.onWarp_shadow (s : State) (w : WarpId) (f : Warp → Warp) : (s.onWarp w f).shadow = s.shadow := rfl
@[simp] theorem State.onWarp_cores (s : State) (w : WarpId) (f : Warp → Warp) : (s.onWarp w f).cores = s.cores := rfl
@[simp] theorem State.onWarp_clusters (s : State) (w : WarpId) (f : Warp → Warp) : (s.onWarp w f).clusters = s.clusters := rfl
@[simp] theorem State.onWarp_dies (s : State) (w : WarpId) (f : Warp → Warp) : (s.onWarp w f).dies = s.dies := rfl
@[simp] theorem State.onWarp_devBars (s : State) (w : WarpId) (f : Warp → Warp) : (s.onWarp w f).devBars = s.devBars := rfl
@[simp] theorem State.onWarp_devRegs (s : State) (w : WarpId) (f : Warp → Warp) : (s.onWarp w f).devRegs = s.devRegs := rfl
@[simp] theorem State.onWarp_warps (s : State) (w : WarpId) (f : Warp → Warp) : (s.onWarp w f).warps = put w (f (s.warp w)) s.warps := rfl
@[simp] theorem State.onWarp_threads (s : State) (w : WarpId) (f : Warp → Warp) : (s.onWarp w f).threads = s.threads := rfl
@[simp] theorem State.onWarp_groups (s : State) (w : WarpId) (f : Warp → Warp) : (s.onWarp w f).groups = s.groups := rfl
@[simp] theorem State.onWarp_mem (s : State) (w : WarpId) (f : Warp → Warp) : (s.onWarp w f).mem = s.mem := rfl
@[simp] theorem State.onWarp_weights (s : State) (w : WarpId) (f : Warp → Warp) : (s.onWarp w f).weights = s.weights := rfl
@[simp] theorem State.onWarp_returns (s : State) (w : WarpId) (f : Warp → Warp) : (s.onWarp w f).returns = s.returns := rfl
@[simp] theorem State.onWarp_sfu (s : State) (w : WarpId) (f : Warp → Warp) : (s.onWarp w f).sfu = s.sfu := rfl
@[simp] theorem State.onWarp_jobs (s : State) (w : WarpId) (f : Warp → Warp) : (s.onWarp w f).jobs = s.jobs := rfl
@[simp] theorem State.onWarp_matrix (s : State) (w : WarpId) (f : Warp → Warp) : (s.onWarp w f).matrix = s.matrix := rfl
@[simp] theorem State.onWarp_service (s : State) (w : WarpId) (f : Warp → Warp) : (s.onWarp w f).service = s.service := rfl
@[simp] theorem State.onWarp_agenda (s : State) (w : WarpId) (f : Warp → Warp) : (s.onWarp w f).agenda = s.agenda := rfl
@[simp] theorem State.onWarp_pick (s : State) (w : WarpId) (f : Warp → Warp) : (s.onWarp w f).pick = s.pick := rfl
@[simp] theorem State.onWarp_cur (s : State) (w : WarpId) (f : Warp → Warp) : (s.onWarp w f).cur = s.cur := rfl
@[simp] theorem State.onWarp_fresh (s : State) (w : WarpId) (f : Warp → Warp) : (s.onWarp w f).fresh = s.fresh := rfl
@[simp] theorem State.onWarp_openVals (s : State) (w : WarpId) (f : Warp → Warp) : (s.onWarp w f).openVals = s.openVals := rfl

@[simp] theorem State.onCore_time (s : State) (c : CoreId) (f : Core → Core) : (s.onCore c f).time = s.time := rfl
@[simp] theorem State.onCore_boot (s : State) (c : CoreId) (f : Core → Core) : (s.onCore c f).boot = s.boot := rfl
@[simp] theorem State.onCore_net (s : State) (c : CoreId) (f : Core → Core) : (s.onCore c f).net = s.net := rfl
@[simp] theorem State.onCore_coh (s : State) (c : CoreId) (f : Core → Core) : (s.onCore c f).coh = s.coh := rfl
@[simp] theorem State.onCore_fab (s : State) (c : CoreId) (f : Core → Core) : (s.onCore c f).fab = s.fab := rfl
@[simp] theorem State.onCore_chits (s : State) (c : CoreId) (f : Core → Core) : (s.onCore c f).chits = s.chits := rfl
@[simp] theorem State.onCore_mgmt (s : State) (c : CoreId) (f : Core → Core) : (s.onCore c f).mgmt = s.mgmt := rfl
@[simp] theorem State.onCore_disp (s : State) (c : CoreId) (f : Core → Core) : (s.onCore c f).disp = s.disp := rfl
@[simp] theorem State.onCore_grids (s : State) (c : CoreId) (f : Core → Core) : (s.onCore c f).grids = s.grids := rfl
@[simp] theorem State.onCore_shadow (s : State) (c : CoreId) (f : Core → Core) : (s.onCore c f).shadow = s.shadow := rfl
@[simp] theorem State.onCore_cores (s : State) (c : CoreId) (f : Core → Core) : (s.onCore c f).cores = put c (f (s.core c)) s.cores := rfl
@[simp] theorem State.onCore_clusters (s : State) (c : CoreId) (f : Core → Core) : (s.onCore c f).clusters = s.clusters := rfl
@[simp] theorem State.onCore_dies (s : State) (c : CoreId) (f : Core → Core) : (s.onCore c f).dies = s.dies := rfl
@[simp] theorem State.onCore_devBars (s : State) (c : CoreId) (f : Core → Core) : (s.onCore c f).devBars = s.devBars := rfl
@[simp] theorem State.onCore_devRegs (s : State) (c : CoreId) (f : Core → Core) : (s.onCore c f).devRegs = s.devRegs := rfl
@[simp] theorem State.onCore_warps (s : State) (c : CoreId) (f : Core → Core) : (s.onCore c f).warps = s.warps := rfl
@[simp] theorem State.onCore_threads (s : State) (c : CoreId) (f : Core → Core) : (s.onCore c f).threads = s.threads := rfl
@[simp] theorem State.onCore_groups (s : State) (c : CoreId) (f : Core → Core) : (s.onCore c f).groups = s.groups := rfl
@[simp] theorem State.onCore_mem (s : State) (c : CoreId) (f : Core → Core) : (s.onCore c f).mem = s.mem := rfl
@[simp] theorem State.onCore_weights (s : State) (c : CoreId) (f : Core → Core) : (s.onCore c f).weights = s.weights := rfl
@[simp] theorem State.onCore_returns (s : State) (c : CoreId) (f : Core → Core) : (s.onCore c f).returns = s.returns := rfl
@[simp] theorem State.onCore_sfu (s : State) (c : CoreId) (f : Core → Core) : (s.onCore c f).sfu = s.sfu := rfl
@[simp] theorem State.onCore_jobs (s : State) (c : CoreId) (f : Core → Core) : (s.onCore c f).jobs = s.jobs := rfl
@[simp] theorem State.onCore_matrix (s : State) (c : CoreId) (f : Core → Core) : (s.onCore c f).matrix = s.matrix := rfl
@[simp] theorem State.onCore_service (s : State) (c : CoreId) (f : Core → Core) : (s.onCore c f).service = s.service := rfl
@[simp] theorem State.onCore_agenda (s : State) (c : CoreId) (f : Core → Core) : (s.onCore c f).agenda = s.agenda := rfl
@[simp] theorem State.onCore_pick (s : State) (c : CoreId) (f : Core → Core) : (s.onCore c f).pick = s.pick := rfl
@[simp] theorem State.onCore_cur (s : State) (c : CoreId) (f : Core → Core) : (s.onCore c f).cur = s.cur := rfl
@[simp] theorem State.onCore_fresh (s : State) (c : CoreId) (f : Core → Core) : (s.onCore c f).fresh = s.fresh := rfl
@[simp] theorem State.onCore_openVals (s : State) (c : CoreId) (f : Core → Core) : (s.onCore c f).openVals = s.openVals := rfl

@[simp] theorem State.onDie_time (s : State) (d : Nat) (f : Die → Die) : (s.onDie d f).time = s.time := rfl
@[simp] theorem State.onDie_boot (s : State) (d : Nat) (f : Die → Die) : (s.onDie d f).boot = s.boot := rfl
@[simp] theorem State.onDie_net (s : State) (d : Nat) (f : Die → Die) : (s.onDie d f).net = s.net := rfl
@[simp] theorem State.onDie_coh (s : State) (d : Nat) (f : Die → Die) : (s.onDie d f).coh = s.coh := rfl
@[simp] theorem State.onDie_fab (s : State) (d : Nat) (f : Die → Die) : (s.onDie d f).fab = s.fab := rfl
@[simp] theorem State.onDie_chits (s : State) (d : Nat) (f : Die → Die) : (s.onDie d f).chits = s.chits := rfl
@[simp] theorem State.onDie_mgmt (s : State) (d : Nat) (f : Die → Die) : (s.onDie d f).mgmt = s.mgmt := rfl
@[simp] theorem State.onDie_disp (s : State) (d : Nat) (f : Die → Die) : (s.onDie d f).disp = s.disp := rfl
@[simp] theorem State.onDie_grids (s : State) (d : Nat) (f : Die → Die) : (s.onDie d f).grids = s.grids := rfl
@[simp] theorem State.onDie_shadow (s : State) (d : Nat) (f : Die → Die) : (s.onDie d f).shadow = s.shadow := rfl
@[simp] theorem State.onDie_cores (s : State) (d : Nat) (f : Die → Die) : (s.onDie d f).cores = s.cores := rfl
@[simp] theorem State.onDie_clusters (s : State) (d : Nat) (f : Die → Die) : (s.onDie d f).clusters = s.clusters := rfl
@[simp] theorem State.onDie_dies (s : State) (d : Nat) (f : Die → Die) : (s.onDie d f).dies = put d (f (s.die d)) s.dies := rfl
@[simp] theorem State.onDie_devBars (s : State) (d : Nat) (f : Die → Die) : (s.onDie d f).devBars = s.devBars := rfl
@[simp] theorem State.onDie_devRegs (s : State) (d : Nat) (f : Die → Die) : (s.onDie d f).devRegs = s.devRegs := rfl
@[simp] theorem State.onDie_warps (s : State) (d : Nat) (f : Die → Die) : (s.onDie d f).warps = s.warps := rfl
@[simp] theorem State.onDie_threads (s : State) (d : Nat) (f : Die → Die) : (s.onDie d f).threads = s.threads := rfl
@[simp] theorem State.onDie_groups (s : State) (d : Nat) (f : Die → Die) : (s.onDie d f).groups = s.groups := rfl
@[simp] theorem State.onDie_mem (s : State) (d : Nat) (f : Die → Die) : (s.onDie d f).mem = s.mem := rfl
@[simp] theorem State.onDie_weights (s : State) (d : Nat) (f : Die → Die) : (s.onDie d f).weights = s.weights := rfl
@[simp] theorem State.onDie_returns (s : State) (d : Nat) (f : Die → Die) : (s.onDie d f).returns = s.returns := rfl
@[simp] theorem State.onDie_sfu (s : State) (d : Nat) (f : Die → Die) : (s.onDie d f).sfu = s.sfu := rfl
@[simp] theorem State.onDie_jobs (s : State) (d : Nat) (f : Die → Die) : (s.onDie d f).jobs = s.jobs := rfl
@[simp] theorem State.onDie_matrix (s : State) (d : Nat) (f : Die → Die) : (s.onDie d f).matrix = s.matrix := rfl
@[simp] theorem State.onDie_service (s : State) (d : Nat) (f : Die → Die) : (s.onDie d f).service = s.service := rfl
@[simp] theorem State.onDie_agenda (s : State) (d : Nat) (f : Die → Die) : (s.onDie d f).agenda = s.agenda := rfl
@[simp] theorem State.onDie_pick (s : State) (d : Nat) (f : Die → Die) : (s.onDie d f).pick = s.pick := rfl
@[simp] theorem State.onDie_cur (s : State) (d : Nat) (f : Die → Die) : (s.onDie d f).cur = s.cur := rfl
@[simp] theorem State.onDie_fresh (s : State) (d : Nat) (f : Die → Die) : (s.onDie d f).fresh = s.fresh := rfl
@[simp] theorem State.onDie_openVals (s : State) (d : Nat) (f : Die → Die) : (s.onDie d f).openVals = s.openVals := rfl

@[simp] theorem State.onDisp_time (s : State) (d : Nat) (f : Dispatcher → Dispatcher) : (s.onDisp d f).time = s.time := rfl
@[simp] theorem State.onDisp_boot (s : State) (d : Nat) (f : Dispatcher → Dispatcher) : (s.onDisp d f).boot = s.boot := rfl
@[simp] theorem State.onDisp_net (s : State) (d : Nat) (f : Dispatcher → Dispatcher) : (s.onDisp d f).net = s.net := rfl
@[simp] theorem State.onDisp_coh (s : State) (d : Nat) (f : Dispatcher → Dispatcher) : (s.onDisp d f).coh = s.coh := rfl
@[simp] theorem State.onDisp_fab (s : State) (d : Nat) (f : Dispatcher → Dispatcher) : (s.onDisp d f).fab = s.fab := rfl
@[simp] theorem State.onDisp_chits (s : State) (d : Nat) (f : Dispatcher → Dispatcher) : (s.onDisp d f).chits = s.chits := rfl
@[simp] theorem State.onDisp_mgmt (s : State) (d : Nat) (f : Dispatcher → Dispatcher) : (s.onDisp d f).mgmt = s.mgmt := rfl
@[simp] theorem State.onDisp_disp (s : State) (d : Nat) (f : Dispatcher → Dispatcher) : (s.onDisp d f).disp = put d (f (s.dispatcher d)) s.disp := rfl
@[simp] theorem State.onDisp_grids (s : State) (d : Nat) (f : Dispatcher → Dispatcher) : (s.onDisp d f).grids = s.grids := rfl
@[simp] theorem State.onDisp_shadow (s : State) (d : Nat) (f : Dispatcher → Dispatcher) : (s.onDisp d f).shadow = s.shadow := rfl
@[simp] theorem State.onDisp_cores (s : State) (d : Nat) (f : Dispatcher → Dispatcher) : (s.onDisp d f).cores = s.cores := rfl
@[simp] theorem State.onDisp_clusters (s : State) (d : Nat) (f : Dispatcher → Dispatcher) : (s.onDisp d f).clusters = s.clusters := rfl
@[simp] theorem State.onDisp_dies (s : State) (d : Nat) (f : Dispatcher → Dispatcher) : (s.onDisp d f).dies = s.dies := rfl
@[simp] theorem State.onDisp_devBars (s : State) (d : Nat) (f : Dispatcher → Dispatcher) : (s.onDisp d f).devBars = s.devBars := rfl
@[simp] theorem State.onDisp_devRegs (s : State) (d : Nat) (f : Dispatcher → Dispatcher) : (s.onDisp d f).devRegs = s.devRegs := rfl
@[simp] theorem State.onDisp_warps (s : State) (d : Nat) (f : Dispatcher → Dispatcher) : (s.onDisp d f).warps = s.warps := rfl
@[simp] theorem State.onDisp_threads (s : State) (d : Nat) (f : Dispatcher → Dispatcher) : (s.onDisp d f).threads = s.threads := rfl
@[simp] theorem State.onDisp_groups (s : State) (d : Nat) (f : Dispatcher → Dispatcher) : (s.onDisp d f).groups = s.groups := rfl
@[simp] theorem State.onDisp_mem (s : State) (d : Nat) (f : Dispatcher → Dispatcher) : (s.onDisp d f).mem = s.mem := rfl
@[simp] theorem State.onDisp_weights (s : State) (d : Nat) (f : Dispatcher → Dispatcher) : (s.onDisp d f).weights = s.weights := rfl
@[simp] theorem State.onDisp_returns (s : State) (d : Nat) (f : Dispatcher → Dispatcher) : (s.onDisp d f).returns = s.returns := rfl
@[simp] theorem State.onDisp_sfu (s : State) (d : Nat) (f : Dispatcher → Dispatcher) : (s.onDisp d f).sfu = s.sfu := rfl
@[simp] theorem State.onDisp_jobs (s : State) (d : Nat) (f : Dispatcher → Dispatcher) : (s.onDisp d f).jobs = s.jobs := rfl
@[simp] theorem State.onDisp_matrix (s : State) (d : Nat) (f : Dispatcher → Dispatcher) : (s.onDisp d f).matrix = s.matrix := rfl
@[simp] theorem State.onDisp_service (s : State) (d : Nat) (f : Dispatcher → Dispatcher) : (s.onDisp d f).service = s.service := rfl
@[simp] theorem State.onDisp_agenda (s : State) (d : Nat) (f : Dispatcher → Dispatcher) : (s.onDisp d f).agenda = s.agenda := rfl
@[simp] theorem State.onDisp_pick (s : State) (d : Nat) (f : Dispatcher → Dispatcher) : (s.onDisp d f).pick = s.pick := rfl
@[simp] theorem State.onDisp_cur (s : State) (d : Nat) (f : Dispatcher → Dispatcher) : (s.onDisp d f).cur = s.cur := rfl
@[simp] theorem State.onDisp_fresh (s : State) (d : Nat) (f : Dispatcher → Dispatcher) : (s.onDisp d f).fresh = s.fresh := rfl
@[simp] theorem State.onDisp_openVals (s : State) (d : Nat) (f : Dispatcher → Dispatcher) : (s.onDisp d f).openVals = s.openVals := rfl

/-! ## Pieces read after an update -/

@[simp] theorem State.thread_setThread_same (s : State) (t : ThreadId) (v : Thread) : (s.setThread t v).thread t = v := by simp [State.thread]
@[simp] theorem State.thread_setThread_other (s : State) {t y : ThreadId} (h : y ≠ t) (v : Thread) : (s.setThread t v).thread y = s.thread y := by simp [State.thread, h]
@[simp] theorem State.thread_onThread_same (s : State) (t : ThreadId) (f : Thread → Thread) : (s.onThread t f).thread t = f (s.thread t) := by simp [State.thread]
@[simp] theorem State.thread_onThread_other (s : State) {t y : ThreadId} (h : y ≠ t) (f : Thread → Thread) : (s.onThread t f).thread y = s.thread y := by simp [State.thread, h]
@[simp] theorem State.warp_setWarp_same (s : State) (w : WarpId) (v : Warp) : (s.setWarp w v).warp w = v := by simp [State.warp]
@[simp] theorem State.warp_setWarp_other (s : State) {w y : WarpId} (h : y ≠ w) (v : Warp) : (s.setWarp w v).warp y = s.warp y := by simp [State.warp, h]
@[simp] theorem State.warp_onWarp_same (s : State) (w : WarpId) (f : Warp → Warp) : (s.onWarp w f).warp w = f (s.warp w) := by simp [State.warp]
@[simp] theorem State.warp_onWarp_other (s : State) {w y : WarpId} (h : y ≠ w) (f : Warp → Warp) : (s.onWarp w f).warp y = s.warp y := by simp [State.warp, h]
@[simp] theorem State.core_setCore_same (s : State) (c : CoreId) (v : Core) : (s.setCore c v).core c = v := by simp [State.core]
@[simp] theorem State.core_setCore_other (s : State) {c y : CoreId} (h : y ≠ c) (v : Core) : (s.setCore c v).core y = s.core y := by simp [State.core, h]
@[simp] theorem State.core_onCore_same (s : State) (c : CoreId) (f : Core → Core) : (s.onCore c f).core c = f (s.core c) := by simp [State.core]
@[simp] theorem State.core_onCore_other (s : State) {c y : CoreId} (h : y ≠ c) (f : Core → Core) : (s.onCore c f).core y = s.core y := by simp [State.core, h]
@[simp] theorem State.die_setDie_same (s : State) (d : Nat) (v : Die) : (s.setDie d v).die d = v := by simp [State.die]
@[simp] theorem State.die_setDie_other (s : State) {d y : Nat} (h : y ≠ d) (v : Die) : (s.setDie d v).die y = s.die y := by simp [State.die, h]
@[simp] theorem State.die_onDie_same (s : State) (d : Nat) (f : Die → Die) : (s.onDie d f).die d = f (s.die d) := by simp [State.die]
@[simp] theorem State.die_onDie_other (s : State) {d y : Nat} (h : y ≠ d) (f : Die → Die) : (s.onDie d f).die y = s.die y := by simp [State.die, h]
@[simp] theorem State.dispatcher_setDispatcher_same (s : State) (d : Nat) (v : Dispatcher) : (s.setDispatcher d v).dispatcher d = v := by simp [State.dispatcher]
@[simp] theorem State.dispatcher_setDispatcher_other (s : State) {d y : Nat} (h : y ≠ d) (v : Dispatcher) : (s.setDispatcher d v).dispatcher y = s.dispatcher y := by simp [State.dispatcher, h]
@[simp] theorem State.dispatcher_onDisp_same (s : State) (d : Nat) (f : Dispatcher → Dispatcher) : (s.onDisp d f).dispatcher d = f (s.dispatcher d) := by simp [State.dispatcher]
@[simp] theorem State.dispatcher_onDisp_other (s : State) {d y : Nat} (h : y ≠ d) (f : Dispatcher → Dispatcher) : (s.onDisp d f).dispatcher y = s.dispatcher y := by simp [State.dispatcher, h]
@[simp] theorem State.grid_setGrid_same (s : State) (g : Nat) (v : Grid) : (s.setGrid g v).grid? g = some v := by simp [State.grid?]
@[simp] theorem State.grid_setGrid_other (s : State) {g y : Nat} (h : y ≠ g) (v : Grid) : (s.setGrid g v).grid? y = s.grid? y := by simp [State.grid?, h]
@[simp] theorem State.group_setGroup_same (s : State) (k : GroupKey) (v : Group) : (s.setGroup k v).group? k = some v := by simp [State.group?]
@[simp] theorem State.group_setGroup_other (s : State) {k y : GroupKey} (h : y ≠ k) (v : Group) : (s.setGroup k v).group? y = s.group? y := by simp [State.group?, h]

@[simp] theorem State.thread_setWarp (s : State) (w : WarpId) (v : Warp) (x : ThreadId) : (s.setWarp w v).thread x = s.thread x := rfl
@[simp] theorem State.thread_setCore (s : State) (c : CoreId) (v : Core) (x : ThreadId) : (s.setCore c v).thread x = s.thread x := rfl
@[simp] theorem State.thread_setCluster (s : State) (d k : Nat) (v : Cluster) (x : ThreadId) : (s.setCluster d k v).thread x = s.thread x := rfl
@[simp] theorem State.thread_setDie (s : State) (d : Nat) (v : Die) (x : ThreadId) : (s.setDie d v).thread x = s.thread x := rfl
@[simp] theorem State.thread_setDispatcher (s : State) (d : Nat) (v : Dispatcher) (x : ThreadId) : (s.setDispatcher d v).thread x = s.thread x := rfl
@[simp] theorem State.thread_setGrid (s : State) (g : Nat) (v : Grid) (x : ThreadId) : (s.setGrid g v).thread x = s.thread x := rfl
@[simp] theorem State.thread_setGroup (s : State) (k : GroupKey) (v : Group) (x : ThreadId) : (s.setGroup k v).thread x = s.thread x := rfl
@[simp] theorem State.thread_setBundle (s : State) (c : CoreId) (b : Nat) (v : Bundle) (x : ThreadId) : (s.setBundle c b v).thread x = s.thread x := rfl
@[simp] theorem State.thread_onCoh (s : State) (f : Coherence → Coherence) (x : ThreadId) : (s.onCoh f).thread x = s.thread x := rfl
@[simp] theorem State.thread_onNet (s : State) (f : Net → Net) (x : ThreadId) : (s.onNet f).thread x = s.thread x := rfl
@[simp] theorem State.thread_onFab (s : State) (f : Fabric → Fabric) (x : ThreadId) : (s.onFab f).thread x = s.thread x := rfl
@[simp] theorem State.thread_onChits (s : State) (f : Chits → Chits) (x : ThreadId) : (s.onChits f).thread x = s.thread x := rfl
@[simp] theorem State.thread_onMgmt (s : State) (f : Mgmt → Mgmt) (x : ThreadId) : (s.onMgmt f).thread x = s.thread x := rfl
@[simp] theorem State.thread_onBoot (s : State) (f : Boot → Boot) (x : ThreadId) : (s.onBoot f).thread x = s.thread x := rfl
@[simp] theorem State.thread_onWarp (s : State) (w : WarpId) (f : Warp → Warp) (x : ThreadId) : (s.onWarp w f).thread x = s.thread x := rfl
@[simp] theorem State.thread_onCore (s : State) (c : CoreId) (f : Core → Core) (x : ThreadId) : (s.onCore c f).thread x = s.thread x := rfl
@[simp] theorem State.thread_onDie (s : State) (d : Nat) (f : Die → Die) (x : ThreadId) : (s.onDie d f).thread x = s.thread x := rfl
@[simp] theorem State.thread_onDisp (s : State) (d : Nat) (f : Dispatcher → Dispatcher) (x : ThreadId) : (s.onDisp d f).thread x = s.thread x := rfl

@[simp] theorem State.warp_setThread (s : State) (t : ThreadId) (v : Thread) (x : WarpId) : (s.setThread t v).warp x = s.warp x := rfl
@[simp] theorem State.warp_setCore (s : State) (c : CoreId) (v : Core) (x : WarpId) : (s.setCore c v).warp x = s.warp x := rfl
@[simp] theorem State.warp_setCluster (s : State) (d k : Nat) (v : Cluster) (x : WarpId) : (s.setCluster d k v).warp x = s.warp x := rfl
@[simp] theorem State.warp_setDie (s : State) (d : Nat) (v : Die) (x : WarpId) : (s.setDie d v).warp x = s.warp x := rfl
@[simp] theorem State.warp_setDispatcher (s : State) (d : Nat) (v : Dispatcher) (x : WarpId) : (s.setDispatcher d v).warp x = s.warp x := rfl
@[simp] theorem State.warp_setGrid (s : State) (g : Nat) (v : Grid) (x : WarpId) : (s.setGrid g v).warp x = s.warp x := rfl
@[simp] theorem State.warp_setGroup (s : State) (k : GroupKey) (v : Group) (x : WarpId) : (s.setGroup k v).warp x = s.warp x := rfl
@[simp] theorem State.warp_setBundle (s : State) (c : CoreId) (b : Nat) (v : Bundle) (x : WarpId) : (s.setBundle c b v).warp x = s.warp x := rfl
@[simp] theorem State.warp_onCoh (s : State) (f : Coherence → Coherence) (x : WarpId) : (s.onCoh f).warp x = s.warp x := rfl
@[simp] theorem State.warp_onNet (s : State) (f : Net → Net) (x : WarpId) : (s.onNet f).warp x = s.warp x := rfl
@[simp] theorem State.warp_onFab (s : State) (f : Fabric → Fabric) (x : WarpId) : (s.onFab f).warp x = s.warp x := rfl
@[simp] theorem State.warp_onChits (s : State) (f : Chits → Chits) (x : WarpId) : (s.onChits f).warp x = s.warp x := rfl
@[simp] theorem State.warp_onMgmt (s : State) (f : Mgmt → Mgmt) (x : WarpId) : (s.onMgmt f).warp x = s.warp x := rfl
@[simp] theorem State.warp_onBoot (s : State) (f : Boot → Boot) (x : WarpId) : (s.onBoot f).warp x = s.warp x := rfl
@[simp] theorem State.warp_onThread (s : State) (t : ThreadId) (f : Thread → Thread) (x : WarpId) : (s.onThread t f).warp x = s.warp x := rfl
@[simp] theorem State.warp_onCore (s : State) (c : CoreId) (f : Core → Core) (x : WarpId) : (s.onCore c f).warp x = s.warp x := rfl
@[simp] theorem State.warp_onDie (s : State) (d : Nat) (f : Die → Die) (x : WarpId) : (s.onDie d f).warp x = s.warp x := rfl
@[simp] theorem State.warp_onDisp (s : State) (d : Nat) (f : Dispatcher → Dispatcher) (x : WarpId) : (s.onDisp d f).warp x = s.warp x := rfl

@[simp] theorem State.core_setThread (s : State) (t : ThreadId) (v : Thread) (x : CoreId) : (s.setThread t v).core x = s.core x := rfl
@[simp] theorem State.core_setWarp (s : State) (w : WarpId) (v : Warp) (x : CoreId) : (s.setWarp w v).core x = s.core x := rfl
@[simp] theorem State.core_setCluster (s : State) (d k : Nat) (v : Cluster) (x : CoreId) : (s.setCluster d k v).core x = s.core x := rfl
@[simp] theorem State.core_setDie (s : State) (d : Nat) (v : Die) (x : CoreId) : (s.setDie d v).core x = s.core x := rfl
@[simp] theorem State.core_setDispatcher (s : State) (d : Nat) (v : Dispatcher) (x : CoreId) : (s.setDispatcher d v).core x = s.core x := rfl
@[simp] theorem State.core_setGrid (s : State) (g : Nat) (v : Grid) (x : CoreId) : (s.setGrid g v).core x = s.core x := rfl
@[simp] theorem State.core_setGroup (s : State) (k : GroupKey) (v : Group) (x : CoreId) : (s.setGroup k v).core x = s.core x := rfl
@[simp] theorem State.core_onCoh (s : State) (f : Coherence → Coherence) (x : CoreId) : (s.onCoh f).core x = s.core x := rfl
@[simp] theorem State.core_onNet (s : State) (f : Net → Net) (x : CoreId) : (s.onNet f).core x = s.core x := rfl
@[simp] theorem State.core_onFab (s : State) (f : Fabric → Fabric) (x : CoreId) : (s.onFab f).core x = s.core x := rfl
@[simp] theorem State.core_onChits (s : State) (f : Chits → Chits) (x : CoreId) : (s.onChits f).core x = s.core x := rfl
@[simp] theorem State.core_onMgmt (s : State) (f : Mgmt → Mgmt) (x : CoreId) : (s.onMgmt f).core x = s.core x := rfl
@[simp] theorem State.core_onBoot (s : State) (f : Boot → Boot) (x : CoreId) : (s.onBoot f).core x = s.core x := rfl
@[simp] theorem State.core_onThread (s : State) (t : ThreadId) (f : Thread → Thread) (x : CoreId) : (s.onThread t f).core x = s.core x := rfl
@[simp] theorem State.core_onWarp (s : State) (w : WarpId) (f : Warp → Warp) (x : CoreId) : (s.onWarp w f).core x = s.core x := rfl
@[simp] theorem State.core_onDie (s : State) (d : Nat) (f : Die → Die) (x : CoreId) : (s.onDie d f).core x = s.core x := rfl
@[simp] theorem State.core_onDisp (s : State) (d : Nat) (f : Dispatcher → Dispatcher) (x : CoreId) : (s.onDisp d f).core x = s.core x := rfl

@[simp] theorem State.die_setThread (s : State) (t : ThreadId) (v : Thread) (x : Nat) : (s.setThread t v).die x = s.die x := rfl
@[simp] theorem State.die_setWarp (s : State) (w : WarpId) (v : Warp) (x : Nat) : (s.setWarp w v).die x = s.die x := rfl
@[simp] theorem State.die_setCore (s : State) (c : CoreId) (v : Core) (x : Nat) : (s.setCore c v).die x = s.die x := rfl
@[simp] theorem State.die_setCluster (s : State) (d k : Nat) (v : Cluster) (x : Nat) : (s.setCluster d k v).die x = s.die x := rfl
@[simp] theorem State.die_setDispatcher (s : State) (d : Nat) (v : Dispatcher) (x : Nat) : (s.setDispatcher d v).die x = s.die x := rfl
@[simp] theorem State.die_setGrid (s : State) (g : Nat) (v : Grid) (x : Nat) : (s.setGrid g v).die x = s.die x := rfl
@[simp] theorem State.die_setGroup (s : State) (k : GroupKey) (v : Group) (x : Nat) : (s.setGroup k v).die x = s.die x := rfl
@[simp] theorem State.die_setBundle (s : State) (c : CoreId) (b : Nat) (v : Bundle) (x : Nat) : (s.setBundle c b v).die x = s.die x := rfl
@[simp] theorem State.die_onCoh (s : State) (f : Coherence → Coherence) (x : Nat) : (s.onCoh f).die x = s.die x := rfl
@[simp] theorem State.die_onNet (s : State) (f : Net → Net) (x : Nat) : (s.onNet f).die x = s.die x := rfl
@[simp] theorem State.die_onFab (s : State) (f : Fabric → Fabric) (x : Nat) : (s.onFab f).die x = s.die x := rfl
@[simp] theorem State.die_onChits (s : State) (f : Chits → Chits) (x : Nat) : (s.onChits f).die x = s.die x := rfl
@[simp] theorem State.die_onMgmt (s : State) (f : Mgmt → Mgmt) (x : Nat) : (s.onMgmt f).die x = s.die x := rfl
@[simp] theorem State.die_onBoot (s : State) (f : Boot → Boot) (x : Nat) : (s.onBoot f).die x = s.die x := rfl
@[simp] theorem State.die_onThread (s : State) (t : ThreadId) (f : Thread → Thread) (x : Nat) : (s.onThread t f).die x = s.die x := rfl
@[simp] theorem State.die_onWarp (s : State) (w : WarpId) (f : Warp → Warp) (x : Nat) : (s.onWarp w f).die x = s.die x := rfl
@[simp] theorem State.die_onCore (s : State) (c : CoreId) (f : Core → Core) (x : Nat) : (s.onCore c f).die x = s.die x := rfl
@[simp] theorem State.die_onDisp (s : State) (d : Nat) (f : Dispatcher → Dispatcher) (x : Nat) : (s.onDisp d f).die x = s.die x := rfl

@[simp] theorem State.dispatcher_setThread (s : State) (t : ThreadId) (v : Thread) (x : Nat) : (s.setThread t v).dispatcher x = s.dispatcher x := rfl
@[simp] theorem State.dispatcher_setWarp (s : State) (w : WarpId) (v : Warp) (x : Nat) : (s.setWarp w v).dispatcher x = s.dispatcher x := rfl
@[simp] theorem State.dispatcher_setCore (s : State) (c : CoreId) (v : Core) (x : Nat) : (s.setCore c v).dispatcher x = s.dispatcher x := rfl
@[simp] theorem State.dispatcher_setCluster (s : State) (d k : Nat) (v : Cluster) (x : Nat) : (s.setCluster d k v).dispatcher x = s.dispatcher x := rfl
@[simp] theorem State.dispatcher_setDie (s : State) (d : Nat) (v : Die) (x : Nat) : (s.setDie d v).dispatcher x = s.dispatcher x := rfl
@[simp] theorem State.dispatcher_setGrid (s : State) (g : Nat) (v : Grid) (x : Nat) : (s.setGrid g v).dispatcher x = s.dispatcher x := rfl
@[simp] theorem State.dispatcher_setGroup (s : State) (k : GroupKey) (v : Group) (x : Nat) : (s.setGroup k v).dispatcher x = s.dispatcher x := rfl
@[simp] theorem State.dispatcher_setBundle (s : State) (c : CoreId) (b : Nat) (v : Bundle) (x : Nat) : (s.setBundle c b v).dispatcher x = s.dispatcher x := rfl
@[simp] theorem State.dispatcher_onCoh (s : State) (f : Coherence → Coherence) (x : Nat) : (s.onCoh f).dispatcher x = s.dispatcher x := rfl
@[simp] theorem State.dispatcher_onNet (s : State) (f : Net → Net) (x : Nat) : (s.onNet f).dispatcher x = s.dispatcher x := rfl
@[simp] theorem State.dispatcher_onFab (s : State) (f : Fabric → Fabric) (x : Nat) : (s.onFab f).dispatcher x = s.dispatcher x := rfl
@[simp] theorem State.dispatcher_onChits (s : State) (f : Chits → Chits) (x : Nat) : (s.onChits f).dispatcher x = s.dispatcher x := rfl
@[simp] theorem State.dispatcher_onMgmt (s : State) (f : Mgmt → Mgmt) (x : Nat) : (s.onMgmt f).dispatcher x = s.dispatcher x := rfl
@[simp] theorem State.dispatcher_onBoot (s : State) (f : Boot → Boot) (x : Nat) : (s.onBoot f).dispatcher x = s.dispatcher x := rfl
@[simp] theorem State.dispatcher_onThread (s : State) (t : ThreadId) (f : Thread → Thread) (x : Nat) : (s.onThread t f).dispatcher x = s.dispatcher x := rfl
@[simp] theorem State.dispatcher_onWarp (s : State) (w : WarpId) (f : Warp → Warp) (x : Nat) : (s.onWarp w f).dispatcher x = s.dispatcher x := rfl
@[simp] theorem State.dispatcher_onCore (s : State) (c : CoreId) (f : Core → Core) (x : Nat) : (s.onCore c f).dispatcher x = s.dispatcher x := rfl
@[simp] theorem State.dispatcher_onDie (s : State) (d : Nat) (f : Die → Die) (x : Nat) : (s.onDie d f).dispatcher x = s.dispatcher x := rfl

@[simp] theorem State.grid_setThread (s : State) (t : ThreadId) (v : Thread) (x : Nat) : (s.setThread t v).grid? x = s.grid? x := rfl
@[simp] theorem State.grid_setWarp (s : State) (w : WarpId) (v : Warp) (x : Nat) : (s.setWarp w v).grid? x = s.grid? x := rfl
@[simp] theorem State.grid_setCore (s : State) (c : CoreId) (v : Core) (x : Nat) : (s.setCore c v).grid? x = s.grid? x := rfl
@[simp] theorem State.grid_setCluster (s : State) (d k : Nat) (v : Cluster) (x : Nat) : (s.setCluster d k v).grid? x = s.grid? x := rfl
@[simp] theorem State.grid_setDie (s : State) (d : Nat) (v : Die) (x : Nat) : (s.setDie d v).grid? x = s.grid? x := rfl
@[simp] theorem State.grid_setDispatcher (s : State) (d : Nat) (v : Dispatcher) (x : Nat) : (s.setDispatcher d v).grid? x = s.grid? x := rfl
@[simp] theorem State.grid_setGroup (s : State) (k : GroupKey) (v : Group) (x : Nat) : (s.setGroup k v).grid? x = s.grid? x := rfl
@[simp] theorem State.grid_setBundle (s : State) (c : CoreId) (b : Nat) (v : Bundle) (x : Nat) : (s.setBundle c b v).grid? x = s.grid? x := rfl
@[simp] theorem State.grid_onCoh (s : State) (f : Coherence → Coherence) (x : Nat) : (s.onCoh f).grid? x = s.grid? x := rfl
@[simp] theorem State.grid_onNet (s : State) (f : Net → Net) (x : Nat) : (s.onNet f).grid? x = s.grid? x := rfl
@[simp] theorem State.grid_onFab (s : State) (f : Fabric → Fabric) (x : Nat) : (s.onFab f).grid? x = s.grid? x := rfl
@[simp] theorem State.grid_onChits (s : State) (f : Chits → Chits) (x : Nat) : (s.onChits f).grid? x = s.grid? x := rfl
@[simp] theorem State.grid_onMgmt (s : State) (f : Mgmt → Mgmt) (x : Nat) : (s.onMgmt f).grid? x = s.grid? x := rfl
@[simp] theorem State.grid_onBoot (s : State) (f : Boot → Boot) (x : Nat) : (s.onBoot f).grid? x = s.grid? x := rfl
@[simp] theorem State.grid_onThread (s : State) (t : ThreadId) (f : Thread → Thread) (x : Nat) : (s.onThread t f).grid? x = s.grid? x := rfl
@[simp] theorem State.grid_onWarp (s : State) (w : WarpId) (f : Warp → Warp) (x : Nat) : (s.onWarp w f).grid? x = s.grid? x := rfl
@[simp] theorem State.grid_onCore (s : State) (c : CoreId) (f : Core → Core) (x : Nat) : (s.onCore c f).grid? x = s.grid? x := rfl
@[simp] theorem State.grid_onDie (s : State) (d : Nat) (f : Die → Die) (x : Nat) : (s.onDie d f).grid? x = s.grid? x := rfl
@[simp] theorem State.grid_onDisp (s : State) (d : Nat) (f : Dispatcher → Dispatcher) (x : Nat) : (s.onDisp d f).grid? x = s.grid? x := rfl

@[simp] theorem State.group_setThread (s : State) (t : ThreadId) (v : Thread) (x : GroupKey) : (s.setThread t v).group? x = s.group? x := rfl
@[simp] theorem State.group_setWarp (s : State) (w : WarpId) (v : Warp) (x : GroupKey) : (s.setWarp w v).group? x = s.group? x := rfl
@[simp] theorem State.group_setCore (s : State) (c : CoreId) (v : Core) (x : GroupKey) : (s.setCore c v).group? x = s.group? x := rfl
@[simp] theorem State.group_setCluster (s : State) (d k : Nat) (v : Cluster) (x : GroupKey) : (s.setCluster d k v).group? x = s.group? x := rfl
@[simp] theorem State.group_setDie (s : State) (d : Nat) (v : Die) (x : GroupKey) : (s.setDie d v).group? x = s.group? x := rfl
@[simp] theorem State.group_setDispatcher (s : State) (d : Nat) (v : Dispatcher) (x : GroupKey) : (s.setDispatcher d v).group? x = s.group? x := rfl
@[simp] theorem State.group_setGrid (s : State) (g : Nat) (v : Grid) (x : GroupKey) : (s.setGrid g v).group? x = s.group? x := rfl
@[simp] theorem State.group_setBundle (s : State) (c : CoreId) (b : Nat) (v : Bundle) (x : GroupKey) : (s.setBundle c b v).group? x = s.group? x := rfl
@[simp] theorem State.group_onCoh (s : State) (f : Coherence → Coherence) (x : GroupKey) : (s.onCoh f).group? x = s.group? x := rfl
@[simp] theorem State.group_onNet (s : State) (f : Net → Net) (x : GroupKey) : (s.onNet f).group? x = s.group? x := rfl
@[simp] theorem State.group_onFab (s : State) (f : Fabric → Fabric) (x : GroupKey) : (s.onFab f).group? x = s.group? x := rfl
@[simp] theorem State.group_onChits (s : State) (f : Chits → Chits) (x : GroupKey) : (s.onChits f).group? x = s.group? x := rfl
@[simp] theorem State.group_onMgmt (s : State) (f : Mgmt → Mgmt) (x : GroupKey) : (s.onMgmt f).group? x = s.group? x := rfl
@[simp] theorem State.group_onBoot (s : State) (f : Boot → Boot) (x : GroupKey) : (s.onBoot f).group? x = s.group? x := rfl
@[simp] theorem State.group_onThread (s : State) (t : ThreadId) (f : Thread → Thread) (x : GroupKey) : (s.onThread t f).group? x = s.group? x := rfl
@[simp] theorem State.group_onWarp (s : State) (w : WarpId) (f : Warp → Warp) (x : GroupKey) : (s.onWarp w f).group? x = s.group? x := rfl
@[simp] theorem State.group_onCore (s : State) (c : CoreId) (f : Core → Core) (x : GroupKey) : (s.onCore c f).group? x = s.group? x := rfl
@[simp] theorem State.group_onDie (s : State) (d : Nat) (f : Die → Die) (x : GroupKey) : (s.onDie d f).group? x = s.group? x := rfl
@[simp] theorem State.group_onDisp (s : State) (d : Nat) (f : Dispatcher → Dispatcher) (x : GroupKey) : (s.onDisp d f).group? x = s.group? x := rfl

end Sys2Proof.Machine
end

