-- ==== Sys2Proof/Laws/Lanes.lean ====
section
/-! SUPPORT. What a fixed-latency instruction can do: each active lane's writes reach its own thread and its own temporaries, its
flags reach its warp's FPS, and nothing else changes. -/

namespace Sys2Proof.Machine

/-! ## Threads, groups and warps apart -/

theorem State.sameBut_refl (s : State) : s.sameBut s := rfl

theorem State.sameBut_trans {s t u : State} (h : s.sameBut t) (k : t.sameBut u) : s.sameBut u := by
  unfold State.sameBut at *
  rw [← h]
  rw [← k]

theorem State.sameBut_iff {s t : State} : s.sameBut t ↔ ∃ a b c, t = { s with threads := a, groups := b, warps := c } := by
  constructor
  · intro h
    refine ⟨t.threads, t.groups, t.warps, ?_⟩
    unfold State.sameBut at h
    rw [← h]
  · rintro ⟨a, b, c, rfl⟩
    rfl

theorem Group.sameBut_refl (g : Group) : g.sameBut g := rfl

theorem Group.sameBut_trans {g h i : Group} (a : g.sameBut h) (b : h.sameBut i) : g.sameBut i := by
  unfold Group.sameBut at *
  rw [← a]
  rw [← b]

/-! ## One write -/

/-- What lies between a state and the state after something that lane c did: its own thread changed by `f`, the temporaries of its
group by `m`, and recent writes, the latch and FPS of its warp perhaps; nothing else. -/
structure LaneStep (c : LaneCtx) (s t : State) (f : Thread → Thread)
    (m : List ((Nat × Nat) × Reg) → List ((Nat × Nat) × Reg)) (fl : Flags) : Prop where
  mine : t.thread c.tid = f (s.thread c.tid)
  others : ∀ x, x ≠ c.tid → t.thread x = s.thread x
  warp : t.warp c.tid.warp = { s.warp c.tid.warp with fps := (s.warp c.tid.warp).fps ||| BitVec.setWidth 32 fl }
  warps : ∀ w, w ≠ c.tid.warp → t.warp w = s.warp w
  group : ∀ g, s.group? c.key = some g → ∃ h, t.group? c.key = some h ∧ h.temps = m g.temps ∧ g.sameBut h
  groups : ∀ k, k ≠ c.key → t.group? k = s.group? k
  rest : s.sameBut t

theorem or_zero_fps (w : Warp) : { w with fps := w.fps ||| BitVec.setWidth 32 (0 : Flags) } = w := by simp

theorem laneStep_refl (c : LaneCtx) (s : State) : LaneStep c s s id id 0 where
  mine := rfl
  others _ _ := rfl
  warp := by simp
  warps _ _ := rfl
  group g h := ⟨g, h, rfl, Group.sameBut_refl g⟩
  groups _ _ := rfl
  rest := State.sameBut_refl s

theorem laneStep_trans {c : LaneCtx} {s t u : State} {f f' : Thread → Thread} {m m' : List ((Nat × Nat) × Reg) → List ((Nat × Nat) × Reg)}
    {a b : Flags} (h : LaneStep c s t f m a) (k : LaneStep c t u f' m' b) : LaneStep c s u (f' ∘ f) (m' ∘ m) (a ||| b) where
  mine := by rw [k.mine, h.mine]; rfl
  others x hx := by rw [k.others x hx, h.others x hx]
  warp := by
    rw [k.warp, h.warp]
    simp [BitVec.or_assoc]
  warps w hw := by rw [k.warps w hw, h.warps w hw]
  group g hg := by
    obtain ⟨g1, h1, h2, h3⟩ := h.group g hg
    obtain ⟨g2, k1, k2, k3⟩ := k.group g1 h1
    exact ⟨g2, k1, by rw [k2, h2]; rfl, Group.sameBut_trans h3 k3⟩
  groups x hx := by rw [k.groups x hx, h.groups x hx]
  rest := State.sameBut_trans h.rest k.rest

theorem noteWrite_step (c : LaneCtx) (s : State) (f : Option Nat) (h : Option Hazard) :
    LaneStep c s (noteWrite c.key f h s) id id 0 := by
  unfold noteWrite
  cases hg : s.group? c.key with
  | none => exact laneStep_refl c s
  | some g =>
    refine ⟨rfl, fun _ _ => rfl, by simp, fun _ _ => rfl, ?_, ?_, rfl⟩
    · intro g' hg'
      rw [hg] at hg'
      cases hg'
      exact ⟨_, State.group_setGroup_same s c.key _, by cases h <;> cases f <;> rfl, by cases h <;> cases f <;> rfl⟩
    · intro k hk
      exact State.group_setGroup_other s hk _

theorem setThread_step (c : LaneCtx) (s : State) (v : Thread) : LaneStep c s (s.setThread c.tid v) (fun _ => v) id 0 where
  mine := by simp
  others x hx := by simp [hx]
  warp := by simp
  warps _ _ := rfl
  group g h := ⟨g, h, rfl, Group.sameBut_refl g⟩
  groups _ _ := rfl
  rest := rfl

/-- What one write of a lane can do. -/
theorem write_step (c : LaneCtx) (lat : Nat) (s : State) (w : Write) :
    LaneStep c s (c.write lat s w) (fun th => c.wrote th w) (fun ts => c.wroteTemp ts w) 0 := by
  cases w with
  | reg f data tag =>
    by_cases h1 : f < 112
    · have a := noteWrite_step c s (some f) (some ⟨c.lane, c.place f, c.group.cycle + lat, lookupD (c.place f) Reg.zero (s.thread c.tid).regs⟩)
      have b := setThread_step c (noteWrite c.key (some f) (some ⟨c.lane, c.place f, c.group.cycle + lat, lookupD (c.place f) Reg.zero (s.thread c.tid).regs⟩) s)
        (c.wrote (s.thread c.tid) (.reg f data tag))
      have k := laneStep_trans a b
      have e : c.write lat s (.reg f data tag) = (noteWrite c.key (some f) (some ⟨c.lane, c.place f, c.group.cycle + lat,
          lookupD (c.place f) Reg.zero (s.thread c.tid).regs⟩) s).setThread c.tid (c.wrote (s.thread c.tid) (.reg f data tag)) := by
        simp only [LaneCtx.write, LaneCtx.wrote, h1, if_true]
        rfl
      rw [e]
      refine ⟨by simp, k.others, k.warp, k.warps, ?_, k.groups, k.rest⟩
      intro g hg
      simpa [LaneCtx.wroteTemp, h1] using k.group g hg
    · by_cases h2 : f < 120
      · simp only [LaneCtx.write, h1, h2, if_true, if_false]
        cases hg : s.group? c.key with
        | none =>
          refine ⟨by simp [LaneCtx.wrote, h1], fun _ _ => rfl, by simp, fun _ _ => rfl, ?_, fun _ _ => rfl, rfl⟩
          intro g hg'
          rw [hg] at hg'
          cases hg'
        | some g =>
          refine ⟨by simp [LaneCtx.wrote, h1], fun _ _ => rfl, by simp, fun _ _ => rfl, ?_, ?_, rfl⟩
          · intro g' hg'
            rw [hg] at hg'
            cases hg'
            exact ⟨_, State.group_setGroup_same s c.key _, by simp [LaneCtx.wroteTemp, h1, h2], rfl⟩
          · intro k hk
            exact State.group_setGroup_other s hk _
      · simp only [LaneCtx.write, h1, h2, if_false]
        refine ⟨by simp [LaneCtx.wrote, h1], fun _ _ => rfl, by simp, fun _ _ => rfl, ?_, fun _ _ => rfl, rfl⟩
        intro g hg
        exact ⟨g, hg, by simp [LaneCtx.wroteTemp, h1, h2], rfl⟩
  | pred p v =>
    have a := noteWrite_step c s none (some ⟨c.lane, hazPred p, c.group.cycle + lat, ⟨if (s.thread c.tid).preds.getLsbD p then 1 else 0, 0⟩⟩)
    have b := setThread_step c (noteWrite c.key none (some ⟨c.lane, hazPred p, c.group.cycle + lat, ⟨if (s.thread c.tid).preds.getLsbD p then 1 else 0, 0⟩⟩) s)
        (c.wrote (s.thread c.tid) (.pred p v))
    have k := laneStep_trans a b
    exact ⟨by simp [LaneCtx.write, LaneCtx.wrote], k.others, k.warp, k.warps, k.group, k.groups, k.rest⟩

/-- What the writes of a lane can do. -/
theorem writeAll_step (c : LaneCtx) (lat : Nat) : ∀ (ws : List Write) (s : State),
    LaneStep c s (c.writeAll lat ws s) (fun th => ws.foldl c.wrote th) (fun ts => ws.foldl c.wroteTemp ts) 0
  | [], s => laneStep_refl c s
  | w :: t, s => by
    have h := laneStep_trans (write_step c lat s w) (writeAll_step c lat t (c.write lat s w))
    have e : (0 : Flags) ||| 0 = 0 := by decide
    rw [e] at h
    exact h

/-- Raising flags writes FPS of one warp alone. -/
theorem raiseFlags_step (c : LaneCtx) (s : State) (fl : Flags) : LaneStep c s (raiseFlags c.tid.warp fl s) id id fl := by
  unfold raiseFlags
  by_cases h : fl = 0
  · subst h
    simpa using laneStep_refl c s
  · simp only [h, if_false]
    exact ⟨rfl, fun _ _ => rfl, by simp, fun w hw => by simp [hw], fun g hg => ⟨g, hg, rfl, rfl⟩, fun _ _ => rfl, rfl⟩

/-- What a lane whose result stands can do. -/
theorem finish_step (c : LaneCtx) (s : State) (o : AluOut) (h : c.ten &&& o.flags = 0) :
    ∃ e, c.finish (.ok o) = .ok e ∧
      LaneStep c s (e s) (fun th => o.writes.foldl c.wrote th) (fun ts => o.writes.foldl c.wroteTemp ts) o.flags := by
  refine ⟨fun s => raiseFlags c.tid.warp o.flags (c.writeAll o.lat o.writes s), ?_, ?_⟩
  · simp [LaneCtx.finish, arithTrap, h]
  · have := laneStep_trans (writeAll_step c o.lat o.writes s) (raiseFlags_step c (c.writeAll o.lat o.writes s) o.flags)
    simpa using this

/-! ## All lanes of a group -/

/-- What is common to the lanes of one group: their key, and that lanes and threads differ together. -/
theorem laneCtxs_of {s : State} {k : GroupKey} {g : Group} (hk : s.cur = some k) (hg : s.group? k = some g) :
    laneCtxs s = (membersOf k g).map (laneCtx s k g) := by simp [laneCtxs, hk, hg]

theorem laneCtxs_key {s : State} {k : GroupKey} (hk : s.cur = some k) {c : LaneCtx} (hc : c ∈ laneCtxs s) : c.key = k := by
  unfold laneCtxs at hc
  rw [hk] at hc
  cases hg : s.group? k with
  | none => simp [hg] at hc
  | some g =>
    simp only [hg, List.mem_map] at hc
    obtain ⟨p, _, rfl⟩ := hc
    rfl

theorem membersOf_sorted (k : GroupKey) (g : Group) : (membersOf k g).Pairwise (fun a b => a.1 < b.1) := by
  unfold membersOf
  rw [List.pairwise_filterMap]
  have h : ∀ (l : List (Option Nat)) (n : Nat), (l.zipIdx n).Pairwise (fun a b => a.2 < b.2) := by
    intro l
    induction l with
    | nil => intro n; simp
    | cons x t ih =>
      intro n
      simp only [List.zipIdx_cons, List.pairwise_cons]
      refine ⟨?_, ih (n + 1)⟩
      intro p hp
      have := List.le_snd_of_mem_zipIdx hp
      omega
  refine (h g.members 0).imp ?_
  intro a b hab x hx y hy
  cases ha : a.1 <;> cases hb : b.1 <;> simp [ha, hb] at hx hy
  subst hx hy
  simpa using hab

theorem membersOf_lane {k : GroupKey} {g : Group} {p : Nat × ThreadId} (h : p ∈ membersOf k g) : p.2.lane = p.1 := by
  simp only [membersOf, List.mem_filterMap] at h
  obtain ⟨q, _, hq⟩ := h
  cases hq' : q.1 <;> simp [hq'] at hq
  subst hq
  rfl

theorem laneCtxs_lane {s : State} {c : LaneCtx} (hc : c ∈ laneCtxs s) : c.tid.lane = c.lane := by
  unfold laneCtxs at hc
  cases hk : s.cur with
  | none => simp [hk] at hc
  | some k =>
    cases hg : s.group? k with
    | none => simp [hk, hg] at hc
    | some g =>
      simp only [hk, hg, List.mem_map] at hc
      obtain ⟨p, hp, rfl⟩ := hc
      exact membersOf_lane hp

/-- The lanes of a group are in ascending order. -/
theorem laneCtxs_sorted (s : State) : (laneCtxs s).Pairwise (fun a b => a.lane < b.lane) := by
  unfold laneCtxs
  cases hk : s.cur with
  | none => simp
  | some k =>
    cases hg : s.group? k with
    | none => simp [hg]
    | some g =>
      simp only [hg, List.pairwise_map]
      exact (membersOf_sorted k g).imp (fun h => h)

theorem activeLanes_sorted (i : Instr) (s : State) : (activeLanes i s).Pairwise (fun a b => a.lane < b.lane) :=
  (laneCtxs_sorted s).sublist List.filter_sublist

theorem activeLanes_sub {i : Instr} {s : State} {c : LaneCtx} (h : c ∈ activeLanes i s) : c ∈ laneCtxs s :=
  (List.mem_filter.mp h).1

/-- The flags that the lanes of a list that are of one warp raise together. -/
def flagsIn (cs : List LaneCtx) (o : LaneCtx → AluOut) (w : WarpId) : Flags :=
  orFlags ((cs.filter (fun c => decide (c.tid.warp = w))).map (fun c => (o c).flags))

/-- What results of lanes taken in ascending order leave, whichever lanes they are. -/
structure LanesDone (k : GroupKey) (cs : List LaneCtx) (s t : State) (o : LaneCtx → AluOut) : Prop where
  active : ∀ c ∈ cs, t.thread c.tid = (o c).writes.foldl c.wrote (s.thread c.tid)
  others : ∀ x, (∀ c ∈ cs, c.tid ≠ x) → t.thread x = s.thread x
  warps : ∀ w, t.warp w = { s.warp w with fps := (s.warp w).fps ||| BitVec.setWidth 32 (flagsIn cs o w) }
  group : ∀ g, s.group? k = some g → ∃ h, t.group? k = some h ∧ g.sameBut h ∧
    (∀ c ∈ cs, ∀ n, lookup? (n, c.lane) h.temps = lookup? (n, c.lane) ((o c).writes.foldl c.wroteTemp g.temps)) ∧
    (∀ n l, (∀ c ∈ cs, c.lane ≠ l) → lookup? (n, l) h.temps = lookup? (n, l) g.temps)
  groups : ∀ j, j ≠ k → t.group? j = s.group? j
  rest : s.sameBut t

theorem foldl_or_init : ∀ (l : List Flags) (a : Flags), l.foldl (· ||| ·) a = a ||| l.foldl (· ||| ·) 0
  | [], a => by simp
  | b :: t, a => by
    simp only [List.foldl_cons]
    rw [foldl_or_init t (a ||| b), foldl_or_init t (0 ||| b)]
    simp [BitVec.or_assoc]

theorem wroteTemp_other (c : LaneCtx) {l : Nat} (h : c.lane ≠ l) (n : Nat) : ∀ (ws : List Write) (ts : List ((Nat × Nat) × Reg)),
    lookup? (n, l) (ws.foldl c.wroteTemp ts) = lookup? (n, l) ts
  | [], _ => rfl
  | w :: t, ts => by
    rw [List.foldl_cons, wroteTemp_other c h n t]
    cases w with
    | pred p v => rfl
    | reg f data tag =>
      unfold LaneCtx.wroteTemp
      have hne : (n, l) ≠ (f - 112, c.lane) := fun e => h (by cases e; rfl)
      by_cases h1 : f < 112
      · simp [h1]
      · by_cases h2 : f < 120
        · simp [h1, h2, hne]
        · simp [h1, h2]

theorem wroteTemp_congr (c : LaneCtx) : ∀ (ws : List Write) {ts us : List ((Nat × Nat) × Reg)},
    (∀ n, lookup? (n, c.lane) ts = lookup? (n, c.lane) us) →
    ∀ n, lookup? (n, c.lane) (ws.foldl c.wroteTemp ts) = lookup? (n, c.lane) (ws.foldl c.wroteTemp us)
  | [], _, _, h => h
  | w :: t, ts, us, h => by
    refine wroteTemp_congr c t ?_
    intro n
    cases w with
    | pred p v => exact h n
    | reg f data tag =>
      unfold LaneCtx.wroteTemp
      by_cases h1 : f < 112
      · simpa [h1] using h n
      · by_cases h2 : f < 120
        · simp only [h1, h2, if_true, if_false, lookup?_put, h n]
        · simpa [h1, h2] using h n

theorem lanesDone_nil (k : GroupKey) (s : State) (o : LaneCtx → AluOut) : LanesDone k [] s s o where
  active c hc := by simp at hc
  others _ _ := rfl
  warps w := by simp [flagsIn, orFlags]
  group g hg := ⟨g, hg, rfl, fun c hc => by simp at hc, fun _ _ _ => rfl⟩
  groups _ _ := rfl
  rest := rfl

/-- Results applied in ascending lane order (R204). -/
theorem applyLanes_done {k : GroupKey} {o : LaneCtx → AluOut} : ∀ (cs : List LaneCtx) (s : State),
    cs.Pairwise (fun a b => a.lane < b.lane) → (∀ c ∈ cs, c.key = k ∧ c.tid.lane = c.lane ∧ c.ten &&& (o c).flags = 0) →
    LanesDone k cs s (applyLanes (cs.map (fun c => (c, c.finish (.ok (o c))))) s) o
  | [], s, _, _ => lanesDone_nil k s o
  | c :: cs, s, hp, hc => by
    obtain ⟨e, he, hs⟩ := finish_step c s (o c) (hc c (by simp)).2.2
    have hk : c.key = k := (hc c (by simp)).1
    have hlt : ∀ d ∈ cs, c.lane < d.lane := (List.pairwise_cons.mp hp).1
    have ih := applyLanes_done (k := k) (o := o) cs (e s) (List.pairwise_cons.mp hp).2 (fun d hd => hc d (by simp [hd]))
    have hne : ∀ d ∈ cs, d.tid ≠ c.tid := by
      intro d hd e'
      have h1 := (hc d (by simp [hd])).2.1
      have h2 := (hc c (by simp)).2.1
      have := hlt d hd
      rw [e'] at h1
      omega
    have hrun : applyLanes ((c :: cs).map (fun c => (c, c.finish (.ok (o c))))) s =
        applyLanes (cs.map (fun c => (c, c.finish (.ok (o c))))) (e s) := by
      simp [applyLanes, applyLane, he]
    rw [hrun]
    refine ⟨?_, ?_, ?_, ?_, ?_, State.sameBut_trans hs.rest ih.rest⟩
    · intro d hd
      rcases List.mem_cons.mp hd with rfl | hd
      · rw [ih.others d.tid hne, hs.mine]
      · rw [ih.active d hd, hs.others d.tid (hne d hd)]
    · intro x hx
      rw [ih.others x (fun d hd => hx d (by simp [hd])), hs.others x (fun e' => hx c (by simp) e'.symm)]
    · intro w
      rw [ih.warps w]
      by_cases hw : c.tid.warp = w
      · subst hw
        rw [hs.warp]
        simp only [flagsIn, orFlags, List.filter_cons, decide_true, if_true, List.map_cons, List.foldl_cons]
        rw [foldl_or_init _ (0 ||| (o c).flags)]
        simp [BitVec.or_assoc]
      · rw [hs.warps w (fun e' => hw e'.symm)]
        simp [flagsIn, hw]
    · intro g hg
      obtain ⟨g1, h1, h2, h3⟩ := hs.group g (hk ▸ hg)
      obtain ⟨h, a1, a2, a3, a4⟩ := ih.group g1 (hk ▸ h1)
      refine ⟨h, a1, Group.sameBut_trans h3 a2, ?_, ?_⟩
      · intro d hd n
        rcases List.mem_cons.mp hd with rfl | hd
        · rw [a4 n d.lane (fun d' hd' => by have := hlt d' hd'; omega), h2]
        · rw [a3 d hd n]
          refine wroteTemp_congr d _ ?_ n
          intro m
          rw [h2]
          exact wroteTemp_other c (by have := hlt d hd; omega) m _ _
      · intro n l hl
        rw [a4 n l (fun d hd => hl d (by simp [hd])), h2]
        exact wroteTemp_other c (hl c (by simp)) n _ _
    · intro j hj
      rw [ih.groups j hj, hs.groups j (by rw [hk]; exact hj)]

/-- The operand latch alone changes. -/
theorem holdLatch_done (i : Instr) {k : GroupKey} {s : State} (hk : s.cur = some k) (o : LaneCtx → AluOut) :
    LanesDone k [] s (holdLatch i s) o ∧ (holdLatch i s).threads = s.threads ∧ (holdLatch i s).warps = s.warps := by
  unfold holdLatch
  simp only [hk]
  cases hg : s.group? k with
  | none => exact ⟨lanesDone_nil k s o, rfl, rfl⟩
  | some g =>
    refine ⟨⟨fun c hc => by simp at hc, fun _ _ => rfl, fun w => by simp [flagsIn, orFlags], ?_, ?_, rfl⟩, rfl, rfl⟩
    · intro g' hg'
      rw [hg] at hg'
      cases hg'
      exact ⟨_, State.group_setGroup_same s k _, rfl, fun c hc => by simp at hc, fun _ _ _ => rfl⟩
    · intro j hj
      exact State.group_setGroup_other s hj _

/-- An instruction whose fields are legal and which names no register again has no class 00 of its own. -/
theorem ownFault_none {i : Instr} {c : LaneCtx} (he : encodingFault i = none) (hn : c.namesAgain i = false) : c.ownFault i = none := by
  simp only [LaneCtx.ownFault, he, hn]
  rfl

/-- The outcomes of the lanes of an instruction whose fields are legal and whose guards can be read. -/
theorem laneOutcomes_eq {i : Instr} {f : LaneCtx → LaneOut} : ∀ {cs : List LaneCtx}, encodingFault i = none →
    (∀ c ∈ cs, ∃ b, c.guard ((guardOf i).getD 12) = .ok b ∧ (b = true → c.namesAgain i = false)) →
    cs.filterMap (laneOutcome i f) = (cs.filter (fun c => c.active i)).map (fun c => (c, f c))
  | [], _, _ => rfl
  | c :: cs, he, hb => by
    obtain ⟨b, hc, hn⟩ := hb c (by simp)
    have ih := laneOutcomes_eq (i := i) (f := f) (cs := cs) he (fun d hd => hb d (by simp [hd]))
    have ha : c.active i = b := by
      simp only [LaneCtx.active, hc]
    cases b
    · rw [List.filterMap_cons_none (by simp only [laneOutcome, hc]), ih, List.filter_cons_of_neg (by simp [ha])]
    · rw [List.filterMap_cons_some (b := (c, f c)) (by simp only [laneOutcome, hc, ownFault_none he (hn rfl)]), ih]
      simp only [List.filter_cons, ha, if_true, List.map_cons]

/-- A fixed-latency instruction whose active lanes all have a result, with no enabled flag among its flags, answers the state that
those results leave. -/
theorem runAlu_next {i : Instr} {f : LaneCtx → Except Trap AluOut} {s : State} {k : GroupKey} (o : LaneCtx → AluOut)
    (hk : s.cur = some k) (hw : ((guardOf i).getD 12).toNat ≤ 12) (he : encodingFault i = none)
    (hb : ∀ c ∈ laneCtxs s, ∃ b, c.guard ((guardOf i).getD 12) = .ok b ∧ (b = true → c.namesAgain i = false))
    (ho : ∀ c ∈ activeLanes i s, f c = .ok (o c) ∧ c.ten &&& (o c).flags = 0) :
    Answers (runAlu i f s) (fun t => AluAfter i s t (fun c => (o c).writes) (fun c => (o c).flags)) := by
  refine ⟨_, rfl, ?_⟩
  have hn : ¬ (decide (((guardOf i).getD 12).toNat > 12)) = true := by simp; omega
  have hcs : (activeLanes i s).map (fun c => (c, c.finish (f c))) = (activeLanes i s).map (fun c => (c, c.finish (.ok (o c)))) := by
    refine List.map_congr_left ?_
    intro c hc
    rw [(ho c hc).1]
  have hrun : runLanes i (fun c => c.finish (f c)) s =
      applyLanes ((activeLanes i s).map (fun c => (c, c.finish (.ok (o c))))) (holdLatch i s) := by
    unfold runLanes
    rw [if_neg hn, laneOutcomes_eq he hb, ← hcs]
    rfl
  obtain ⟨hl, ht, hwp⟩ := holdLatch_done i hk o
  have hd := applyLanes_done (k := k) (o := o) (activeLanes i s) (holdLatch i s) (activeLanes_sorted i s)
    (fun c hc => ⟨laneCtxs_key hk (activeLanes_sub hc), laneCtxs_lane (activeLanes_sub hc), (ho c hc).2⟩)
  have hth : ∀ x, (holdLatch i s).thread x = s.thread x := fun x => by simp [State.thread, ht]
  have hww : ∀ x, (holdLatch i s).warp x = s.warp x := fun x => by simp [State.warp, hwp]
  rw [hrun]
  refine ⟨?_, ?_, ?_, ?_, ?_, State.sameBut_trans hl.rest hd.rest⟩
  · intro c hc
    rw [hd.active c hc, hth]
  · intro x hx
    rw [hd.others x hx, hth]
  · intro w
    rw [hd.warps w, hww]
    rfl
  · intro k' g hk' hg
    rw [hk] at hk'
    cases hk'
    obtain ⟨g1, a1, a2, _, a4⟩ := hl.group g hg
    obtain ⟨h, b1, b2, b3, b4⟩ := hd.group g1 a1
    have hsame : ∀ n l, lookup? (n, l) g1.temps = lookup? (n, l) g.temps := fun n l => a4 n l (fun c hc => by simp at hc)
    refine ⟨h, b1, Group.sameBut_trans a2 b2, ?_, ?_⟩
    · intro c hc n
      rw [b3 c hc n]
      exact wroteTemp_congr c _ (fun m => hsame m c.lane) n
    · intro n l hl'
      rw [b4 n l hl', hsame]
  · intro j hj
    have hj' : j ≠ k := fun e => hj (by rw [hk, e])
    rw [hd.groups j hj', hl.groups j hj']

/-! ## A group of one lane -/

theorem Solo.act {i : Instr} {s : State} {k : GroupKey} {c : LaneCtx} (h : Solo i s k c) : activeLanes i s = [c] := by
  obtain ⟨_, h2, _, _, h5, _⟩ := h
  simp only [activeLanes, h2]
  rw [List.filter_cons_of_pos (by simp only [LaneCtx.active, h5]), List.filter_nil]

/-- An instruction of one lane carried out. -/
theorem runLanes_solo {i : Instr} {s : State} {k : GroupKey} {c : LaneCtx} (f : LaneCtx → LaneOut) (h : Solo i s k c) :
    runLanes i f s = applyLane (holdLatch i s) (c, f c) := by
  obtain ⟨h1, h2, h3, h4, h5, h6⟩ := h
  have hn : ¬ (decide (((guardOf i).getD 12).toNat > 12)) = true := by simp; omega
  unfold runLanes
  rw [if_neg hn, h2, List.filterMap_cons_some (b := (c, f c)) (by simp only [laneOutcome, h5, ownFault_none h4 h6]), List.filterMap_nil]
  rfl

/-- An instruction that acts once for its warp, with one lane. -/
theorem runOnce_solo {i : Instr} {s : State} {k : GroupKey} {c : LaneCtx} {chk : LaneCtx → Except Trap Unit}
    {f : LaneCtx → List LaneCtx → LaneOut} {e : State → State} (h : Solo i s k c) (hc : chk c = .ok ()) (hf : f c [c] = .ok e) :
    runOnce i chk f s = e (holdLatch i s) := by
  have ha := h.act
  unfold runOnce
  rw [runLanes_solo _ h]
  simp only [ha, firstFault, hc, hf, applyLane, if_true]

/-- A blocking instruction of one lane. -/
theorem runBlocking_solo {i : Instr} {s : State} {k : GroupKey} {c : LaneCtx} (f : LaneCtx → BlockOut) (h : Solo i s k c) :
    runBlocking i f s = applyBlock k (holdLatch i s) (c, f c) := by
  obtain ⟨h1, h2, h3, h4, h5, _⟩ := h
  have hn : ¬ (decide (((guardOf i).getD 12).toNat > 12)) = true := by simp; omega
  unfold runBlocking
  simp only [h1]
  rw [if_neg hn, h2]
  simp only [List.map_cons, List.map_nil, List.foldl_cons, List.foldl_nil, blockOutcome, h5, h4]

/-- The operand latch of the current group is all that holding changes. -/
theorem holdLatch_rest (i : Instr) (s : State) : { holdLatch i s with groups := s.groups } = s := by
  unfold holdLatch
  cases hk : s.cur with
  | none => rfl
  | some k =>
    cases hg : s.group? k with
    | none => simp [hg]
    | some g => simp only [hg]; rfl

@[simp] theorem holdLatch_time (i : Instr) (s : State) : (holdLatch i s).time = s.time := by
  have h := congrArg State.time (holdLatch_rest i s)
  exact h
@[simp] theorem holdLatch_boot (i : Instr) (s : State) : (holdLatch i s).boot = s.boot := by
  have h := congrArg State.boot (holdLatch_rest i s)
  exact h
@[simp] theorem holdLatch_net (i : Instr) (s : State) : (holdLatch i s).net = s.net := by
  have h := congrArg State.net (holdLatch_rest i s)
  exact h
@[simp] theorem holdLatch_coh (i : Instr) (s : State) : (holdLatch i s).coh = s.coh := by
  have h := congrArg State.coh (holdLatch_rest i s)
  exact h
@[simp] theorem holdLatch_fab (i : Instr) (s : State) : (holdLatch i s).fab = s.fab := by
  have h := congrArg State.fab (holdLatch_rest i s)
  exact h
@[simp] theorem holdLatch_chits (i : Instr) (s : State) : (holdLatch i s).chits = s.chits := by
  have h := congrArg State.chits (holdLatch_rest i s)
  exact h
@[simp] theorem holdLatch_mgmt (i : Instr) (s : State) : (holdLatch i s).mgmt = s.mgmt := by
  have h := congrArg State.mgmt (holdLatch_rest i s)
  exact h
@[simp] theorem holdLatch_disp (i : Instr) (s : State) : (holdLatch i s).disp = s.disp := by
  have h := congrArg State.disp (holdLatch_rest i s)
  exact h
@[simp] theorem holdLatch_grids (i : Instr) (s : State) : (holdLatch i s).grids = s.grids := by
  have h := congrArg State.grids (holdLatch_rest i s)
  exact h
@[simp] theorem holdLatch_shadow (i : Instr) (s : State) : (holdLatch i s).shadow = s.shadow := by
  have h := congrArg State.shadow (holdLatch_rest i s)
  exact h
@[simp] theorem holdLatch_cores (i : Instr) (s : State) : (holdLatch i s).cores = s.cores := by
  have h := congrArg State.cores (holdLatch_rest i s)
  exact h
@[simp] theorem holdLatch_clusters (i : Instr) (s : State) : (holdLatch i s).clusters = s.clusters := by
  have h := congrArg State.clusters (holdLatch_rest i s)
  exact h
@[simp] theorem holdLatch_dies (i : Instr) (s : State) : (holdLatch i s).dies = s.dies := by
  have h := congrArg State.dies (holdLatch_rest i s)
  exact h
@[simp] theorem holdLatch_devBars (i : Instr) (s : State) : (holdLatch i s).devBars = s.devBars := by
  have h := congrArg State.devBars (holdLatch_rest i s)
  exact h
@[simp] theorem holdLatch_devRegs (i : Instr) (s : State) : (holdLatch i s).devRegs = s.devRegs := by
  have h := congrArg State.devRegs (holdLatch_rest i s)
  exact h
@[simp] theorem holdLatch_warps (i : Instr) (s : State) : (holdLatch i s).warps = s.warps := by
  have h := congrArg State.warps (holdLatch_rest i s)
  exact h
@[simp] theorem holdLatch_threads (i : Instr) (s : State) : (holdLatch i s).threads = s.threads := by
  have h := congrArg State.threads (holdLatch_rest i s)
  exact h
@[simp] theorem holdLatch_mem (i : Instr) (s : State) : (holdLatch i s).mem = s.mem := by
  have h := congrArg State.mem (holdLatch_rest i s)
  exact h
@[simp] theorem holdLatch_weights (i : Instr) (s : State) : (holdLatch i s).weights = s.weights := by
  have h := congrArg State.weights (holdLatch_rest i s)
  exact h
@[simp] theorem holdLatch_returns (i : Instr) (s : State) : (holdLatch i s).returns = s.returns := by
  have h := congrArg State.returns (holdLatch_rest i s)
  exact h
@[simp] theorem holdLatch_sfu (i : Instr) (s : State) : (holdLatch i s).sfu = s.sfu := by
  have h := congrArg State.sfu (holdLatch_rest i s)
  exact h
@[simp] theorem holdLatch_jobs (i : Instr) (s : State) : (holdLatch i s).jobs = s.jobs := by
  have h := congrArg State.jobs (holdLatch_rest i s)
  exact h
@[simp] theorem holdLatch_matrix (i : Instr) (s : State) : (holdLatch i s).matrix = s.matrix := by
  have h := congrArg State.matrix (holdLatch_rest i s)
  exact h
@[simp] theorem holdLatch_service (i : Instr) (s : State) : (holdLatch i s).service = s.service := by
  have h := congrArg State.service (holdLatch_rest i s)
  exact h
@[simp] theorem holdLatch_agenda (i : Instr) (s : State) : (holdLatch i s).agenda = s.agenda := by
  have h := congrArg State.agenda (holdLatch_rest i s)
  exact h
@[simp] theorem holdLatch_pick (i : Instr) (s : State) : (holdLatch i s).pick = s.pick := by
  have h := congrArg State.pick (holdLatch_rest i s)
  exact h
@[simp] theorem holdLatch_cur (i : Instr) (s : State) : (holdLatch i s).cur = s.cur := by
  have h := congrArg State.cur (holdLatch_rest i s)
  exact h
@[simp] theorem holdLatch_fresh (i : Instr) (s : State) : (holdLatch i s).fresh = s.fresh := by
  have h := congrArg State.fresh (holdLatch_rest i s)
  exact h
@[simp] theorem holdLatch_openVals (i : Instr) (s : State) : (holdLatch i s).openVals = s.openVals := by
  have h := congrArg State.openVals (holdLatch_rest i s)
  exact h
@[simp] theorem holdLatch_thread (i : Instr) (s : State) (x : ThreadId) : (holdLatch i s).thread x = s.thread x := by simp [State.thread]
@[simp] theorem holdLatch_warp (i : Instr) (s : State) (x : WarpId) : (holdLatch i s).warp x = s.warp x := by simp [State.warp]
@[simp] theorem holdLatch_core (i : Instr) (s : State) (x : CoreId) : (holdLatch i s).core x = s.core x := by simp [State.core]
@[simp] theorem holdLatch_die (i : Instr) (s : State) (x : Nat) : (holdLatch i s).die x = s.die x := by simp [State.die]
@[simp] theorem holdLatch_dispatcher (i : Instr) (s : State) (x : Nat) : (holdLatch i s).dispatcher x = s.dispatcher x := by simp [State.dispatcher]
@[simp] theorem holdLatch_grid (i : Instr) (s : State) (x : Nat) : (holdLatch i s).grid? x = s.grid? x := by simp [State.grid?]
@[simp] theorem holdLatch_bundle (i : Instr) (s : State) (w : WarpId) : (holdLatch i s).bundle w = s.bundle w := by simp [State.bundle]
@[simp] theorem holdLatch_cluster (i : Instr) (s : State) (d k : Nat) : (holdLatch i s).cluster d k = s.cluster d k := by simp [State.cluster]

end Sys2Proof.Machine
end

