-- ==== Sys2Proof/Laws/Memory.lean ====
section
/-! SUPPORT. The canonical memory list: reading after a write, and every write keeps the form. -/

namespace Sys2Proof.Machine

theorem cellsFrom_weaken {lo hi : Nat} (h : lo ≤ hi) : ∀ {m : List Host.Cell}, cellsFrom hi m = true → cellsFrom lo m = true
  | [], _ => rfl
  | (a, v) :: t, k => by
    simp only [cellsFrom, Bool.and_eq_true, decide_eq_true_eq, bne_iff_ne] at k ⊢
    exact ⟨⟨Nat.le_trans h k.1.1, k.1.2⟩, k.2⟩

theorem readCell_of_lt {a : Nat} : ∀ {lo : Nat} {m : List Host.Cell}, cellsFrom lo m = true → a < lo → readCell a m = 0
  | _, [], _, _ => rfl
  | lo, (b, v) :: t, k, h => by
    simp only [cellsFrom, Bool.and_eq_true, decide_eq_true_eq] at k
    have hb : b ≠ a := by omega
    simp only [readCell, if_neg hb]
    exact readCell_of_lt k.2 (by omega)

/-- A write of one byte keeps the canonical form. -/
theorem writeCell_cellsFrom {lo a : Nat} (v : Byte) (h : lo ≤ a) : ∀ {m : List Host.Cell}, cellsFrom lo m = true →
    cellsFrom lo (writeCell a v m) = true
  | [], _ => by
    by_cases hv : v = 0#8 <;> simp [writeCell, cellsFrom, hv, h]
  | (b, w) :: t, k => by
    simp only [cellsFrom, Bool.and_eq_true, decide_eq_true_eq, bne_iff_ne, BitVec.ofNat_eq_ofNat] at k
    by_cases h1 : a < b
    · by_cases hv : v = 0#8
      · simp [writeCell, cellsFrom, h1, hv, k]
      · have h3 : a + 1 ≤ b := h1
        simp [writeCell, cellsFrom, h1, h3, hv, k, h]
    · by_cases h2 : a = b
      · subst h2
        by_cases hv : v = 0#8
        · simp only [writeCell, Nat.lt_irrefl, if_true, if_false, hv]
          exact cellsFrom_weaken (by omega) k.2
        · simp [writeCell, cellsFrom, hv, k]
      · simp only [writeCell, h1, h2, if_false, cellsFrom, Bool.and_eq_true, decide_eq_true_eq, bne_iff_ne]
        exact ⟨k.1, writeCell_cellsFrom v (by omega) k.2⟩

/-- A write of one byte keeps memory canonical. -/
@[simp] theorem writeCell_wf {m : List Host.Cell} (a : Nat) (v : Byte) (h : Memory.wf m = true) : Memory.wf (writeCell a v m) = true :=
  writeCell_cellsFrom v (Nat.zero_le a) h

/-- Writes of several bytes keep memory canonical. -/
@[simp] theorem writeCells_wf : ∀ (bs : List Byte) (a : Nat) {m : List Host.Cell}, Memory.wf m = true → Memory.wf (writeCells a bs m) = true
  | [], _, _, h => h
  | b :: t, a, _, h => writeCells_wf t (a + 1) (writeCell_wf a b h)

@[simp] theorem writeNum_wf {m : List Host.Cell} (a n x : Nat) (h : Memory.wf m = true) : Memory.wf (writeNum a n x m) = true :=
  writeCells_wf _ a h

theorem readCell_writeCell_from {lo a : Nat} (b : Nat) (v : Byte) : ∀ {m : List Host.Cell}, cellsFrom lo m = true →
    readCell b (writeCell a v m) = if b = a then v else readCell b m
  | [], _ => by
    by_cases hb : b = a
    · subst hb
      by_cases hv : v = 0#8 <;> simp [writeCell, readCell, hv]
    · have : ¬ a = b := fun e => hb e.symm
      by_cases hv : v = 0#8 <;> simp [writeCell, readCell, hv, hb, this]
  | (c, w) :: t, k => by
    simp only [cellsFrom, Bool.and_eq_true, decide_eq_true_eq, bne_iff_ne, BitVec.ofNat_eq_ofNat] at k
    by_cases h1 : a < c
    · by_cases hb : b = a
      · subst hb
        have h0 : readCell b ((c, w) :: t) = 0 :=
          readCell_of_lt (lo := c) (by simp [cellsFrom, k.1.2, k.2]) h1
        by_cases hv : v = 0#8
        · simp [writeCell, h1, hv, h0]
        · simp [writeCell, h1, hv, readCell]
      · have : ¬ a = b := fun e => hb e.symm
        by_cases hv : v = 0#8 <;> simp [writeCell, h1, hv, readCell, hb, this]
    · by_cases h2 : a = c
      · subst h2
        by_cases hb : b = a
        · subst hb
          by_cases hv : v = 0#8
          · simp only [writeCell, Nat.lt_irrefl, if_true, if_false, hv]
            exact readCell_of_lt k.2 (by omega)
          · simp [writeCell, hv, readCell]
        · have : ¬ a = b := fun e => hb e.symm
          by_cases hv : v = 0#8 <;> simp [writeCell, hv, readCell, hb, this]
      · by_cases hc : c = b
        · subst hc
          have : ¬ c = a := fun e => h2 e.symm
          simp [writeCell, h1, h2, readCell, this]
        · simp only [writeCell, h1, h2, if_false, readCell, if_neg hc]
          exact readCell_writeCell_from b v k.2

/-- A byte read after a byte was written to canonical memory. -/
theorem readCell_writeCell {m : List Host.Cell} (a b : Nat) (v : Byte) (h : Memory.wf m = true) :
    readCell b (writeCell a v m) = if b = a then v else readCell b m := readCell_writeCell_from b v h

theorem readCell_writeCell_same {m : List Host.Cell} (a : Nat) (v : Byte) (h : Memory.wf m = true) :
    readCell a (writeCell a v m) = v := by simp [readCell_writeCell a a v h]

theorem readCell_writeCell_other {m : List Host.Cell} {a b : Nat} (v : Byte) (h : Memory.wf m = true) (hb : b ≠ a) :
    readCell b (writeCell a v m) = readCell b m := by simp [readCell_writeCell a b v h, hb]

/-- A byte outside the stored bytes reads as before. -/
theorem readCell_writeCells_other : ∀ (bs : List Byte) {a b : Nat} {m : List Host.Cell}, Memory.wf m = true →
    (b < a ∨ a + bs.length ≤ b) → readCell b (writeCells a bs m) = readCell b m
  | [], _, _, _, _, _ => rfl
  | x :: t, a, b, m, h, hb => by
    simp only [List.length_cons] at hb
    simp only [writeCells]
    rw [readCell_writeCells_other t (writeCell_wf a x h) (by omega), readCell_writeCell_other x h (by omega)]

/-- A stored byte reads as it was stored. -/
theorem readCell_writeCells_at : ∀ (bs : List Byte) {a i : Nat} {m : List Host.Cell}, Memory.wf m = true → (hi : i < bs.length) →
    readCell (a + i) (writeCells a bs m) = bs[i]
  | x :: t, a, 0, m, h, _ => by
    simp only [writeCells, Nat.add_zero, List.getElem_cons_zero]
    rw [readCell_writeCells_other t (writeCell_wf a x h) (by omega), readCell_writeCell_same a x h]
  | x :: t, a, i + 1, m, h, hi => by
    simp only [List.length_cons] at hi
    have hi' : i < t.length := by omega
    simp only [writeCells, List.getElem_cons_succ]
    rw [show a + (i + 1) = a + 1 + i by omega]
    exact readCell_writeCells_at t (writeCell_wf a x h) hi'

/-- The lists that hold the module's bytes are canonical: local memory, the weight stores, host memory. -/
def State.memOk (s : State) : Prop := Memory.wf s.mem = true ∧ Memory.wf s.weights = true ∧ Memory.wf s.mgmt.hostMem = true

theorem reset_memOk : State.reset.memOk := by
  refine ⟨?_, ?_, ?_⟩ <;> decide

theorem setDram_mem (s : State) (sec : Nat) (d : BitVec 512) :
    (s.setDram sec d).mem = writeNum (sec * 64) 64 d.toNat s.mem := by
  simp only [State.setDram]

theorem setDram_memOk {s : State} (h : s.memOk) (sec : Nat) (d : BitVec 512) : (s.setDram sec d).memOk := by
  obtain ⟨h1, h2, h3⟩ := h
  refine ⟨?_, ?_, ?_⟩
  · rw [setDram_mem]
    exact writeNum_wf (sec * 64) 64 d.toNat h1
  · simpa only [State.setDram] using h2
  · simpa only [State.setDram] using h3

/-- A sector of memory stored leaves every byte outside it. -/
theorem setDram_other {s : State} (h : Memory.wf s.mem = true) (sec : Nat) (d : BitVec 512) {b : Nat}
    (hb : b < sec * 64 ∨ sec * 64 + (bytesOfNat 64 d.toNat).length ≤ b) : readCell b (s.setDram sec d).mem = readCell b s.mem := by
  rw [setDram_mem, writeNum]
  exact readCell_writeCells_other _ h hb

@[simp] theorem bytesOfNat_length : ∀ (n x : Nat), (bytesOfNat n x).length = n
  | 0, _ => rfl
  | n + 1, x => by simp [bytesOfNat, bytesOfNat_length n]

end Sys2Proof.Machine
end

