-- ==== Sys2Proof/Laws/PerInstr.lean ====
section
/-! SUPPORT. The shape of every instruction's words: none for a step of the part; one word that is neither PFX nor trailer; or a PFX
and one such word. -/

namespace Sys2Proof.Laws.WordShape

/-- No words, one word, or a PFX and its word (R292, R299, R308). -/
def Statement (i : Instr) : Prop :=
  encode i = [] ∨ (∃ w, encode i = [w] ∧ opOf w ≠ 0x3E ∧ opOf w ≠ 0x3F) ∨
  (∃ p w, encode i = [pfxWord p, w] ∧ opOf w ≠ 0x3E ∧ opOf w ≠ 0x3F)

theorem none_of {i : Instr} (h : encode i = []) : Statement i := .inl h

theorem one_of {i : Instr} {w : Word} (h : encode i = [w]) (a : opOf w ≠ 0x3E) (b : opOf w ≠ 0x3F) : Statement i :=
  .inr (.inl ⟨w, h, a, b⟩)

theorem two_of {i : Instr} {p : BitVec 26} {w : Word} (h : encode i = [pfxWord p, w]) (a : opOf w ≠ 0x3E) (b : opOf w ≠ 0x3F) :
    Statement i := .inr (.inr ⟨p, w, h, a, b⟩)

theorem maybe_of {i : Instr} {pfx : Option (BitVec 26)} {w : Word} (h : encode i = withPfx pfx w) (a : opOf w ≠ 0x3E)
    (b : opOf w ≠ 0x3F) : Statement i := by
  cases pfx with
  | none => exact one_of h a b
  | some p => exact two_of h a b

theorem rstctlWarm (v : BitVec 32) : Statement (.rstctlWarm v) := none_of rfl
theorem powerPhaseDone (err : BitVec 8) (sock : Nat) : Statement (.powerPhaseDone err sock) := none_of rfl
theorem romPhaseDone (seedOk : Bool) : Statement (.romPhaseDone seedOk) := none_of rfl
theorem linksPhaseDone (failed : Option Nat) : Statement (.linksPhaseDone failed) := none_of rfl
theorem memoryPhaseDone (failed : Option Nat) : Statement (.memoryPhaseDone failed) := none_of rfl
theorem phaseBoundExpiry (late : Option Nat) : Statement (.phaseBoundExpiry late) := none_of rfl
theorem pcieConfigRequest (iod : Nat) : Statement (.pcieConfigRequest iod) := none_of rfl
theorem rcvctlGo (v : BitVec 32) : Statement (.rcvctlGo v) := none_of rfl
theorem sensorSample (die : Nat) (read : SensorReading) (watts : Nat) (weights : List (Nat × BitVec 8)) : Statement (.sensorSample die read watts weights) := none_of rfl
theorem dutyRestoreStep (die : Nat) : Statement (.dutyRestoreStep die) := none_of rfl
theorem routerForward (k : Nat) (next : Nat) : Statement (.routerForward k next) := none_of rfl
theorem linkPacketReceive (k : Nat) (flip : BitVec 32) : Statement (.linkPacketReceive k flip) := none_of rfl
theorem lackTimer (link : Nat) : Statement (.lackTimer link) := none_of rfl
theorem replayTimeout (link : Nat) : Statement (.replayTimeout link) := none_of rfl
theorem linkRetrained (link : Nat) : Statement (.linkRetrained link) := none_of rfl
theorem retrainTimeout (link : Nat) : Statement (.retrainTimeout link) := none_of rfl
theorem holdoffExpiry (site sector : Nat) : Statement (.holdoffExpiry site sector) := none_of rfl
theorem missReissue (site k : Nat) : Statement (.missReissue site k) := none_of rfl
theorem preqRaise (site k : Nat) : Statement (.preqRaise site k) := none_of rfl
theorem mendStartTimeout (sector : Nat) : Statement (.mendStartTimeout sector) := none_of rfl
theorem mendWindowTimeout (sector : Nat) : Statement (.mendWindowTimeout sector) := none_of rfl
theorem eventDeliver (owner : Nat) : Statement (.eventDeliver owner) := none_of rfl
theorem nmodWrite (v : BitVec 32) : Statement (.nmodWrite v) := none_of rfl
theorem npmapWrite (v : BitVec 32) : Statement (.npmapWrite v) := none_of rfl
theorem nimcorPortTrained (plane : Nat) (dup : Bool) (spines : BitVec 8) : Statement (.nimcorPortTrained plane dup spines) := none_of rfl
theorem planeFail (plane : Nat) : Statement (.planeFail plane) := none_of rfl
theorem npmapAdopt (sock : Nat) : Statement (.npmapAdopt sock) := none_of rfl
theorem rsynResend (sock dmod : Nat) : Statement (.rsynResend sock dmod) := none_of rfl
theorem rauSend (sock k : Nat) : Statement (.rauSend sock k) := none_of rfl
theorem remoteTimeout (sock k : Nat) : Statement (.remoteTimeout sock k) := none_of rfl
theorem rrd (iod k : Nat) : Statement (.rrd iod k) := none_of rfl
theorem rwr (iod k : Nat) : Statement (.rwr iod k) := none_of rfl
theorem ratm (iod k : Nat) : Statement (.ratm iod k) := none_of rfl
theorem rcas (iod k : Nat) : Statement (.rcas iod k) := none_of rfl
theorem rflg (iod k : Nat) : Statement (.rflg iod k) := none_of rfl
theorem rnfl (iod k : Nat) : Statement (.rnfl iod k) := none_of rfl
theorem rsyn (iod k : Nat) : Statement (.rsyn iod k) := none_of rfl
theorem rrsp (sock k : Nat) : Statement (.rrsp sock k) := none_of rfl
theorem rack (sock k : Nat) : Statement (.rack sock k) := none_of rfl
theorem rars (sock k : Nat) : Statement (.rars sock k) := none_of rfl
theorem rfak (sock k : Nat) : Statement (.rfak sock k) := none_of rfl
theorem rnak (sock k : Nat) : Statement (.rnak sock k) := none_of rfl
theorem flagResend (sock k : Nat) : Statement (.flagResend sock k) := none_of rfl
theorem cinv (sock k : Nat) : Statement (.cinv sock k) := none_of rfl
theorem ctsk (sock k : Nat) : Statement (.ctsk sock k) := none_of rfl
theorem cloc (sock k : Nat) : Statement (.cloc sock k) := none_of rfl
theorem cres (sock k : Nat) : Statement (.cres sock k) := none_of rfl
theorem cfre (sock k : Nat) : Statement (.cfre sock k) := none_of rfl
theorem cack (sock k : Nat) : Statement (.cack sock k) := none_of rfl
theorem chitReserveRefill (die iod : Nat) : Statement (.chitReserveRefill die iod) := none_of rfl
theorem hostMemRead (iod pa : Nat) (mv : BitVec 2) : Statement (.hostMemRead iod pa mv) := none_of rfl
theorem hostMemWrite (iod pa : Nat) (data : BitVec 512) (mask : BitVec 64) : Statement (.hostMemWrite iod pa data mask) := none_of rfl
theorem hostAtomicop (iod : Nat) (op : BitVec 2) (pa width : Nat) (x y : BitVec 128) : Statement (.hostAtomicop iod op pa width x y) := none_of rfl
theorem birsp (iod sector : Nat) (wb : Option (BitVec 512)) : Statement (.birsp iod sector wb) := none_of rfl
theorem hostSnoopTimeout (iod sector : Nat) : Statement (.hostSnoopTimeout iod sector) := none_of rfl
theorem hostSnoop (iod sector : Nat) (op : BitVec 2) : Statement (.hostSnoop iod sector op) := none_of rfl
theorem cxlCacheCompletion (k : Nat) (err : Bool) (data : BitVec 512) : Statement (.cxlCacheCompletion k err data) := none_of rfl
theorem fmbWrite (n : Nat) (v : BitVec 32) : Statement (.fmbWrite n v) := none_of rfl
theorem hmbEnable (v : BitVec 32) : Statement (.hmbEnable v) := none_of rfl
theorem hmbDoorbell (v : BitVec 32) : Statement (.hmbDoorbell v) := none_of rfl
theorem hmbReplyConsume (v : BitVec 32) : Statement (.hmbReplyConsume v) := none_of rfl
theorem dieDrainDone (sock : Nat) (why : BitVec 3) : Statement (.dieDrainDone sock why) := none_of rfl
theorem memoryDieRestoreDone (sock : Nat) : Statement (.memoryDieRestoreDone sock) := none_of rfl
theorem ertdatWrite (v : BitVec 32) : Statement (.ertdatWrite v) := none_of rfl
theorem evringWrite (owner : Nat) (v : BitVec 64) : Statement (.evringWrite owner v) := none_of rfl
theorem queueEnable (disp n : Nat) (v : BitVec 32) : Statement (.queueEnable disp n v) := none_of rfl
theorem queueDisable (disp n : Nat) (v : BitVec 32) : Statement (.queueDisable disp n v) := none_of rfl
theorem qcfgErrcClear (disp n : Nat) (v : BitVec 32) : Statement (.qcfgErrcClear disp n v) := none_of rfl
theorem recordAccept (disp n : Nat) : Statement (.recordAccept disp n) := none_of rfl
theorem hwPush (disp k : Nat) : Statement (.hwPush disp k) := none_of rfl
theorem freeReport (die : Nat) : Statement (.freeReport die) := none_of rfl
theorem placeItem (die : Nat) : Statement (.placeItem die) := none_of rfl
theorem priorityPromote (disp k : Nat) : Statement (.priorityPromote disp k) := none_of rfl
theorem pereqSubmit (die : Nat) (v : BitVec 32) : Statement (.pereqSubmit die v) := none_of rfl
theorem preemptStart (die : Nat) : Statement (.preemptStart die) := none_of rfl
theorem bundleSave (die k : Nat) : Statement (.bundleSave die k) := none_of rfl
theorem saveDone (die k : Nat) : Statement (.saveDone die k) := none_of rfl
theorem preemptTimeout (die : Nat) : Statement (.preemptTimeout die) := none_of rfl
theorem reservationLapse (die core : Nat) : Statement (.reservationLapse die core) := none_of rfl
theorem groupForm (die core part port : Nat) : Statement (.groupForm die core part port) := none_of rfl
theorem runFetchDone (die core part port buf : Nat) : Statement (.runFetchDone die core part port buf) := none_of rfl
theorem runEnd (die core part port buf : Nat) : Statement (.runEnd die core part port buf) := none_of rfl
theorem haltBroadcast (die grid : Nat) : Statement (.haltBroadcast die grid) := none_of rfl
theorem haltForceTimeout (die grid : Nat) : Statement (.haltForceTimeout die grid) := none_of rfl
theorem dumpWrite (grid : Nat) : Statement (.dumpWrite grid) := none_of rfl
theorem wringDone (die core : Nat) : Statement (.wringDone die core) := none_of rfl
theorem walkDone (die k : Nat) : Statement (.walkDone die k) := none_of rfl
theorem fresRetry (die : Nat) (slot : BitVec 8) : Statement (.fresRetry die slot) := none_of rfl
theorem fresDeliver (die : Nat) (slot : BitVec 8) : Statement (.fresDeliver die slot) := none_of rfl
theorem wsctlWreqSet (die : Nat) : Statement (.wsctlWreqSet die) := none_of rfl
theorem wsctlWreqClear (die : Nat) : Statement (.wsctlWreqClear die) := none_of rfl
theorem weightStoreFill (die off pa len : Nat) : Statement (.weightStoreFill die off pa len) := none_of rfl
theorem refreshWindowEnd (die bank : Nat) : Statement (.refreshWindowEnd die bank) := none_of rfl
theorem asrhWrite (die n : Nat) (v : BitVec 32) : Statement (.asrhWrite die n v) := none_of rfl
theorem asrlWrite (die n : Nat) (v : BitVec 32) : Statement (.asrlWrite die n v) := none_of rfl
theorem dbcEnWrite (die n : Nat) (v : BitVec 32) : Statement (.dbcEnWrite die n v) := none_of rfl
theorem dbsBrkClear (die n : Nat) : Statement (.dbsBrkClear die n) := none_of rfl
theorem copyFault (k e : Nat) : Statement (.copyFault k e) := none_of rfl
theorem gangArrive (die core part slot : Nat) : Statement (.gangArrive die core part slot) := none_of rfl
theorem multicastWindow (die cluster k : Nat) : Statement (.multicastWindow die cluster k) := none_of rfl
theorem joinReleaseTimeout (die core part slot : Nat) (addr : BitVec 64) : Statement (.joinReleaseTimeout die core part slot addr) := none_of rfl
theorem watchdogExpiry (die core part slot lane : Nat) : Statement (.watchdogExpiry die core part slot lane) := none_of rfl
theorem debugStopSet (die : Nat) (v : BitVec 32) : Statement (.debugStopSet die v) := none_of rfl
theorem smpctlWrite (die : Nat) (v : BitVec 32) : Statement (.smpctlWrite die v) := none_of rfl
theorem sampleTick (die core : Nat) : Statement (.sampleTick die core) := none_of rfl
theorem periodLogWrite (die : Nat) : Statement (.periodLogWrite die) := none_of rfl
theorem tileStampWrite (die core part slot : Nat) : Statement (.tileStampWrite die core part slot) := none_of rfl
theorem regWrite (space off : Nat) (v : BitVec 32) : Statement (.regWrite space off v) := none_of rfl
theorem ill (x : BitVec 26) : Statement (.ill x) := one_of rfl (by simp) (by simp)
theorem opReserved (o : BitVec 1) (x : BitVec 26) : Statement (.opReserved o x) := one_of rfl (by rw [opOf_packX]; revert o; decide) (by rw [opOf_packX]; revert o; decide)
theorem add (pfx : Option (BitVec 26)) (g : BitVec 4) (h : BitVec 1) (d : BitVec 7) (a : BitVec 7) (b : BitVec 7) : Statement (.add pfx g h d a b) := maybe_of rfl (by simp) (by simp)
theorem sub (pfx : Option (BitVec 26)) (g : BitVec 4) (h : BitVec 1) (d : BitVec 7) (a : BitVec 7) (b : BitVec 7) : Statement (.sub pfx g h d a b) := maybe_of rfl (by simp) (by simp)
theorem mul (pfx : Option (BitVec 26)) (g : BitVec 4) (h : BitVec 1) (d : BitVec 7) (a : BitVec 7) (b : BitVec 7) : Statement (.mul pfx g h d a b) := maybe_of rfl (by simp) (by simp)
theorem mulh (pfx : Option (BitVec 26)) (g : BitVec 4) (h : BitVec 1) (d : BitVec 7) (a : BitVec 7) (b : BitVec 7) : Statement (.mulh pfx g h d a b) := maybe_of rfl (by simp) (by simp)
theorem fma (pfx : Option (BitVec 26)) (g : BitVec 4) (h : BitVec 1) (d : BitVec 7) (a : BitVec 7) (b : BitVec 7) : Statement (.fma pfx g h d a b) := maybe_of rfl (by simp) (by simp)
theorem fms (pfx : Option (BitVec 26)) (g : BitVec 4) (h : BitVec 1) (d : BitVec 7) (a : BitVec 7) (b : BitVec 7) : Statement (.fms pfx g h d a b) := maybe_of rfl (by simp) (by simp)
theorem dot (pfx : Option (BitVec 26)) (g : BitVec 4) (h : BitVec 1) (d : BitVec 7) (a : BitVec 7) (b : BitVec 7) : Statement (.dot pfx g h d a b) := maybe_of rfl (by simp) (by simp)
theorem min (g : BitVec 4) (h : BitVec 1) (d : BitVec 7) (a : BitVec 7) (b : BitVec 7) : Statement (.min g h d a b) := one_of rfl (by simp) (by simp)
theorem max (g : BitVec 4) (h : BitVec 1) (d : BitVec 7) (a : BitVec 7) (b : BitVec 7) : Statement (.max g h d a b) := one_of rfl (by simp) (by simp)
theorem and (g : BitVec 4) (h : BitVec 1) (d : BitVec 7) (a : BitVec 7) (b : BitVec 7) : Statement (.and g h d a b) := one_of rfl (by simp) (by simp)
theorem or (g : BitVec 4) (h : BitVec 1) (d : BitVec 7) (a : BitVec 7) (b : BitVec 7) : Statement (.or g h d a b) := one_of rfl (by simp) (by simp)
theorem xor (g : BitVec 4) (h : BitVec 1) (d : BitVec 7) (a : BitVec 7) (b : BitVec 7) : Statement (.xor g h d a b) := one_of rfl (by simp) (by simp)
theorem andn (g : BitVec 4) (h : BitVec 1) (d : BitVec 7) (a : BitVec 7) (b : BitVec 7) : Statement (.andn g h d a b) := one_of rfl (by simp) (by simp)
theorem shl (g : BitVec 4) (h : BitVec 1) (d : BitVec 7) (a : BitVec 7) (b : BitVec 7) : Statement (.shl g h d a b) := one_of rfl (by simp) (by simp)
theorem shr (g : BitVec 4) (h : BitVec 1) (d : BitVec 7) (a : BitVec 7) (b : BitVec 7) : Statement (.shr g h d a b) := one_of rfl (by simp) (by simp)
theorem addi (pfx : Option (BitVec 26)) (g : BitVec 4) (h : BitVec 1) (d : BitVec 7) (a : BitVec 7) (i : BitVec 7) : Statement (.addi pfx g h d a i) := maybe_of rfl (by simp) (by simp)
theorem shli (g : BitVec 4) (h : BitVec 1) (d : BitVec 7) (a : BitVec 7) (i : BitVec 7) : Statement (.shli g h d a i) := one_of rfl (by simp) (by simp)
theorem shri (g : BitVec 4) (h : BitVec 1) (d : BitVec 7) (a : BitVec 7) (i : BitVec 7) : Statement (.shri g h d a i) := one_of rfl (by simp) (by simp)
theorem andi (g : BitVec 4) (h : BitVec 1) (d : BitVec 7) (a : BitVec 7) (i : BitVec 7) : Statement (.andi g h d a i) := one_of rfl (by simp) (by simp)
theorem movi (d : BitVec 7) (i : BitVec 19) : Statement (.movi d i) := one_of rfl (by simp) (by simp)
theorem movh (d : BitVec 7) (i : BitVec 19) : Statement (.movh d i) := one_of rfl (by simp) (by simp)
theorem cmp (g : BitVec 4) (h : BitVec 1) (i : BitVec 3) (c : BitVec 4) (a : BitVec 7) (b : BitVec 7) : Statement (.cmp g h i c a b) := one_of rfl (by simp) (by simp)
theorem cmpi (g : BitVec 4) (h : BitVec 1) (i : BitVec 3) (c : BitVec 4) (a : BitVec 7) (m : BitVec 7) : Statement (.cmpi g h i c a m) := one_of rfl (by simp) (by simp)
theorem mov (g : BitVec 4) (h : BitVec 1) (d : BitVec 7) (a : BitVec 7) : Statement (.mov g h d a) := one_of rfl (by simp) (by simp)
theorem not (g : BitVec 4) (h : BitVec 1) (d : BitVec 7) (a : BitVec 7) : Statement (.not g h d a) := one_of rfl (by simp) (by simp)
theorem neg (g : BitVec 4) (h : BitVec 1) (d : BitVec 7) (a : BitVec 7) : Statement (.neg g h d a) := one_of rfl (by simp) (by simp)
theorem abs (g : BitVec 4) (h : BitVec 1) (d : BitVec 7) (a : BitVec 7) : Statement (.abs g h d a) := one_of rfl (by simp) (by simp)
theorem clz (g : BitVec 4) (h : BitVec 1) (d : BitVec 7) (a : BitVec 7) : Statement (.clz g h d a) := one_of rfl (by simp) (by simp)
theorem popc (g : BitVec 4) (h : BitVec 1) (d : BitVec 7) (a : BitVec 7) : Statement (.popc g h d a) := one_of rfl (by simp) (by simp)
theorem brev (g : BitVec 4) (h : BitVec 1) (d : BitVec 7) (a : BitVec 7) : Statement (.brev g h d a) := one_of rfl (by simp) (by simp)
theorem bswap (g : BitVec 4) (h : BitVec 1) (d : BitVec 7) (a : BitVec 7) : Statement (.bswap g h d a) := one_of rfl (by simp) (by simp)
theorem cls (g : BitVec 4) (h : BitVec 1) (d : BitVec 7) (a : BitVec 7) : Statement (.cls g h d a) := one_of rfl (by simp) (by simp)
theorem ctz (g : BitVec 4) (h : BitVec 1) (d : BitVec 7) (a : BitVec 7) : Statement (.ctz g h d a) := one_of rfl (by simp) (by simp)
theorem tagof (g : BitVec 4) (h : BitVec 1) (d : BitVec 7) (a : BitVec 7) : Statement (.tagof g h d a) := one_of rfl (by simp) (by simp)
theorem retag (g : BitVec 4) (h : BitVec 1) (d : BitVec 7) (a : BitVec 7) (t : BitVec 4) : Statement (.retag g h d a t) := one_of rfl (by simp) (by simp)
theorem cvt (pfx : Option (BitVec 26)) (g : BitVec 4) (h : BitVec 1) (d : BitVec 7) (a : BitVec 7) (t : BitVec 4) (r : BitVec 3) : Statement (.cvt pfx g h d a t r) := maybe_of rfl (by simp) (by simp)
theorem rcp (g : BitVec 4) (h : BitVec 1) (d : BitVec 7) (a : BitVec 7) : Statement (.rcp g h d a) := one_of rfl (by simp) (by simp)
theorem rsq (g : BitVec 4) (h : BitVec 1) (d : BitVec 7) (a : BitVec 7) : Statement (.rsq g h d a) := one_of rfl (by simp) (by simp)
theorem sqrt (g : BitVec 4) (h : BitVec 1) (d : BitVec 7) (a : BitVec 7) : Statement (.sqrt g h d a) := one_of rfl (by simp) (by simp)
theorem ex2 (g : BitVec 4) (h : BitVec 1) (d : BitVec 7) (a : BitVec 7) : Statement (.ex2 g h d a) := one_of rfl (by simp) (by simp)
theorem lg2 (g : BitVec 4) (h : BitVec 1) (d : BitVec 7) (a : BitVec 7) : Statement (.lg2 g h d a) := one_of rfl (by simp) (by simp)
theorem sin (g : BitVec 4) (h : BitVec 1) (d : BitVec 7) (a : BitVec 7) : Statement (.sin g h d a) := one_of rfl (by simp) (by simp)
theorem cos (g : BitVec 4) (h : BitVec 1) (d : BitVec 7) (a : BitVec 7) : Statement (.cos g h d a) := one_of rfl (by simp) (by simp)
theorem tanh (g : BitVec 4) (h : BitVec 1) (d : BitVec 7) (a : BitVec 7) : Statement (.tanh g h d a) := one_of rfl (by simp) (by simp)
theorem sigm (g : BitVec 4) (h : BitVec 1) (d : BitVec 7) (a : BitVec 7) : Statement (.sigm g h d a) := one_of rfl (by simp) (by simp)
theorem pand (g : BitVec 4) (p : BitVec 4) (q : BitVec 4) (r : BitVec 4) : Statement (.pand g p q r) := one_of rfl (by simp) (by simp)
theorem por (g : BitVec 4) (p : BitVec 4) (q : BitVec 4) (r : BitVec 4) : Statement (.por g p q r) := one_of rfl (by simp) (by simp)
theorem pxor (g : BitVec 4) (p : BitVec 4) (q : BitVec 4) (r : BitVec 4) : Statement (.pxor g p q r) := one_of rfl (by simp) (by simp)
theorem pandn (g : BitVec 4) (p : BitVec 4) (q : BitVec 4) (r : BitVec 4) : Statement (.pandn g p q r) := one_of rfl (by simp) (by simp)
theorem vany (g : BitVec 4) (p : BitVec 4) (a : BitVec 4) : Statement (.vany g p a) := one_of rfl (by simp) (by simp)
theorem vall (g : BitVec 4) (p : BitVec 4) (a : BitVec 4) : Statement (.vall g p a) := one_of rfl (by simp) (by simp)
theorem vbal (g : BitVec 4) (d : BitVec 7) (a : BitVec 4) : Statement (.vbal g d a) := one_of rfl (by simp) (by simp)
theorem vuni (g : BitVec 4) (p : BitVec 4) (a : BitVec 4) : Statement (.vuni g p a) := one_of rfl (by simp) (by simp)
theorem p2r (g : BitVec 4) (d : BitVec 7) : Statement (.p2r g d) := one_of rfl (by simp) (by simp)
theorem setp (g : BitVec 4) (h : BitVec 1) (a : BitVec 7) : Statement (.setp g h a) := one_of rfl (by simp) (by simp)
theorem shfl (g : BitVec 4) (h : BitVec 1) (d : BitVec 7) (a : BitVec 7) (b : BitVec 7) : Statement (.shfl g h d a b) := one_of rfl (by simp) (by simp)
theorem shfi (g : BitVec 4) (h : BitVec 1) (d : BitVec 7) (a : BitVec 7) (i : BitVec 7) : Statement (.shfi g h d a i) := one_of rfl (by simp) (by simp)
theorem redAdd (g : BitVec 4) (h : BitVec 1) (d : BitVec 7) (a : BitVec 7) : Statement (.redAdd g h d a) := one_of rfl (by simp) (by simp)
theorem redMin (g : BitVec 4) (h : BitVec 1) (d : BitVec 7) (a : BitVec 7) : Statement (.redMin g h d a) := one_of rfl (by simp) (by simp)
theorem redMax (g : BitVec 4) (h : BitVec 1) (d : BitVec 7) (a : BitVec 7) : Statement (.redMax g h d a) := one_of rfl (by simp) (by simp)
theorem redAnd (g : BitVec 4) (h : BitVec 1) (d : BitVec 7) (a : BitVec 7) : Statement (.redAnd g h d a) := one_of rfl (by simp) (by simp)
theorem redOr (g : BitVec 4) (h : BitVec 1) (d : BitVec 7) (a : BitVec 7) : Statement (.redOr g h d a) := one_of rfl (by simp) (by simp)
theorem redXor (g : BitVec 4) (h : BitVec 1) (d : BitVec 7) (a : BitVec 7) : Statement (.redXor g h d a) := one_of rfl (by simp) (by simp)
theorem redScani (g : BitVec 4) (h : BitVec 1) (d : BitVec 7) (a : BitVec 7) : Statement (.redScani g h d a) := one_of rfl (by simp) (by simp)
theorem redScanx (g : BitVec 4) (h : BitVec 1) (d : BitVec 7) (a : BitVec 7) : Statement (.redScanx g h d a) := one_of rfl (by simp) (by simp)
theorem sel (g : BitVec 4) (h : BitVec 1) (d : BitVec 7) (a : BitVec 7) (b : BitVec 7) : Statement (.sel g h d a b) := one_of rfl (by simp) (by simp)
theorem bra (g : BitVec 4) (d : BitVec 22) : Statement (.bra g d) := one_of rfl (by simp) (by simp)
theorem call (g : BitVec 4) (d : BitVec 22) : Statement (.call g d) := one_of rfl (by simp) (by simp)
theorem jr (g : BitVec 4) (h : BitVec 1) (a : BitVec 7) : Statement (.jr g h a) := one_of rfl (by simp) (by simp)
theorem jalr (g : BitVec 4) (h : BitVec 1) (a : BitVec 7) : Statement (.jalr g h a) := one_of rfl (by simp) (by simp)
theorem ret (g : BitVec 4) (h : BitVec 1) : Statement (.ret g h) := one_of rfl (by simp) (by simp)
theorem join (g : BitVec 4) (d : BitVec 22) : Statement (.join g d) := one_of rfl (by simp) (by simp)
theorem rdy (g : BitVec 4) (h : BitVec 1) : Statement (.rdy g h) := one_of rfl (by simp) (by simp)
theorem rdyW (g : BitVec 4) (h : BitVec 1) : Statement (.rdyW g h) := one_of rfl (by simp) (by simp)
theorem wnd (g : BitVec 4) (h : BitVec 1) (a : BitVec 7) (i : BitVec 7) : Statement (.wnd g h a i) := one_of rfl (by simp) (by simp)
theorem mcall (x : BitVec 5) (d : BitVec 7) (a : BitVec 7) (b : BitVec 7) : Statement (.mcall x d a b) := one_of rfl (by simp) (by simp)
theorem ld (pfx : Option (BitVec 26)) (g : BitVec 4) (s : BitVec 1) (d : BitVec 7) (a : BitVec 7) (s2 : BitVec 2) (o : BitVec 2) (c : BitVec 3) : Statement (.ld pfx g s d a s2 o c) := maybe_of rfl (by simp) (by simp)
theorem st (pfx : Option (BitVec 26)) (g : BitVec 4) (s : BitVec 1) (d : BitVec 7) (a : BitVec 7) (s2 : BitVec 2) (o : BitVec 2) (c : BitVec 3) : Statement (.st pfx g s d a s2 o c) := maybe_of rfl (by simp) (by simp)
theorem atom (pfx : BitVec 26) (g : BitVec 4) (h : BitVec 1) (d a b : BitVec 7) : Statement (.atom pfx g h d a b) := two_of rfl (by simp) (by simp)
theorem cas (pfx : BitVec 26) (g : BitVec 4) (h : BitVec 1) (d a b : BitVec 7) : Statement (.cas pfx g h d a b) := two_of rfl (by simp) (by simp)
theorem fence (g : BitVec 4) (h : BitVec 1) (o : BitVec 2) (c : BitVec 3) : Statement (.fence g h o c) := one_of rfl (by simp) (by simp)
theorem mma (pfx : BitVec 26) (g : BitVec 4) (h : BitVec 1) (d a b : BitVec 7) : Statement (.mma pfx g h d a b) := two_of rfl (by simp) (by simp)
theorem mtxZero (g : BitVec 4) (d : BitVec 7) (a : BitVec 7) : Statement (.mtxZero g d a) := one_of rfl (by simp) (by simp)
theorem mtxLd (g : BitVec 4) (h : BitVec 1) (d : BitVec 7) (a : BitVec 7) : Statement (.mtxLd g h d a) := one_of rfl (by simp) (by simp)
theorem mtxSt (g : BitVec 4) (h : BitVec 1) (d : BitVec 7) (a : BitVec 7) : Statement (.mtxSt g h d a) := one_of rfl (by simp) (by simp)
theorem mtxRd (g : BitVec 4) (h : BitVec 1) (d : BitVec 7) (a : BitVec 7) : Statement (.mtxRd g h d a) := one_of rfl (by simp) (by simp)
theorem mtxRel (g : BitVec 4) (d : BitVec 7) : Statement (.mtxRel g d) := one_of rfl (by simp) (by simp)
theorem cpy (pfx : BitVec 26) (g : BitVec 4) (h : BitVec 1) (d a b : BitVec 7) : Statement (.cpy pfx g h d a b) := two_of rfl (by simp) (by simp)
theorem gth (pfx : BitVec 26) (g : BitVec 4) (h : BitVec 1) (d a b : BitVec 7) : Statement (.gth pfx g h d a b) := two_of rfl (by simp) (by simp)
theorem trayCfg (g : BitVec 4) (h : BitVec 1) (d : BitVec 7) (a : BitVec 7) : Statement (.trayCfg g h d a) := one_of rfl (by simp) (by simp)
theorem trayRel (g : BitVec 4) (h : BitVec 1) (d : BitVec 7) (a : BitVec 7) : Statement (.trayRel g h d a) := one_of rfl (by simp) (by simp)
theorem trayRsv (g : BitVec 4) (h : BitVec 1) (d : BitVec 7) (a : BitVec 7) : Statement (.trayRsv g h d a) := one_of rfl (by simp) (by simp)
theorem trayCommit (g : BitVec 4) (a : BitVec 7) : Statement (.trayCommit g a) := one_of rfl (by simp) (by simp)
theorem trayPop (g : BitVec 4) (h : BitVec 1) (d : BitVec 7) (a : BitVec 7) : Statement (.trayPop g h d a) := one_of rfl (by simp) (by simp)
theorem trayDone (g : BitVec 4) (a : BitVec 7) : Statement (.trayDone g a) := one_of rfl (by simp) (by simp)
theorem trayCnt (g : BitVec 4) (h : BitVec 1) (d : BitVec 7) (a : BitVec 7) : Statement (.trayCnt g h d a) := one_of rfl (by simp) (by simp)
theorem barInit (g : BitVec 4) (s : BitVec 7) (a : BitVec 7) (l : BitVec 3) : Statement (.barInit g s a l) := one_of rfl (by simp) (by simp)
theorem barArv (g : BitVec 4) (s : BitVec 7) (l : BitVec 3) : Statement (.barArv g s l) := one_of rfl (by simp) (by simp)
theorem barArvb (g : BitVec 4) (h : BitVec 1) (s : BitVec 7) (a : BitVec 7) (l : BitVec 3) : Statement (.barArvb g h s a l) := one_of rfl (by simp) (by simp)
theorem barWait (g : BitVec 4) (h : BitVec 1) (s : BitVec 7) (l : BitVec 3) : Statement (.barWait g h s l) := one_of rfl (by simp) (by simp)
theorem barRel (g : BitVec 4) (s : BitVec 7) (l : BitVec 3) : Statement (.barRel g s l) := one_of rfl (by simp) (by simp)
theorem wait (g : BitVec 4) (k : BitVec 3) (n : BitVec 7) : Statement (.wait g k n) := one_of rfl (by simp) (by simp)
theorem invk (pfx : BitVec 26) (g : BitVec 4) (h : BitVec 1) (d a b : BitVec 7) : Statement (.invk pfx g h d a b) := two_of rfl (by simp) (by simp)
theorem chitAwait (g : BitVec 4) (a : BitVec 7) : Statement (.chitAwait g a) := one_of rfl (by simp) (by simp)
theorem chitTest (g : BitVec 4) (h : BitVec 1) (d : BitVec 7) (a : BitVec 7) : Statement (.chitTest g h d a) := one_of rfl (by simp) (by simp)
theorem chitFree (g : BitVec 4) (a : BitVec 7) : Statement (.chitFree g a) := one_of rfl (by simp) (by simp)
theorem chitSlot (g : BitVec 4) (h : BitVec 1) (d : BitVec 7) (a : BitVec 7) : Statement (.chitSlot g h d a) := one_of rfl (by simp) (by simp)
theorem poolScr (g : BitVec 4) (h : BitVec 1) (d : BitVec 7) (a : BitVec 7) : Statement (.poolScr g h d a) := one_of rfl (by simp) (by simp)
theorem poolMxs (g : BitVec 4) (h : BitVec 1) (d : BitVec 7) (a : BitVec 7) : Statement (.poolMxs g h d a) := one_of rfl (by simp) (by simp)
theorem wmonCfg (g : BitVec 4) (h : BitVec 1) (d : BitVec 7) (a : BitVec 7) : Statement (.wmonCfg g h d a) := one_of rfl (by simp) (by simp)
theorem wmonRel (g : BitVec 4) (h : BitVec 1) (d : BitVec 7) (a : BitVec 7) : Statement (.wmonRel g h d a) := one_of rfl (by simp) (by simp)
theorem wmonRdlo (g : BitVec 4) (h : BitVec 1) (d : BitVec 7) (a : BitVec 7) : Statement (.wmonRdlo g h d a) := one_of rfl (by simp) (by simp)
theorem wmonRdhi (g : BitVec 4) (h : BitVec 1) (d : BitVec 7) (a : BitVec 7) : Statement (.wmonRdhi g h d a) := one_of rfl (by simp) (by simp)
theorem mfs (g : BitVec 4) (n : BitVec 1) (d : BitVec 7) (n2 : BitVec 7) : Statement (.mfs g n d n2) := one_of rfl (by simp) (by simp)
theorem mts (g : BitVec 4) (n : BitVec 1) (a : BitVec 7) (n2 : BitVec 7) : Statement (.mts g n a n2) := one_of rfl (by simp) (by simp)
theorem trap (g : BitVec 4) (c : BitVec 22) : Statement (.trap g c) := one_of rfl (by simp) (by simp)
theorem exit (g : BitVec 4) (h : BitVec 1) : Statement (.exit g h) := one_of rfl (by simp) (by simp)
theorem brk (g : BitVec 4) (h : BitVec 1) (a : BitVec 7) : Statement (.brk g h a) := one_of rfl (by simp) (by simp)
theorem resume (g : BitVec 4) (h : BitVec 1) : Statement (.resume g h) := one_of rfl (by simp) (by simp)
theorem fail (g : BitVec 4) (h : BitVec 1) : Statement (.fail g h) := one_of rfl (by simp) (by simp)
theorem refq (g : BitVec 4) (h : BitVec 1) (d : BitVec 7) (a : BitVec 7) : Statement (.refq g h d a) := one_of rfl (by simp) (by simp)
theorem locq (g : BitVec 4) (h : BitVec 1) (d : BitVec 7) (a : BitVec 7) : Statement (.locq g h d a) := one_of rfl (by simp) (by simp)
theorem time (g : BitVec 4) (h : BitVec 1) (d : BitVec 7) : Statement (.time g h d) := one_of rfl (by simp) (by simp)
theorem place (g : BitVec 4) (h : BitVec 1) (d : BitVec 7) (a : BitVec 7) : Statement (.place g h d a) := one_of rfl (by simp) (by simp)
theorem mload (g : BitVec 4) (h : BitVec 1) (d : BitVec 7) (a : BitVec 7) : Statement (.mload g h d a) := one_of rfl (by simp) (by simp)
theorem tsrOpen (g : BitVec 4) (h : BitVec 1) (a : BitVec 7) : Statement (.tsrOpen g h a) := one_of rfl (by simp) (by simp)
theorem tsrClose (g : BitVec 4) (h : BitVec 1) (a : BitVec 7) : Statement (.tsrClose g h a) := one_of rfl (by simp) (by simp)
theorem contextRestoreDone (die k : Nat) : Statement (.contextRestoreDone die k) := none_of rfl
theorem pcieLinkUp (iod : Nat) (cxl : Bool) : Statement (.pcieLinkUp iod cxl) := none_of rfl
theorem serviceRequest (die svc : Nat) : Statement (.serviceRequest die svc) := none_of rfl
theorem ethernetFrameReceive (iod conn : Nat) (prio : Nat) (payload : List (BitVec 8)) : Statement (.ethernetFrameReceive iod conn prio payload) := none_of rfl
theorem coldReset : Statement (.coldReset) := none_of rfl
theorem configPhaseDone : Statement .configPhaseDone := none_of rfl
theorem managersPhaseDone : Statement (.managersPhaseDone) := none_of rfl
theorem recoveryCheckDone : Statement (.recoveryCheckDone) := none_of rfl
theorem undervoltTimeout : Statement (.undervoltTimeout) := none_of rfl
theorem lack : Statement (.lack) := none_of rfl
theorem lnak : Statement (.lnak) := none_of rfl
theorem dieCacheAccess : Statement (.dieCacheAccess) := none_of rfl
theorem gets : Statement (.gets) := none_of rfl
theorem getx : Statement (.getx) := none_of rfl
theorem getr : Statement (.getr) := none_of rfl
theorem tokd : Statement (.tokd) := none_of rfl
theorem tokn : Statement (.tokn) := none_of rfl
theorem datr : Statement (.datr) := none_of rfl
theorem rmis : Statement (.rmis) := none_of rfl
theorem dloss : Statement (.dloss) := none_of rfl
theorem preq : Statement (.preq) := none_of rfl
theorem pact : Statement (.pact) := none_of rfl
theorem pdone : Statement (.pdone) := none_of rfl
theorem pdeact : Statement (.pdeact) := none_of rfl
theorem pack : Statement (.pack) := none_of rfl
theorem lost : Statement (.lost) := none_of rfl
theorem mend : Statement (.mend) := none_of rfl
theorem mret : Statement (.mret) := none_of rfl
theorem mdone : Statement (.mdone) := none_of rfl
theorem brdq : Statement (.brdq) := none_of rfl
theorem brdr : Statement (.brdr) := none_of rfl
theorem eprq : Statement (.eprq) := none_of rfl
theorem eprs : Statement (.eprs) := none_of rfl
theorem nxrq : Statement (.nxrq) := none_of rfl
theorem nxrs : Statement (.nxrs) := none_of rfl
theorem ochk : Statement (.ochk) := none_of rfl
theorem ocnf : Statement (.ocnf) := none_of rfl
theorem evnt : Statement (.evnt) := none_of rfl
theorem nctlEnSet : Statement (.nctlEnSet) := none_of rfl
theorem nctlEnClear : Statement (.nctlEnClear) := none_of rfl
theorem replyWrite : Statement (.replyWrite) := none_of rfl
theorem ping : Statement (.ping) := none_of rfl
theorem regrd : Statement (.regrd) := none_of rfl
theorem regwr : Statement (.regwr) := none_of rfl
theorem unmap : Statement (.unmap) := none_of rfl
theorem rdrop : Statement (.rdrop) := none_of rfl
theorem lostclr : Statement (.lostclr) := none_of rfl
theorem dieoff : Statement (.dieoff) := none_of rfl
theorem dieon : Statement (.dieon) := none_of rfl
theorem evpost : Statement (.evpost) := none_of rfl
theorem mext : Statement (.mext) := none_of rfl
theorem attest : Statement (.attest) := none_of rfl
theorem ownkey : Statement (.ownkey) := none_of rfl
theorem endpointBadtype : Statement (.endpointBadtype) := none_of rfl
theorem batchSend : Statement (.batchSend) := none_of rfl
theorem copyDone : Statement (.copyDone) := none_of rfl
theorem gatherDone : Statement (.gatherDone) := none_of rfl
theorem engineSlotCommit : Statement (.engineSlotCommit) := none_of rfl
theorem sfuResult : Statement (.sfuResult) := none_of rfl
theorem mmaCommit : Statement (.mmaCommit) := none_of rfl
theorem mtxTransferDone : Statement (.mtxTransferDone) := none_of rfl
theorem pendingRegisterWrite : Statement (.pendingRegisterWrite) := none_of rfl

end Sys2Proof.Laws.WordShape
end

