-- ==== Sys2Proof/Tests/Slice0.lean ====
section
/-! SUPPORT. Tests: ill-formed terms, words written out from the opcode map, and for each statement states and operands that meet its
hypotheses. -/

namespace Sys2Proof.Tests

open Sys2Proof Sys2Proof.Machine

/-! ## Well-formedness -/

/-- A guard above 12, an odd destination pair, a reserved barrier level, a reserved predicate and the like are class 00 (R294, R297,
R313 to R319). -/
theorem test_illFormedWords : ∀ i ∈ ([
    .add none 13 0 1 2 3, .sel 13 0 1 2 3, .ill 0, .opReserved 0 0, .add none 12 0 1 2 127, .add none 12 0 121 2 3, .add (some 0x3FFFFFF) 12 0 1 2 3,
    .cmp 12 0 6 0 1 2, .cmp 12 0 0 8 1 2, .pand 12 13 0 0, .barInit 12 5 9 0, .fence 12 0 0 7, .ld none 12 1 4 8 3 0 0, .mfs 12 1 6 127,
    .rcp 12 0 120 2, .shli 12 0 123 2 64, .retag 12 0 1 2 15, .mtxZero 12 6 3, .wait 12 7 0] : List Instr), wellFormed i = false := by decide

/-- A step of the part whose arguments name no die, core, slot, queue or root that the module has (R5, R126, R150, R132, R189). -/
theorem test_illFormedSteps : ∀ i ∈ ([
    .pcieConfigRequest 19, .dutyRestoreStep 8, .sensorSample 22 ⟨[], []⟩ 0 [], .holdoffExpiry 8 0, .missReissue 9 0, .preqRaise 19 0, .planeFail 8,
    .npmapAdopt 12, .rauSend 12 0, .remoteTimeout 12 0, .rsynResend 12 0, .flagResend 12 0, .rrd 19 0, .rwr 22 0, .ratm 8 0, .rcas 8 0,
    .rflg 8 0, .rnfl 8 0, .rsyn 8 0, .chitReserveRefill 8 20, .chitReserveRefill 7 19, .hostMemRead 19 0 0, .hostMemWrite 22 0 0 0,
    .hostAtomicop 8 0 0 4 0 0, .birsp 8 0 none, .hostSnoopTimeout 8 0, .hostSnoop 8 0 0, .dieDrainDone 22 0, .memoryDieRestoreDone 7,
    .memoryDieRestoreDone 20, .queueEnable 8 0 0, .queueDisable 0 64 0, .qcfgErrcClear 19 0 0, .recordAccept 20 64, .hwPush 8 0] : List Instr),
    wellFormed i = false := by decide

theorem test_illFormedPlaces : ∀ i ∈ ([
    .freeReport 8, .placeItem 8, .priorityPromote 9 0, .pereqSubmit 8 0, .preemptStart 8, .bundleSave 8 0, .saveDone 8 0, .preemptTimeout 8,
    .reservationLapse 0 192, .groupForm 0 0 4 0, .groupForm 0 0 0 2, .runFetchDone 0 0 0 0 4, .runEnd 8 0 0 0 0, .haltBroadcast 8 0,
    .haltForceTimeout 8 0, .wringDone 7 192, .walkDone 8 0, .fresRetry 8 0, .fresDeliver 8 0, .wsctlWreqSet 8, .wsctlWreqClear 8,
    .weightStoreFill 8 0 0 0, .refreshWindowEnd 0 64, .asrhWrite 0 256 0, .asrlWrite 8 0 0, .gangArrive 0 0 0 16, .multicastWindow 0 4 0,
    .joinReleaseTimeout 0 0 4 0 0, .watchdogExpiry 0 0 0 0 32, .debugStopSet 8 0, .smpctlWrite 8 0, .sampleTick 0 192, .periodLogWrite 8,
    .tileStampWrite 0 0 0 16, .serviceRequest 0 16, .ethernetFrameReceive 19 0 0 [], .ethernetFrameReceive 20 0 8 [], .pcieLinkUp 19 true,
    .contextRestoreDone 8 0] : List Instr), wellFormed i = false := by decide

/-- The boundary values that each check admits. -/
theorem test_wellFormedEdges : ∀ i ∈ ([
    .add none 12 0 0 111 126, .sel 12 0 127 0 1, .cmp 12 0 5 7 1 2, .dutyRestoreStep 7, .sensorSample 21 ⟨[], []⟩ 0 [], .planeFail 7, .npmapAdopt 21,
    .queueEnable 20 63 0, .reservationLapse 7 191, .runFetchDone 7 191 3 1 3, .refreshWindowEnd 7 63, .asrlWrite 7 255 0,
    .watchdogExpiry 7 191 3 15 31, .memoryDieRestoreDone 8, .memoryDieRestoreDone 19] : List Instr), wellFormed i = true := by decide

/-! ## Words -/

/-- The words of the run that the manual lays out at 0x40_1000, and its other worked encodings (R301, R332, R350, R355). -/
theorem test_workedWords :
    decodeTableWord 32 0x07008001 = some (.add none 12 0 2 0 1) ∧ decodeTableWord 32 0x4040C17C = some (.addi none 1 0 3 2 0x7C) ∧
    decodeWords [0xF8000100, 0x9F214300] = .ok (.ld (some 0x100) 12 1 5 6 0 0 0, 2) ∧
    decodeTableWord 32 0x47010183 = some (.shli 12 0 4 3 3) ∧ decodeTableWord 32 0x833FFFBB = some (.bra 12 (BitVec.ofInt 22 (-69))) ∧
    decodeTableWord 32 0x5B048205 = some (.cmp 12 0 1 2 4 5) ∧ decodeTableWord 32 0x1702018B = some (.fma none 12 0 8 3 11) ∧
    decodeWords [0xF8000008, 0x1F010082] = .ok (.dot (some 8) 12 0 4 1 2, 2) :=
  ⟨by decide, by decide, rfl, by decide, by decide, by decide, by decide, rfl⟩


/-! ## States for the statements -/

/-- Lane 0 of the warp of `fetchKey`. -/
def x0 : ThreadId := ⟨fetchWarp, 0⟩

/-- A group of that thread alone, in mid-run. -/
def soloGroup (ws : List Word) : Group :=
  { fetchGroup ws with members := some 0 :: List.replicate 31 none, entered := true, next := ws.length }

/-- A started bundle of one warp, whose one thread not exited is lane 0, in a group whose instruction is current. -/
def solo (th : Thread) (w : Warp) : State :=
  { State.reset with
    time := 5000
    cur := some fetchKey, groups := [(fetchKey, soloGroup [0])], warps := [(fetchWarp, w)]
    threads := (x0, { th with st := .grouped, pc := 0x1000, repc := 0x1000 }) ::
      (List.range 31).map (fun l => (⟨fetchWarp, l + 1⟩, { Thread.reset with st := .exited }))
    cores := [(⟨0, 0⟩, { Core.reset with bundles := [(0, { Bundle.reset with regs := 32, grid := 1, ready := true, begun := true })] })] }

/-- The context of the first member of the current group. -/
def ctx (s : State) : LaneCtx := (laneCtxs s).headD (laneCtx s fetchKey (soloGroup []) (0, x0))

/-- A thread whose registers from 0 on hold given values. -/
def holding (rs : List Reg) : Thread := { Thread.reset with regs := (List.range rs.length).zip rs }

/-- A warp with a handler. -/
def handled : Warp := { Warp.reset with tbase := 0x4000 }

theorem all_of_one {α : Type} {xs : List α} {a : α} {P : α → Prop} (h : xs = [a]) (p : P a) : ∀ c ∈ xs, P c := by
  intro c hc
  rw [h, List.mem_singleton] at hc
  exact hc ▸ p

/-- A run that writes no pair of variable latency names none again. -/
theorem namesAgain_none {i : Instr} {c : LaneCtx} (h : c.group.varDests = []) : c.namesAgain i = false := by
  rw [LaneCtx.namesAgain, h]
  rfl

/-- The address space whose roots the states below use, enabled. -/
def rootOn : AsRoot := { en := true, pfs := false, root := 0, staged := 0 }

/-- Words of the opcode map written out field by field (R292, R312 to R318). -/
theorem test_decodeInteger : ∀ p ∈ ([
    (0b000000_10000000000000000000000101, .ill 33554437),
    (0b000001_1001_1_1010101_1000010_0000011, .add none 9 1 85 66 3),
    (0b000010_1001_1_1010101_1000010_0000011, .sub none 9 1 85 66 3),
    (0b000011_1001_1_1010101_1000010_0000011, .mul none 9 1 85 66 3),
    (0b000100_1001_1_1010101_1000010_0000011, .mulh none 9 1 85 66 3),
    (0b000101_1001_1_1010101_1000010_0000011, .fma none 9 1 85 66 3),
    (0b000110_1001_1_1010101_1000010_0000011, .fms none 9 1 85 66 3),
    (0b000111_1001_1_1010101_1000010_0000011, .dot none 9 1 85 66 3),
    (0b001000_1001_1_1010101_1000010_0000011, .min 9 1 85 66 3),
    (0b001001_1001_1_1010101_1000010_0000011, .max 9 1 85 66 3),
    (0b001010_1001_1_1010101_1000010_0000011, .and 9 1 85 66 3),
    (0b001011_1001_1_1010101_1000010_0000011, .or 9 1 85 66 3),
    (0b001100_1001_1_1010101_1000010_0000011, .xor 9 1 85 66 3),
    (0b001101_1001_1_1010101_1000010_0000011, .andn 9 1 85 66 3),
    (0b001110_1001_1_1010101_1000010_0000011, .shl 9 1 85 66 3),
    (0b001111_1001_1_1010101_1000010_0000011, .shr 9 1 85 66 3),
    (0b010000_1001_1_1010101_1000010_1010101, .addi none 9 1 85 66 85),
    (0b010001_1001_1_1010101_1000010_1010101, .shli 9 1 85 66 85),
    (0b010010_1001_1_1010101_1000010_1010101, .shri 9 1 85 66 85),
    (0b010011_1001_1_1010101_1000010_1010101, .andi 9 1 85 66 85),
    (0b010100_1010101_1000000000000001000, .movi 85 262152),
    (0b010101_1010101_1000000000000001000, .movh 85 262152),
    (0b010110_1001_1_101_1001_1000010_0000011, .cmp 9 1 5 9 66 3),
    (0b010111_1001_1_101_1001_1000010_1010101, .cmpi 9 1 5 9 66 85)] : List (Nat × Instr)), decodeTableWord 32 p.1 = some p.2 := by decide

/-- Words of the opcode map written out field by field (R292, R312 to R318). -/
theorem test_decodeSystemA : ∀ p ∈ ([
    (0b11110_1_10000000000000000000001000, .opReserved 1 33554440),
    (0b101011_1001_1_0000000000000000_10_101, .fence 9 1 2 5),
    (0b101101_1001_0_1010101_1000010_0000000, .mtxZero 9 85 66),
    (0b101101_1001_1_1010101_1000010_0000001, .mtxLd 9 1 85 66),
    (0b101101_1001_1_1010101_1000010_0000010, .mtxSt 9 1 85 66),
    (0b101101_1001_1_1010101_1000010_0000011, .mtxRd 9 1 85 66),
    (0b101101_1001_0_1010101_00000000000100, .mtxRel 9 85),
    (0b110000_1001_1_1010101_1000010_0000000, .trayCfg 9 1 85 66),
    (0b110000_1001_1_1010101_1000010_0000001, .trayRel 9 1 85 66),
    (0b110000_1001_1_1010101_1000010_0000010, .trayRsv 9 1 85 66),
    (0b110000_1001_00000000_1000010_0000011, .trayCommit 9 66),
    (0b110000_1001_1_1010101_1000010_0000100, .trayPop 9 1 85 66),
    (0b110000_1001_00000000_1000010_0000101, .trayDone 9 66),
    (0b110000_1001_1_1010101_1000010_0000110, .trayCnt 9 1 85 66),
    (0b110001_1001_0_1010101_1000010_101_0000, .barInit 9 85 66 5),
    (0b110001_1001_0_1010101_0000000_101_0001, .barArv 9 85 5),
    (0b110001_1001_1_1010101_1000010_101_0010, .barArvb 9 1 85 66 5),
    (0b110001_1001_1_1010101_0000000_101_0011, .barWait 9 1 85 5),
    (0b110001_1001_0_1010101_0000000_101_0100, .barRel 9 85 5),
    (0b110010_1001_00000_101_0000000_1010101, .wait 9 5 85),
    (0b110100_1001_00000000_1000010_0000000, .chitAwait 9 66),
    (0b110100_1001_1_1010101_1000010_0000001, .chitTest 9 1 85 66),
    (0b110100_1001_00000000_1000010_0000010, .chitFree 9 66),
    (0b110100_1001_1_1010101_1000010_0000011, .chitSlot 9 1 85 66),
    (0b110101_1001_1_1010101_1000010_0000000, .poolScr 9 1 85 66),
    (0b110101_1001_1_1010101_1000010_0000001, .poolMxs 9 1 85 66),
    (0b110110_1001_1_1010101_1000010_0000000, .wmonCfg 9 1 85 66),
    (0b110110_1001_1_1010101_1000010_0000001, .wmonRel 9 1 85 66),
    (0b110110_1001_1_1010101_1000010_0000010, .wmonRdlo 9 1 85 66),
    (0b110110_1001_1_1010101_1000010_0000011, .wmonRdhi 9 1 85 66)] : List (Nat × Instr)), decodeTableWord 32 p.1 = some p.2 := by decide

/-- Words of the opcode map written out field by field (R292, R312 to R318). -/
theorem test_decodeSystemB : ∀ p ∈ ([
    (0b110111_1001_1_1010101_0000000_1010101, .mfs 9 1 85 85),
    (0b111000_1001_1_0000000_1000010_1010101, .mts 9 1 66 85),
    (0b111001_1001_1000000000000000001000, .trap 9 2097160),
    (0b111010_1001_1_000000000000000000000, .exit 9 1),
    (0b111010_1001_1_0000000_1000010_0000001, .brk 9 1 66),
    (0b111010_1001_1_000000000000000000010, .resume 9 1),
    (0b111010_1001_1_000000000000000000011, .fail 9 1),
    (0b111010_1001_1_1010101_1000010_0000100, .refq 9 1 85 66),
    (0b111010_1001_1_1010101_1000010_0000101, .locq 9 1 85 66),
    (0b111010_1001_1_1010101_00000000000110, .time 9 1 85),
    (0b111010_1001_1_1010101_1000010_0000111, .place 9 1 85 66),
    (0b111010_1001_1_1010101_1000010_0001000, .mload 9 1 85 66),
    (0b111011_1001_1_0000000_1000010_0000000, .tsrOpen 9 1 66),
    (0b111011_1001_1_0000000_1000010_0000001, .tsrClose 9 1 66)] : List (Nat × Instr)), decodeTableWord 32 p.1 = some p.2 := by decide

/-- Words of the opcode map written out field by field (R292, R312 to R318). -/
theorem test_decodeUnary : ∀ p ∈ ([
    (0b011000_1001_1_1010101_1000010_0000000, .mov 9 1 85 66),
    (0b011000_1001_1_1010101_1000010_0000001, .not 9 1 85 66),
    (0b011000_1001_1_1010101_1000010_0000010, .neg 9 1 85 66),
    (0b011000_1001_1_1010101_1000010_0000011, .abs 9 1 85 66),
    (0b011000_1001_1_1010101_1000010_0000100, .clz 9 1 85 66),
    (0b011000_1001_1_1010101_1000010_0000101, .popc 9 1 85 66),
    (0b011000_1001_1_1010101_1000010_0000110, .brev 9 1 85 66),
    (0b011000_1001_1_1010101_1000010_0000111, .bswap 9 1 85 66),
    (0b011000_1001_1_1010101_1000010_0001000, .cls 9 1 85 66),
    (0b011000_1001_1_1010101_1000010_0001001, .ctz 9 1 85 66),
    (0b011000_1001_1_1010101_1000010_0001010, .tagof 9 1 85 66),
    (0b011000_1001_1_1010101_1000010_001_1001, .retag 9 1 85 66 9)] : List (Nat × Instr)), decodeTableWord 32 p.1 = some p.2 := by decide

/-- Words of the opcode map written out field by field (R292, R312 to R318). -/
theorem test_decodeLane : ∀ p ∈ ([
    (0b011001_1001_1_1010101_1000010_1001_101, .cvt none 9 1 85 66 9 5),
    (0b011011_1001_0_1001_1001_1001_000000000, .pand 9 9 9 9),
    (0b011011_1001_0_1001_1001_1001_000000001, .por 9 9 9 9),
    (0b011011_1001_0_1001_1001_1001_000000010, .pxor 9 9 9 9),
    (0b011011_1001_0_1001_1001_1001_000000011, .pandn 9 9 9 9),
    (0b011011_1001_0_1001_0000_1001_000001000, .vany 9 9 9),
    (0b011011_1001_0_1001_0000_1001_000001001, .vall 9 9 9),
    (0b011011_1001_0_1010101_0_1001_000001010, .vbal 9 85 9),
    (0b011011_1001_0_1001_0000_1001_000001011, .vuni 9 9 9),
    (0b011011_1001_0_1010101_00000000010000, .p2r 9 85),
    (0b011011_1001_1_0000000_1000010_0010001, .setp 9 1 66),
    (0b011100_1001_1_1010101_1000010_0000011, .shfl 9 1 85 66 3),
    (0b011101_1001_1_1010101_1000010_1010101, .shfi 9 1 85 66 85),
    (0b011110_1001_1_1010101_1000010_0000000, .redAdd 9 1 85 66),
    (0b011110_1001_1_1010101_1000010_0000001, .redMin 9 1 85 66),
    (0b011110_1001_1_1010101_1000010_0000010, .redMax 9 1 85 66),
    (0b011110_1001_1_1010101_1000010_0000011, .redAnd 9 1 85 66),
    (0b011110_1001_1_1010101_1000010_0000100, .redOr 9 1 85 66),
    (0b011110_1001_1_1010101_1000010_0000101, .redXor 9 1 85 66),
    (0b011110_1001_1_1010101_1000010_0001000, .redScani 9 1 85 66),
    (0b011110_1001_1_1010101_1000010_0001001, .redScanx 9 1 85 66),
    (0b011111_1001_1_1010101_1000010_0000011, .sel 9 1 85 66 3)] : List (Nat × Instr)), decodeTableWord 32 p.1 = some p.2 := by decide

/-- Words of the opcode map written out field by field (R292, R312 to R318). -/
theorem test_decodeSpecial : ∀ p ∈ ([
    (0b011010_1001_1_1010101_1000010_0000000, .rcp 9 1 85 66),
    (0b011010_1001_1_1010101_1000010_0000001, .rsq 9 1 85 66),
    (0b011010_1001_1_1010101_1000010_0000010, .sqrt 9 1 85 66),
    (0b011010_1001_1_1010101_1000010_0000011, .ex2 9 1 85 66),
    (0b011010_1001_1_1010101_1000010_0000100, .lg2 9 1 85 66),
    (0b011010_1001_1_1010101_1000010_0000101, .sin 9 1 85 66),
    (0b011010_1001_1_1010101_1000010_0000110, .cos 9 1 85 66),
    (0b011010_1001_1_1010101_1000010_0000111, .tanh 9 1 85 66),
    (0b011010_1001_1_1010101_1000010_0001000, .sigm 9 1 85 66)] : List (Nat × Instr)), decodeTableWord 32 p.1 = some p.2 := by decide

/-- Words of the opcode map written out field by field (R292, R312 to R318). -/
theorem test_decodeControl : ∀ p ∈ ([
    (0b100000_1001_1000000000000000001000, .bra 9 2097160),
    (0b100001_1001_1000000000000000001000, .call 9 2097160),
    (0b100010_1001_1_0000000_1000010_0000000, .jr 9 1 66),
    (0b100010_1001_1_0000000_1000010_0000001, .jalr 9 1 66),
    (0b100010_1001_1_000000000000000000010, .ret 9 1),
    (0b100011_1001_1000000000000000001000, .join 9 2097160),
    (0b100100_1001_1_000000000000000000000, .rdy 9 1),
    (0b100100_1001_1_000000000000000000001, .rdyW 9 1),
    (0b100101_1001_1_0000000_1000010_1010101, .wnd 9 1 66 85),
    (0b100110_10011_1010101_1000010_0000011, .mcall 19 85 66 3)] : List (Nat × Instr)), decodeTableWord 32 p.1 = some p.2 := by decide

/-- Words of the opcode map written out field by field (R292, R312 to R318). -/
theorem test_decodeMemory : ∀ p ∈ ([
    (0b100111_1001_1_1010101_1000010_10_10_101, .ld none 9 1 85 66 2 2 5),
    (0b101000_1001_1_1010101_1000010_10_10_101, .st none 9 1 85 66 2 2 5)] : List (Nat × Instr)), decodeTableWord 32 p.1 = some p.2 := by decide
/-- Instructions of two words: a PFX with a payload, then the word it goes with (R308, R378, R394, R413, R418). -/
theorem test_decodePairs :
    decodeWords [0b111110_00000000000000000000001101#32, 0b101001_1001_1_1010101_1000010_0000011#32] = .ok (.atom 13 9 1 85 66 3, 2) ∧
    decodeWords [0b111110_00000000000000000000001101#32, 0b101010_1001_1_1010101_1000010_0000011#32] = .ok (.cas 13 9 1 85 66 3, 2) ∧
    decodeWords [0b111110_10000000000000000000001101#32, 0b101100_1001_1_1010101_1000010_0000011#32] = .ok (.mma 0x200000D 9 1 85 66 3, 2) ∧
    decodeWords [0b111110_00000000000000000000001101#32, 0b101110_1001_1_1010101_1000010_0000011#32] = .ok (.cpy 13 9 1 85 66 3, 2) ∧
    decodeWords [0b111110_00000000000000000000001101#32, 0b101111_1001_1_1010101_1000010_0000011#32] = .ok (.gth 13 9 1 85 66 3, 2) ∧
    decodeWords [0b111110_00000000000000000000001101#32, 0b110011_1001_1_1010101_1000010_0000011#32] = .ok (.invk 13 9 1 85 66 3, 2) ∧
    decodeWords [0b111110_00000000000000000000001101#32, 0b000001_1001_1_1010101_1000010_0000011#32] = .ok (.add (some 13) 9 1 85 66 3, 2) ∧
    decodeWords [0b111110_00000000000000000000001101#32, 0b101000_1001_1_1010101_1000010_10_01_101#32] =
      .ok (.st (some 13) 9 1 85 66 2 1 5, 2) :=
  ⟨rfl, rfl, rfl, rfl, rfl, rfl, rfl, rfl⟩

/-! ### Fixed-latency instructions -/

/-- Registers 1 to 3 hold S32 values at the ends of their range, register 4 an N32, 5 an N8x4, 6 and 7 an N64 pair, 8 an F32. -/
def sInt : State :=
  solo (holding [⟨0, 0⟩, ⟨0x7FFFFFFF, tagS32⟩, ⟨0x80000000, tagS32⟩, ⟨1, tagS32⟩, ⟨33, tagN32⟩, ⟨0xFF00FF01, tagN8⟩, ⟨0x2000, tagN64⟩, ⟨0, tagN64⟩,
    ⟨0x7F800000, tagF32⟩]) handled

/-- What the statements about every lane of a group need of an instruction that one lane executes. -/
def Ready (i : Instr) (s : State) : Prop := s.cur = some fetchKey ∧ wellFormed i = true ∧ guardsRead i s ∧ activeLanes i s = [ctx s]

theorem wit_FixedLatencyCompletes : let i := Instr.add none 12 0 111 1 3
    Ready i sInt ∧ ∀ c ∈ activeLanes i sInt, ∃ vs n, c.sources [fld 1, fld 3] = .ok vs ∧ c.narrowBad 1 [fld 1, fld 3] = false ∧
      evalArith 0 c.fz 0 false (val0 vs) (val1 vs) = .ok (oneReg 0x80000000 tagS32, 0) ∧ c.dest (fld 111) false = .ok n ∧ c.ten &&& 0 = 0 :=
  ⟨⟨rfl, by decide, all_of_one (a := ctx sInt) rfl ⟨true, rfl, fun _ => rfl⟩, rfl⟩, all_of_one (a := ctx sInt) rfl ⟨_, _, rfl, rfl, rfl, rfl, rfl⟩⟩

/-- An F64 pair plus itself, into the pair at the top of the window. -/
theorem wit_FixedLatencyCompletes_pair : let i := Instr.not 12 0 110 6
    Ready i sInt ∧ ∀ c ∈ activeLanes i sInt, ∃ vs n, c.sources [fld 6] = .ok vs ∧ c.narrowBad 24 [fld 6] = false ∧
      evalLogic (fun x _ => ~~~x) (val0 vs) (val0 vs) = .ok (⟨0xFFFFFFFFFFFFDFFF, tagN64⟩, 0) ∧ c.dest (fld 110) true = .ok n ∧ c.ten &&& 0 = 0 :=
  ⟨⟨rfl, by decide, all_of_one (a := ctx sInt) rfl ⟨true, rfl, fun _ => rfl⟩, rfl⟩, all_of_one (a := ctx sInt) rfl ⟨_, _, rfl, rfl, rfl, rfl, rfl⟩⟩

theorem wit_IntegerResults_sum : let i := Instr.sub none 12 0 0 1 2
    Ready i sInt ∧ ∀ c ∈ activeLanes i sInt, c.sources [fld 1, fld 2] = .ok [oneReg 0x7FFFFFFF tagS32, oneReg 0x80000000 tagS32] ∧
      ∃ n, c.dest (fld 0) false = .ok n :=
  ⟨⟨rfl, by decide, all_of_one (a := ctx sInt) rfl ⟨true, rfl, fun _ => rfl⟩, rfl⟩, all_of_one (a := ctx sInt) rfl ⟨rfl, _, rfl⟩⟩

theorem wit_IntegerResults_shift : let i := Instr.shl 12 0 0 4 4
    Ready i sInt ∧ ∀ c ∈ activeLanes i sInt, c.sources [fld 4, fld 4] = .ok ([oneReg 33 tagN32, oneReg 33 tagN32].take 2) ∧
      ∃ n, c.dest (fld 0) false = .ok n :=
  ⟨⟨rfl, by decide, all_of_one (a := ctx sInt) rfl ⟨true, rfl, fun _ => rfl⟩, rfl⟩, all_of_one (a := ctx sInt) rfl ⟨rfl, _, rfl⟩⟩

theorem wit_IntegerResults_dot : let i := Instr.dot none 12 0 4 5 5
    Ready i sInt ∧ ∀ c ∈ activeLanes i sInt, c.sources [fld 5, fld 5, fld 4] =
      .ok [oneReg 0xFF00FF01 tagN8, oneReg 0xFF00FF01 tagN8, oneReg 33 tagN32] ∧ ∃ n, c.dest (fld 4) false = .ok n :=
  ⟨⟨rfl, by decide, all_of_one (a := ctx sInt) rfl ⟨true, rfl, fun _ => rfl⟩, rfl⟩, all_of_one (a := ctx sInt) rfl ⟨rfl, _, rfl⟩⟩

theorem wit_UnaryResults : let i := Instr.abs 12 0 0 2
    Ready i sInt ∧ ∀ c ∈ activeLanes i sInt, c.sources [fld 2] = .ok [oneReg 0x80000000 tagS32] ∧ ∃ n, c.dest (fld 0) false = .ok n :=
  ⟨⟨rfl, by decide, all_of_one (a := ctx sInt) rfl ⟨true, rfl, fun _ => rfl⟩, rfl⟩, all_of_one (a := ctx sInt) rfl ⟨rfl, _, rfl⟩⟩

theorem wit_UnaryResults_retag : let i := Instr.retag 12 0 111 8 tagB32
    Ready i sInt ∧ ∀ c ∈ activeLanes i sInt, c.reg (fld 8) 0 = .ok ⟨0x7F800000, tagF32⟩ ∧ tagF32 ≠ 15 ∧ ∃ n, c.dest (fld 111) false = .ok n :=
  ⟨⟨rfl, by decide, all_of_one (a := ctx sInt) rfl ⟨true, rfl, fun _ => rfl⟩, rfl⟩, all_of_one (a := ctx sInt) rfl ⟨rfl, by decide, _, rfl⟩⟩

theorem wit_CompareAndConvertResults : let i := Instr.cmp 12 0 5 5 2 1
    Ready i sInt ∧ ∀ c ∈ activeLanes i sInt, c.sources [fld 2, fld 1] = .ok ([oneReg 0x80000000 tagS32, oneReg 0x7FFFFFFF tagS32].take 2) :=
  ⟨⟨rfl, by decide, all_of_one (a := ctx sInt) rfl ⟨true, rfl, fun _ => rfl⟩, rfl⟩, all_of_one (a := ctx sInt) rfl rfl⟩

theorem wit_CompareAndConvertResults_cvt : let i := Instr.cvt none 12 0 0 2 tagN32 0
    Ready i sInt ∧ ∀ c ∈ activeLanes i sInt, c.sources [fld 2] = .ok [oneReg 0x80000000 tagS32] ∧ c.ten &&& flagSA = 0 ∧
      ∃ n, c.dest (fld 0) false = .ok n :=
  ⟨⟨rfl, by decide, all_of_one (a := ctx sInt) rfl ⟨true, rfl, fun _ => rfl⟩, rfl⟩, all_of_one (a := ctx sInt) rfl ⟨rfl, rfl, _, rfl⟩⟩

/-! ### Predicates and lanes -/

/-- Predicate 11 is set; registers 0 to 2 hold S32 values. -/
def sPred : State := solo { holding [⟨5, tagS32⟩, ⟨0xFFFFFFFF, tagS32⟩, ⟨40, tagN32⟩] with preds := 0x800 } handled

theorem wit_VoteAndPredicateResults : let i := Instr.pandn 12 11 12 11
    Ready i sPred ∧ ∀ c ∈ activeLanes i sPred, c.predVal 11 = .ok true ∧ c.predVal 12 2 = .ok true :=
  ⟨⟨rfl, by decide, all_of_one (a := ctx sPred) rfl ⟨true, rfl, fun _ => rfl⟩, rfl⟩, all_of_one (a := ctx sPred) rfl ⟨rfl, rfl⟩⟩

theorem wit_VoteAndPredicateResults_p2r : let i := Instr.p2r 12 111
    Ready i sPred ∧ ∀ c ∈ activeLanes i sPred, (∀ n, n < 12 → c.pred n 1 = .ok ((0x800#12).getLsbD n)) ∧ ∃ n, c.dest (fld 111) false = .ok n :=
  ⟨⟨rfl, by decide, all_of_one (a := ctx sPred) rfl ⟨true, rfl, fun _ => rfl⟩, rfl⟩, all_of_one (a := ctx sPred) rfl ⟨by
    intro n hn
    have : n ∈ List.range 12 := List.mem_range.mpr hn
    simp only [List.mem_cons, List.range, List.range.loop, List.not_mem_nil, or_false] at this
    rcases this with rfl | rfl | rfl | rfl | rfl | rfl | rfl | rfl | rfl | rfl | rfl | rfl <;> rfl, _, rfl⟩⟩

theorem wit_VoteAndPredicateResults_setp : let i := Instr.setp 12 0 1
    Ready i sPred ∧ ∀ c ∈ activeLanes i sPred, c.word (fld 1) 0 = .ok 0xFFFFFFFF :=
  ⟨⟨rfl, by decide, all_of_one (a := ctx sPred) rfl ⟨true, rfl, fun _ => rfl⟩, rfl⟩, all_of_one (a := ctx sPred) rfl rfl⟩

theorem wit_VoteAndPredicateResults_vote : (let i := Instr.vuni 12 0 11
    Ready i sPred ∧ ∀ c ∈ activeLanes i sPred, c.predVal 11 = .ok true) ∧
    (let i := Instr.vbal 12 0 0
    Ready i sPred ∧ ∀ c ∈ activeLanes i sPred, c.predVal 0 = .ok false ∧ ∃ n, c.dest (fld 0) false = .ok n) :=
  ⟨⟨⟨rfl, by decide, all_of_one (a := ctx sPred) rfl ⟨true, rfl, fun _ => rfl⟩, rfl⟩, all_of_one (a := ctx sPred) rfl rfl⟩,
   ⟨rfl, by decide, all_of_one (a := ctx sPred) rfl ⟨true, rfl, fun _ => rfl⟩, rfl⟩, all_of_one (a := ctx sPred) rfl ⟨rfl, _, rfl⟩⟩

theorem wit_ShuffleAndReductionResults : let i := Instr.shfl 12 0 111 0 2
    Ready i sPred ∧ ∀ c ∈ activeLanes i sPred, c.src (fld 0) 0 = .ok (oneReg 5 tagS32) ∧ c.word (fld 2) 2 = .ok 40 ∧
      ∃ m, c.dest (fld 111) false = .ok m :=
  ⟨⟨rfl, by decide, all_of_one (a := ctx sPred) rfl ⟨true, rfl, fun _ => rfl⟩, rfl⟩, all_of_one (a := ctx sPred) rfl ⟨rfl, rfl, _, rfl⟩⟩

theorem wit_ShuffleAndReductionResults_red : let i := Instr.redMin 12 0 127 1
    Ready i sPred ∧ ∀ c ∈ activeLanes i sPred, c.sources [fld 1] = .ok [oneReg 0xFFFFFFFF tagS32] ∧ ∃ m, c.dest (fld 127) false = .ok m :=
  ⟨⟨rfl, by decide, all_of_one (a := ctx sPred) rfl ⟨true, rfl, fun _ => rfl⟩, rfl⟩, all_of_one (a := ctx sPred) rfl ⟨rfl, _, rfl⟩⟩

/-! ### Special functions -/

theorem wit_SpecialFunctionResults : let i := Instr.sqrt 12 0 111 8
    Ready i sInt ∧ ∀ c ∈ activeLanes i sInt, c.sources [fld 8] = .ok [⟨0x7F800000, tagF32⟩] ∧ isIeeeTag tagF32 = true ∧
      ∃ n, c.dest (fld 111) (isPairTag tagF32) = .ok n :=
  ⟨⟨rfl, by decide, all_of_one (a := ctx sInt) rfl ⟨true, rfl, fun _ => rfl⟩, rfl⟩, all_of_one (a := ctx sInt) rfl ⟨rfl, rfl, _, rfl⟩⟩

/-- RCP of zero on its way to register 7, which raises DZ. -/
def sSfu (ten : BitVec 6) : State :=
  { solo { Thread.reset with pending := [(7, 3)] } handled with
    sfu := [⟨x0, 0, tagF32, 0, some 7, 3, false, ten, 5000⟩] }

theorem wit_SpecialFunctionResults_end : ∀ ten ∈ ([0, flagDZ] : List Flags), let op : SfuOp := ⟨x0, 0, tagF32, 0, some 7, 3, false, ten, 5000⟩
    (sSfu ten).sfu = [op] ∧ (sSfu ten).pick = 0 ∧ op.due ≤ (sSfu ten).time ∧ isIeeeTag op.tag = true ∧ isPairTag op.tag = false ∧
    op.dest = some 7 ∧ (7, op.mark) ∈ ((sSfu ten).thread op.thread).pending ∧ (lookup? op.thread (sSfu ten).threads).isSome = true ∧
    sfuValue op.fn op.tag op.fz op.arg = (⟨0x7F800000, tagF32⟩, flagDZ) := by
  intro ten h
  simp only [List.mem_cons, List.not_mem_nil, or_false] at h
  rcases h with rfl | rfl <;> exact ⟨rfl, rfl, Nat.le_refl _, rfl, rfl, rfl, List.mem_singleton.mpr rfl, rfl, rfl⟩

theorem wit_SpecialFunctionResults_flags : (0 : Flags) &&& flagDZ = 0 ∧ flagDZ &&& flagDZ ≠ 0 ∧ (sSfu flagDZ).canTrap x0 :=
  ⟨by decide, by decide, by decide, rfl, rfl⟩

/-! ### Control -/

theorem wit_BranchResults : (let i := Instr.bra 12 0x3FFFFF
    Ready i sInt) ∧
    (let i := Instr.jr 12 0 6
    Ready i sInt ∧ (∀ c ∈ activeLanes i sInt, c.pairOf (fld 6) 0 2 = .ok 0x2000) ∧
      ∀ c ∈ activeLanes i sInt, (0x2000#64).extractLsb' 0 2 = 0) :=
  ⟨⟨rfl, by decide, all_of_one (a := ctx sInt) rfl ⟨true, rfl, fun _ => rfl⟩, rfl⟩,
   ⟨rfl, by decide, all_of_one (a := ctx sInt) rfl ⟨true, rfl, fun _ => rfl⟩, rfl⟩, all_of_one (a := ctx sInt) rfl rfl, fun _ _ => by decide⟩

/-- LR and the pair at 0 hold an address that is no multiple of 4. -/
def sJump : State := solo { holding [⟨0x2002, tagN64⟩, ⟨0, tagN64⟩] with lr := 0x2002 } handled

theorem wit_BranchResults_misaligned : Solo (.jalr 12 0 0) sJump fetchKey (ctx sJump) ∧ (ctx sJump).pairOf (fld 0) 0 2 = .ok 0x2002 ∧
    Solo (.ret 12 0) sJump fetchKey (ctx sJump) ∧ (ctx sJump).th.lr = 0x2002 ∧ (0x2002#64).extractLsb' 0 2 ≠ 0 ∧ sJump.canTrap x0 :=
  ⟨⟨rfl, rfl, by decide, rfl, rfl, rfl⟩, rfl, ⟨rfl, rfl, by decide, rfl, rfl, rfl⟩, rfl, by decide, by decide, rfl, rfl⟩

theorem wit_WindowAndMeetResults : let i := Instr.wnd 12 0 120 31
    Ready i sInt ∧ ∀ c ∈ activeLanes i sInt, c.intWord (fld 120) 0 = .ok 0 ∧ ∃ wb, c.wb = .ok wb ∧
      ((248 : Nat) : Int) = wb + 8 * ((31 : BitVec 7).toInt + 0) ∧ 248 ≤ 248 :=
  ⟨⟨rfl, by decide, all_of_one (a := ctx sInt) rfl ⟨true, rfl, fun _ => rfl⟩, rfl⟩, all_of_one (a := ctx sInt) rfl ⟨rfl, 0, rfl, rfl, Nat.le_refl _⟩⟩

/-- RDY of a thread all of whose lane group has exited. -/
theorem wit_WindowAndMeetResults_pass : let c := ctx sInt
    Solo (.rdyW 12 0) sInt fetchKey c ∧ (sInt.thread c.tid).counted = none ∧ (sInt.thread c.tid).st = .grouped ∧
    ∀ l, l < 32 → l / 32 = c.lane / 32 → l ≠ c.lane → ((sInt.thread ⟨c.tid.warp, l⟩).st = .exited ∨
      ((sInt.thread ⟨c.tid.warp, l⟩).meet1 - 1).toNat < 0x8000) ∧ (sInt.thread ⟨c.tid.warp, l⟩).wait = none :=
  ⟨⟨rfl, rfl, by decide, rfl, rfl, rfl⟩, rfl, rfl, by decide⟩

/-- Lane 1 of the lane group has not exited and not met. -/
def sMeet : State := sInt.setThread ⟨fetchWarp, 1⟩ Thread.reset

theorem wit_WindowAndMeetResults_block : let c := ctx sMeet
    Solo (.rdy 12 0) sMeet fetchKey c ∧ (sMeet.thread c.tid).counted = none ∧ (sMeet.thread c.tid).st = .grouped ∧
    ∃ l, l < 32 ∧ l / 2 ^ (((sMeet.warp c.tid.warp).lgw.extractLsb' 0 3).toNat + 1) =
        c.lane / 2 ^ (((sMeet.warp c.tid.warp).lgw.extractLsb' 0 3).toNat + 1) ∧ l ≠ c.lane ∧
      ¬ ((sMeet.thread ⟨c.tid.warp, l⟩).st = .exited ∨ ((sMeet.thread ⟨c.tid.warp, l⟩).meet0 - ((sMeet.thread c.tid).meet0 + 1)).toNat < 0x8000) :=
  ⟨⟨rfl, rfl, by decide, rfl, rfl, rfl⟩, rfl, rfl, 1, by decide⟩

/-- A control-store slot of the bundle's grid that holds ADD of the fields 124, 125 and 126. -/
def sMicro : State :=
  { sInt with cores := [(⟨0, 0⟩, { sInt.core ⟨0, 0⟩ with micro := [(31, ⟨1, 0x5000, [0x071F3EFE]⟩)] })] }

theorem wit_MicroprogramResults : sMicro.cur = some fetchKey ∧ sMicro.group? fetchKey = some (soloGroup [0]) ∧ (soloGroup [0]).hazards = [] ∧
    lookup? 31 (sMicro.core ⟨0, 0⟩).micro = some ⟨1, 0x5000, [0x071F3EFE]⟩ ∧
    decodeWords [0x071F3EFE] = .ok (.add none 12 0 124 125 126, 1) ∧ (laneCtxs sMicro).head?.any (fun c => 1 == c.bundle.grid) = true ∧
    (∀ c ∈ laneCtxs sMicro, c.sources [fld 1, fld 3] = .ok [oneReg 0x7FFFFFFF tagS32, oneReg 1 tagS32] ∧ ∃ n, c.dest (fld 0) false = .ok n) ∧
    wellFormed (.add none 12 0 0 1 3) = true :=
  ⟨rfl, rfl, rfl, rfl, rfl, rfl, all_of_one (a := ctx sMicro) rfl ⟨rfl, _, rfl⟩, by decide⟩

theorem wit_MicroprogramResults_empty : sInt.cur = some fetchKey ∧ sInt.group? fetchKey = some (soloGroup [0]) ∧
    laneCtxs sInt = [ctx sInt] ∧ lookup? 0 (sInt.core ⟨0, 0⟩).micro = none ∧ sInt.canTrap x0 :=
  ⟨rfl, rfl, rfl, rfl, by decide, rfl, rfl⟩

/-! ### Traps -/

theorem wit_TrapResults : sInt.canTrap x0 ∧ Solo (.trap 12 0x3FFFFF) sInt fetchKey (ctx sInt) ∧ sInt.cur = some fetchKey ∧
    laneCtxs sInt = [ctx sInt] :=
  ⟨⟨by decide, rfl, rfl⟩, ⟨rfl, rfl, by decide, rfl, rfl, rfl⟩, rfl, rfl⟩

/-! ### Memory -/

/-- Register pairs 0, 2 and 4 point into the scratchpad, to the last 8 bytes of the weight store, and to a writable page that the TLB
holds; registers 8 and 12 on hold data. -/
def sMem : State :=
  let s := solo (holding [⟨0, tagN64⟩, ⟨0x01000000, tagN64⟩, ⟨0x1FFFFFF8, tagN64⟩, ⟨0x01200000, tagN64⟩, ⟨0x10000, tagN64⟩, ⟨0, tagN64⟩,
    ⟨0, 0⟩, ⟨0, 0⟩, ⟨0xFFFFFFFF, tagN32⟩, ⟨3, tagN32⟩, ⟨0, 0⟩, ⟨0, 0⟩, ⟨1, tagB32⟩, ⟨2, tagB32⟩, ⟨3, tagB32⟩, ⟨4, tagB32⟩]) handled
  { s with
    dies := [(0, { Die.reset with roots := [(0, rootOn)] })]
    cores := [(⟨0, 0⟩, { s.core ⟨0, 0⟩ with
      tlb := [⟨0, 0x10000, 0x1000, 0x20007⟩]
      bundles := [(0, { Bundle.reset with regs := 32, scrSegs := 1, grid := 1, ready := true, begun := true })] })] }

/-- sMem, whose cache holds the page's last line. -/
def sLine : State :=
  { sMem with cores := [(⟨0, 0⟩, { sMem.core ⟨0, 0⟩ with l1 := [⟨0x41F, 0, 0, 0, 0, 0, 0, false, 0, []⟩] })] }

/-- The last 16 bytes of the scratchpad. -/
theorem wit_LoadResults : let i := Instr.ld (some 0x1FF0) 12 1 108 0 2 0 0
    Solo i sMem fetchKey (ctx sMem) ∧ (ctx sMem).address 0 (memOff 0x1FF0) = .ok 0x0100000000001FF0 ∧
    (ctx sMem).destGroup (fld 108) (sizeRegs 6) = .ok () ∧ sMem.acquiring x0 = false ∧
    sMem.locate fetchWarp 0x0100000000001FF0 16 0 1 = .here (.scr ⟨0, 0⟩ 0 0x1FF0) :=
  ⟨⟨rfl, rfl, by decide, rfl, rfl, rfl⟩, rfl, rfl, rfl, by decide⟩

theorem wit_LoadResults_weights : let i := Instr.ld none 12 1 110 2 1 0 0
    Solo i sMem fetchKey (ctx sMem) ∧ (ctx sMem).address 2 (memOff 0) = .ok 0x012000001FFFFFF8 ∧
    (ctx sMem).destGroup (fld 110) (sizeRegs 5) = .ok () ∧ sMem.acquiring x0 = false ∧
    sMem.locate fetchWarp 0x012000001FFFFFF8 8 0 1 = .here (.weights 0x1FFFFFF8) ∧ sMem.refreshing (weightBank 0x1FFFFFF8) = false :=
  ⟨⟨rfl, rfl, by decide, rfl, rfl, rfl⟩, rfl, rfl, rfl, by decide, by decide⟩

theorem wit_LoadResults_memory : let i := Instr.ld (some 0xFFF) 12 0 111 4 0 0 0
    Solo i sMem fetchKey (ctx sMem) ∧ (ctx sMem).address 4 (memOff 0xFFF) = .ok 0x10FFF ∧
    (ctx sMem).destGroup (fld 111) (sizeRegs 0) = .ok () ∧ sMem.acquiring x0 = false ∧
    sMem.locate fetchWarp 0x10FFF 1 0 1 = .here (.mem 0x20FFF 0x20007) ∧ 0x20FFF / 2 ^ 44 = sMem.nmod ∧
    (sMem.core ⟨0, 0⟩).l1Find (0x20FFF % 2 ^ 44 / 128) = none :=
  ⟨⟨rfl, rfl, by decide, rfl, rfl, rfl⟩, rfl, rfl, rfl, by decide, rfl, rfl⟩

theorem wit_StoreResults : let i := Instr.st (some 0x1FFF) 12 0 8 0 0 0 0
    Solo i sMem fetchKey (ctx sMem) ∧ (ctx sMem).address 0 (memOff 0x1FFF) = .ok 0x0100000000001FFF ∧
    (ctx sMem).storeData (fld 8) 0 = .ok 0xFFFFFFFF ∧ sMem.acquiring x0 = false ∧
    sMem.locate fetchWarp 0x0100000000001FFF 1 1 1 = .here (.scr ⟨0, 0⟩ 0 0x1FFF) ∧
    ∀ r ∈ stReleases false 0 0 [⟨ctx sMem, 0x0100000000001FFF, 1, 1, 1⟩] sMem, r.2 < 6 ∧ sMem.released fetchKey r.1 r.2 = true :=
  ⟨⟨rfl, rfl, by decide, rfl, rfl, rfl⟩, rfl, rfl, rfl, by decide, fun _ h => nomatch h⟩

theorem wit_StoreResults_cached : let i := Instr.st (some 0xFFC) 12 1 8 4 0 0 0
    Solo i sLine fetchKey (ctx sLine) ∧ (ctx sLine).address 4 (memOff 0xFFC) = .ok 0x10FFC ∧
    (ctx sLine).storeData (fld 8) 4 = .ok 0xFFFFFFFF ∧ sLine.acquiring x0 = false ∧
    sLine.locate fetchWarp 0x10FFC 4 1 1 = .here (.mem 0x20FFC 0x20007) ∧
    (∀ r ∈ stReleases false 0 0 [⟨ctx sLine, 0x10FFC, 4, 1, 1⟩] sLine, r.2 < 6 ∧ sLine.released fetchKey r.1 r.2 = true) ∧
    0x20FFC / 2 ^ 44 = sLine.nmod ∧ (sLine.cluster 0 0).monitors = [] ∧ 0x20FFC % 4 = 0 ∧
    (sLine.core ⟨0, 0⟩).l1Find (0x20FFC % 2 ^ 44 / 128) = some ⟨0x41F, 0, 0, 0, 0, 0, 0, false, 0, []⟩ :=
  ⟨⟨rfl, rfl, by decide, rfl, rfl, rfl⟩, rfl, rfl, rfl, by decide, (fun _ h => nomatch h), rfl, rfl, by decide, rfl⟩

/-- A release at CLU scope, the narrowest that is written through, and a flag. -/
theorem wit_StoreResults_through : (let i := Instr.st none 12 1 8 4 0 2 3
    Solo i sMem fetchKey (ctx sMem) ∧ (ctx sMem).address 4 (memOff 0) = .ok 0x10000 ∧
    sMem.locate fetchWarp 0x10000 4 1 1 = .here (.mem 0x20000 0x20007) ∧
    (∀ r ∈ stReleases false 2 3 [⟨ctx sMem, 0x10000, 4, 1, 1⟩] sMem, r.2 < 6 ∧ sMem.released fetchKey r.1 r.2 = true)) ∧
    (let i := Instr.st (some 0x1000000) 12 1 8 4 0 0 0
    Solo i sMem fetchKey (ctx sMem) ∧ (ctx sMem).address 4 (memOff 0x1000000) = .ok 0x10000 ∧ memForm 0x1000000 = 1 ∧
    (∀ r ∈ stReleases true 0 0 [⟨ctx sMem, 0x10000, 4, 1, 1⟩] sMem, r.2 < 6 ∧ sMem.released fetchKey r.1 r.2 = true)) ∧
    (sMem.core ⟨0, 0⟩).l1Find (0x20000 % 2 ^ 44 / 64 / 2) = none :=
  ⟨⟨⟨rfl, rfl, by decide, rfl, rfl, rfl⟩, rfl, by decide, by decide⟩, ⟨⟨rfl, rfl, by decide, rfl, rfl, rfl⟩, rfl, by decide, by decide⟩, rfl⟩

/-- ATOM with the sum, and CAS, on the last word of the scratchpad. -/
theorem wit_AtomicAndFenceResults : (let i := Instr.atom 0x40 12 0 111 0 8
    Solo i sMem fetchKey (ctx sMem) ∧ (ctx sMem).atomArgs 0x40 false 111 0 8 = .ok (0x0100000000000000, ⟨0, 0, 4, 0xFFFFFFFF, 0, [tagN32]⟩) ∧
    (0xFFFFFFFF : Nat) < 2 ^ 32 ∧ sMem.locate fetchWarp 0x0100000000000000 4 3 2 = .here (.scr ⟨0, 0⟩ 0 0)) ∧
    (let i := Instr.cas 0x40 12 0 111 0 8
    Solo i sMem fetchKey (ctx sMem) ∧ (ctx sMem).atomArgs 0x40 true 111 0 8 = .ok (0x0100000000000000, ⟨8, 0, 4, 3, 0xFFFFFFFF, [tagN32]⟩)) ∧
    atomOrd 0x40 = 0 ∧ sMem.acquiring x0 = false :=
  ⟨⟨⟨rfl, rfl, by decide, rfl, rfl, rfl⟩, rfl, by decide, by decide⟩, ⟨⟨rfl, rfl, by decide, rfl, rfl, rfl⟩, rfl⟩, rfl, rfl⟩

/-- ATOM of 16 bytes on the page. -/
theorem wit_AtomicAndFenceResults_memory : let p : BitVec 26 := 0x1000046
    let op : AtomOp := ⟨6, 0, 16, 0x00000004000000030000000200000001, 0, [tagB32, tagB32, tagB32, tagB32]⟩
    Solo (.atom p 12 0 108 4 12) sMem fetchKey (ctx sMem) ∧ (ctx sMem).atomArgs p false 108 4 12 = .ok (0x10000, op) ∧ atomOrd p = 0 ∧
    sMem.acquiring x0 = false ∧ sMem.locate fetchWarp 0x10000 16 3 2 = .here (.mem 0x20000 0x20007) ∧ 0x20000 / 2 ^ 44 = sMem.nmod ∧
    (sMem.core ⟨0, 0⟩).l1Find (0x20000 % 2 ^ 44 / 64 / 2) = none :=
  ⟨⟨rfl, rfl, by decide, rfl, rfl, rfl⟩, rfl, rfl, rfl, by decide, rfl, rfl⟩

/-- A read of lane 0 is under way. -/
def sRead : State := { sMem with returns := [⟨x0, 3, [(7, ⟨9, tagN32⟩)], none⟩], threads := [(x0, { sMem.thread x0 with pending := [(7, 3)] })] }

theorem wit_AtomicAndFenceResults_fence : Solo (.fence 12 0 3 5) sMem fetchKey (ctx sMem) ∧ sMem.readsBack x0 = true ∧
    sMem.released fetchKey x0 5 = true ∧ Solo (.fence 12 0 1 1) sRead fetchKey (ctx sRead) ∧ sRead.readsBack x0 = false :=
  ⟨⟨rfl, rfl, by decide, rfl, rfl, rfl⟩, rfl, rfl, ⟨rfl, rfl, by decide, rfl, rfl, rfl⟩, rfl⟩

theorem wit_ArrivalResults : nth? sRead.returns sRead.pick = some ⟨x0, 3, [(7, ⟨9, tagN32⟩)], none⟩ ∧
    (lookup? x0 sRead.threads).isSome = true ∧ (7, 3) ∈ (sRead.thread x0).pending ∧ sRead.refreshing 0 = false :=
  ⟨rfl, rfl, by decide, rfl⟩

/-- A read has failed of a thread at a run boundary. -/
def sFailed : State :=
  { sRead with returns := [⟨x0, 3, [], some (Trap.sync 3 1 0x10000)⟩], threads := [(x0, { sRead.thread x0 with st := .ready })] }

theorem wit_ArrivalResults_failed : nth? sFailed.returns sFailed.pick = some ⟨x0, 3, [], some (Trap.sync 3 1 0x10000)⟩ ∧
    (lookup? x0 sFailed.threads).isSome = true ∧ (sFailed.thread x0).st = .ready ∧ sFailed.canTrap x0 :=
  ⟨rfl, rfl, rfl, by decide, rfl, rfl⟩

/-! ### The matrix units -/

/-- The scratchpad holds an operand record at 0 and 32, of one F32 element at 64, and a tile record at 96, of one F32 element at 64; registers
6, 7 and 8 hold the offsets of the records, 9 the selector of column 63 of tile 5, and 10 that of tile 0; tile 0 is mapped. -/
def sTile : State :=
  let s := solo (holding ((List.replicate 6 ⟨0, 0⟩) ++ [⟨0, tagN32⟩, ⟨32, tagN32⟩, ⟨96, tagN32⟩, ⟨0x53F, tagN32⟩, ⟨0x03F, tagN32⟩]))
    { handled with tiles := [(0, ⟨tagF32, [], [8], none, true⟩)] }
  { s with cores := [(⟨0, 0⟩, { s.core ⟨0, 0⟩ with
      segs := List.replicate 8 ⟨.reg, false, none, 0⟩ ++ List.replicate 2 ⟨.mxs, false, some 0, 0⟩
      bundles := [(0, { Bundle.reset with
        regs := 32, scrSegs := 1, grid := 1, ready := true, begun := true
        scr := [(0, 0x40), (7, 1), (22, 1), (23, 7), (24, 1), (32, 0x40), (39, 1), (54, 1), (55, 7), (56, 1), (66, 0x80), (67, 0x3F),
          (96, 0x40), (103, 1), (108, 7), (109, 1), (110, 1)] })] })] }

/-- The operand record, and the tile record. -/
def opRec : List Byte := bytesOfNat 8 0x0100000000000040 ++ List.replicate 14 0 ++ [1, 7, 1] ++ List.replicate 7 0
/-- See `opRec`. -/
def tileRec : List Byte := bytesOfNat 8 0x0100000000000040 ++ List.replicate 4 0 ++ [7, 1, 1] ++ List.replicate 17 0

theorem sTile_whole {i : Instr} (hw : wellFormed i = true) (hg : (guardOf i).getD 12 = 12) : WholeWarp i sTile fetchKey (ctx sTile) :=
  ⟨rfl, hw, rfl, all_of_one (a := ctx sTile) rfl ⟨by rw [hg]; rfl, namesAgain_none rfl⟩, by decide, all_of_one (a := ctx sTile) rfl rfl,
   by decide, by decide⟩

theorem wit_TileOperations : (∀ j ∈ sTile.matrix, j.warp ≠ fetchWarp) ∧ sTile.tileMoving fetchWarp 5 = false ∧
    (WholeWarp (.mtxZero 12 5 1) sTile fetchKey (ctx sTile) ∧ tagS32 = BitVec.ofNat 4 (fld 1) ∧ sTile.tileCheck fetchWarp 5 tagS32 = .ok ()) ∧
    WholeWarp (.mtxRel 12 5) sTile fetchKey (ctx sTile) ∧
    (WholeWarp (.mtxLd 12 0 5 8) sTile fetchKey (ctx sTile) ∧ (∀ c ∈ laneCtxs sTile, ∃ v, c.word (fld 8) 0 = .ok v) ∧
      (ctx sTile).word (fld 8) 0 = .ok 96 ∧ sTile.transferCheck fetchWarp 5 false 96 = .ok (tileRec, tagF32)) ∧
    (WholeWarp (.mtxSt 12 0 0 8) sTile fetchKey (ctx sTile) ∧ sTile.transferCheck fetchWarp 0 true 96 = .ok (tileRec, tagF32)) :=
  ⟨(fun _ h => nomatch h), rfl, ⟨sTile_whole (by decide) rfl, rfl, rfl⟩, sTile_whole (by decide) rfl,
   ⟨sTile_whole (by decide) rfl, all_of_one (a := ctx sTile) rfl ⟨_, rfl⟩, rfl, rfl⟩, sTile_whole (by decide) rfl, rfl⟩

/-- Column 63 of tile 5, unmapped, and of tile 0. -/
theorem wit_TileOperations_read : ∀ p ∈ ([(9, 0x53F, 5), (10, 0x03F, 0)] : List (BitVec 7 × BitVec 32 × Nat)),
    let tile := ((sTile.warp fetchWarp).tile? p.2.2).filter (fun x => x.live)
    Solo (.mtxRd 12 0 111 p.1) sTile fetchKey (ctx sTile) ∧ (∀ j ∈ sTile.matrix, j.warp ≠ fetchWarp) ∧
    sTile.tileMoving fetchWarp p.2.2 = false ∧ sTile.mtxFull fetchWarp = false ∧ sTile.released fetchKey x0 3 = true ∧
    (ctx sTile).word (fld p.1) 0 = .ok p.2.1 ∧ p.2.2 < 6 ∧ p.2.1.toNat / 256 = p.2.2 ∧ p.2.1.extractLsb' 6 2 = 0 ∧
    (sTile.warp fetchWarp).tileTag p.2.2 ≠ tagF64 ∧ (ctx sTile).dest (fld 111) false = .ok 111 ∧ ∀ x, tile = some x → x.tag ≠ tagF64 := by
  intro p h
  simp only [List.mem_cons, List.not_mem_nil, or_false] at h
  rcases h with rfl | rfl <;> refine ⟨⟨rfl, rfl, by decide, rfl, rfl, rfl⟩, (fun _ h => nomatch h), rfl, rfl, rfl, rfl, by decide, rfl, by decide, by decide, rfl, ?_⟩
  · intro x h
    exact nomatch h
  · intro x h
    cases h
    decide

theorem wit_MatrixResults : let i := Instr.mma 0 12 0 5 6 7
    WholeWarp i sTile fetchKey (ctx sTile) ∧ (ctx sTile).warp.partnered = false ∧ (∀ j ∈ sTile.matrix, j.warp ≠ fetchWarp) ∧
    sTile.tileMoving fetchWarp 5 = false ∧ sTile.mmaArgs 5 6 7 (laneCtxs sTile) = .ok ⟨0, 32, opRec, opRec, tagF32⟩ ∧
    sTile.stampOf fetchWarp (fld 5) ≠ some (sTile.nextStamp fetchWarp) ∧ mcLines opRec = [] :=
  ⟨sTile_whole (by decide) rfl, rfl, (fun _ h => nomatch h), rfl, rfl, by decide, rfl⟩

/-- sTile after an MMA of its region has committed to tile 0, with MMA_COUNT as it was before. -/
def sStamped : State := sTile.setWarp fetchWarp { handled with tiles := [(0, ⟨tagF32, [], [8], some (0, 0), true⟩)] }

theorem wit_MatrixResults_again : let i := Instr.mma 0 12 0 0 6 7
    WholeWarp i sStamped fetchKey (ctx sStamped) ∧ (ctx sStamped).warp.partnered = false ∧ sStamped.matrix = [] ∧
    sStamped.tileMoving fetchWarp 0 = false ∧ sStamped.mmaArgs 0 6 7 (laneCtxs sStamped) = .ok ⟨0, 32, opRec, opRec, tagF32⟩ ∧
    sStamped.stampOf fetchWarp (fld 0) = some (sStamped.nextStamp fetchWarp) :=
  ⟨⟨rfl, by decide, rfl, all_of_one (a := ctx sStamped) rfl ⟨rfl, rfl⟩, by decide, all_of_one (a := ctx sStamped) rfl rfl, by decide, by decide⟩,
   rfl, rfl, rfl, rfl, by decide⟩

/-- One operation of tile 0 is queued. -/
def oneJob (fn : Nat) : MatrixJob :=
  { id := 1, warp := fetchWarp, fn := fn, tile := 0, recA := if fn = 5 then opRec else tileRec, recB := opRec, rm := 0, za := false, tag := tagF32
    stamp := (0, 0), fresh := false, firing := none, reads := [], got := [], waits := [], issued := 0
    ten := 0, passed := false }
/-- See `oneJob`. -/
def sJob (fn : Nat) : State := { sTile with matrix := [oneJob fn] }

theorem wit_MatrixResults_commit : (sJob 5).matrix = [oneJob 5] ∧ (sJob 5).pick = 0 ∧
    ∃ es fl, (sJob 5).mmaResult (oneJob 5) = .ok (es, fl) ∧ (oneJob 5).ten &&& fl = 0 :=
  ⟨rfl, rfl, _, _, rfl, BitVec.zero_and⟩

theorem wit_MatrixResults_transfer : (∃ tile rows, ((sJob 1).warp fetchWarp).tile? 0 = some tile ∧
      (sJob 1).mtxLines fetchWarp [] (trBase tileRec) (trRowBytes tileRec)
        ((List.range (trRows tileRec)).map (fun i => i * trStride tileRec)) = .ok rows) ∧
    (let es := stElems ((((sJob 2).warp fetchWarp).tile? 0).filter (fun x => x.live)) tileRec
    (oneJob 2).ten &&& orFlags (es.map (fun e => e.2.2.2)) = 0 ∧
    ∃ u, stWrites fetchWarp (fun leaf => if (trCtl tileRec).testBit 2 then BitVec.ofNat 2 (trCtl tileRec) else pteRcl leaf) es (sJob 2) = (u, none) ∧
      u.matrix = (sJob 2).matrix ∧ u.warps = (sJob 2).warps) :=
  ⟨⟨_, _, rfl, rfl⟩, BitVec.zero_and, _, rfl, rfl, rfl⟩
/-! ### Gangs -/

/-- A warp under PMASK `m` whose one live thread stands at an MMA with its gang partners; partition 1 holds warp 1, which has not arrived. -/
def sGang (m : BitVec 32) : State :=
  let v : Warp := { handled with gang := m, tiles := [(0, ⟨tagF32, [], [8], none, true⟩)] }
  let s := sTile.setThread x0 { sTile.thread x0 with st := .blocked, wait := some (.gang 0xB3000307F8000000 false) }
  { s with groups := [], cur := none, warps := [(fetchWarp, v), (⟨0, 0, 1, 0⟩, { v with wp := 1 })] }

/-- What a warp under PMASK `m` that stands at a gang MMA brings to its latch. -/
theorem gang_stands (m : BitVec 32) (h : m = 1 ∨ m = 3) : let s := sGang m
    let gr := gangGroup fetchWarp [0] 0x1000 0xB3000307F8000000
    (∀ x ∈ s.latchOf fetchWarp, ¬ (x.part = 0 ∧ x.slot = 0)) ∧
    s.gangStand fetchWarp = some (0xB3000307F8000000, false, 0x1000, [x0]) ∧ decodeWords gr.words = .ok (.mma 0 12 0 0 6 7, 2) ∧
    s.gangArrival fetchWarp 0 6 7 (.mma 0 12 0 0 6 7) false ((membersOf fetchKey gr).map (laneCtx s fetchKey gr)) =
      .ok ⟨0, 0, m, 0, 32, true⟩ ∧ s.gangMissing fetchWarp = false := by
  rcases h with rfl | rfl <;> exact ⟨(fun _ h => nomatch h), rfl, rfl, rfl, by decide⟩

/-- Alone in its gang the warp fires it; where PMASK names partition 1 too, it waits. -/
theorem wit_GangAndMulticast :
    (∀ q x, (q, x) ∈ (sGang 1).pmaskWarps fetchWarp → [(⟨0, 0, 1, 0, 32, true⟩ : GangArrival)].any (fun y => decide (y.part = q)) = true) ∧
    (∃ q x, (q, x) ∈ (sGang 3).pmaskWarps fetchWarp ∧ [(⟨0, 0, 3, 0, 32, true⟩ : GangArrival)].all (fun y => decide (y.part ≠ q)) = true) :=
  ⟨fun q x h => by
    rw [show (sGang 1).pmaskWarps fetchWarp = [(0, some fetchWarp)] from rfl, List.mem_singleton] at h
    cases h
    decide, 1, some ⟨0, 0, 1, 0⟩, by decide, by decide⟩

/-- A line of the scratchpad that job 1 asked for 64 cycles ago. -/
def sFetch : State :=
  { sTile with
    matrix := [{ oneJob 5 with waits := [0x0100000000000000 / 128] }]
    clusters := [((0, 0), { Cluster.reset with fetches := [(0x0100000000000000 / 128, 4936, [1])] })] }

theorem wit_GangAndMulticast_line : nth? (sFetch.cluster 0 0).fetches 0 = some (0x0100000000000000 / 128, 4936, [1]) ∧
    4936 + 64 ≤ sFetch.time ∧ sFetch.matrix.find? (fun j => [1].contains j.id) = some { oneJob 5 with waits := [0x0100000000000000 / 128] } ∧
    ∃ bs, sFetch.mtxStretches fetchWarp [] (BitVec.ofNat 64 (0x0100000000000000 / 128 % 2 ^ 57 * 128)) [(0, 64), (64, 64)] = .ok bs :=
  ⟨rfl, by decide, rfl, _, rfl⟩

/-! ### The engines -/

/-- The scratchpad holds a copy descriptor at 0, of one 4-byte element from 0x400 to 0x800, and a gather descriptor at 128, of one row of 4
bytes from 0x400 to 0x800; registers 6 and 7 hold their offsets. -/
def sEng : State :=
  let s := solo (holding ((List.replicate 6 ⟨0, 0⟩) ++ [⟨0, tagN32⟩, ⟨128, tagN32⟩])) handled
  { s with cores := [(⟨0, 0⟩, { s.core ⟨0, 0⟩ with
      bundles := [(0, { Bundle.reset with
        regs := 32, scrSegs := 1, grid := 1, ready := true, begun := true
        scr := [(1, 4), (7, 1), (9, 8), (15, 1), (16, 1), (17, 2), (24, 1), (129, 4), (135, 1), (137, 6), (145, 8), (152, 1), (156, 4),
          (160, 4), (0x400, 0x5A)] })] })] }

theorem sEng_once {i : Instr} (hw : wellFormed i = true) (hg : (guardOf i).getD 12 = 12) (h : activeLanes i sEng = [ctx sEng]) :
    Once i sEng fetchKey (ctx sEng) :=
  ⟨rfl, hw, all_of_one (a := ctx sEng) rfl ⟨true, by rw [hg]; rfl, fun _ => namesAgain_none rfl⟩, by rw [h]; rfl⟩

theorem wit_EngineResults : (let i := Instr.cpy 0 12 0 0 6 120
    Once i sEng fetchKey (ctx sEng) ∧ (∀ c ∈ activeLanes i sEng, sEng.released fetchKey c.tid 3 = true ∧ ∃ v, engineOperands 0 6 120 c = .ok v) ∧
    (∃ j, sEng.engineIssue false 0 6 120 (activeLanes i sEng) (ctx sEng) = .ok j) ∧ sEng.engineFull false fetchWarp = false) ∧
    (let i := Instr.gth 0 12 0 0 7 120
    Once i sEng fetchKey (ctx sEng) ∧ (∀ c ∈ activeLanes i sEng, sEng.released fetchKey c.tid 3 = true ∧ ∃ v, engineOperands 0 7 120 c = .ok v) ∧
    (∃ j, sEng.engineIssue true 0 7 120 (activeLanes i sEng) (ctx sEng) = .ok j) ∧ sEng.engineFull true fetchWarp = false) :=
  ⟨⟨sEng_once (by decide) rfl rfl, all_of_one (a := ctx sEng) rfl ⟨rfl, _, rfl⟩, ⟨_, rfl⟩, rfl⟩,
   ⟨sEng_once (by decide) rfl rfl, all_of_one (a := ctx sEng) rfl ⟨rfl, _, rfl⟩, ⟨_, rfl⟩, rfl⟩⟩

/-- The copy of sEng, or its gather, with given parts moved. -/
def engJob (gather : Bool) (sent : List Nat) : EngineJob :=
  { id := 1, gather := gather, warp := fetchWarp, desc := sEng.scrBytesAt ⟨0, 0⟩ 0 (if gather then 128 else 0) (if gather then 64 else 128)
    lanes := [(0, 0x1000, 1)], sent := sent, suspended := none, fills := [], committed := 0, pops := [], rowPops := [], got := [], asked := []
    done := [], before := [] }

theorem wit_EngineResults_copy : let j := engJob false []
    let s := { sEng with jobs := [j] }
    s.jobs = [j] ∧ s.pick = 0 ∧ j.num 16 1 = 1 ∧ j.num 24 4 = 1 ∧ j.num 17 1 = 2 ∧ j.num 18 1 = 0 ∧ j.num 0 8 % 64 ≤ 60 ∧
    j.num 8 8 % 64 ≤ 60 ∧ s.engAway j = false ∧ j.done = [] ∧ j.before = [] ∧
    s.locate j.warp (BitVec.ofNat 64 (j.num 0 8)) 4 0 0 = .here (.scr ⟨0, 0⟩ 0 0x400) ∧
    s.locate j.warp (BitVec.ofNat 64 (j.num 8 8)) 4 1 0 = .here (.scr ⟨0, 0⟩ 0 0x800) ∧
    s.locate j.warp (BitVec.ofNat 64 (j.num 8 8)) 1 1 0 = .here (.scr ⟨0, 0⟩ 0 0x800) :=
  ⟨rfl, rfl, rfl, rfl, rfl, rfl, by decide, by decide, rfl, rfl, rfl, by decide, by decide, by decide⟩

theorem wit_EngineResults_done : ∀ g ∈ [false, true], let j := engJob g (if g then [1] else [0])
    let s := { sEng with jobs := [j] }
    s.jobs = [j] ∧ s.pick = 0 ∧ (lookup? j.warp s.warps).isSome = true ∧ j.nextPart = none ∧
    (∀ n, n < j.fills.length → j.committed.testBit n = true) ∧ j.got = [] ∧ s.engAway j = false := by
  intro g h
  simp only [List.mem_cons, List.not_mem_nil, or_false] at h
  rcases h with rfl | rfl <;> exact ⟨rfl, rfl, rfl, rfl, by decide, rfl, rfl⟩

/-- A copy whose source lies beyond the scratchpad. -/
def farJob : EngineJob := { engJob false [] with desc := bytesOfNat 8 0x0100000000400000 ++ ((engJob false []).desc.drop 8) }

theorem wit_EngineResults_fault : let s := { sEng with jobs := [farJob] }
    nth? s.jobs 0 = some farJob ∧ s.job? farJob.id = some farJob ∧ s.working farJob = true ∧ farJob.mayMove 0 = true ∧
    (∃ tr, s.movePart farJob 0 = (s, some (.fault tr))) ∧ s.gridEnding farJob.lane0 = false :=
  ⟨rfl, rfl, rfl, rfl, ⟨_, rfl⟩, rfl⟩

/-- A copy of 64 elements of 4 bytes into tray 2, whose first slot of 128 bytes has landed. -/
def fillJob : EngineJob :=
  { engJob false (List.range 32) with
    desc := bytesOfNat 8 0x0100000000000400 ++ bytesOfNat 8 2 ++ [1, 2, 1] ++ List.replicate 5 0 ++ bytesOfNat 4 64 ++ List.replicate 100 0
    fills := [3] }

theorem wit_EngineResults_slot : let tr : Tray := ⟨0, 2, 0x1000, 128, 4, 0, 0, 0, 3, [.free, .free, .free, .filling]⟩
    let s := { sEng with jobs := [fillJob], cores := [(⟨0, 0⟩, { sEng.core ⟨0, 0⟩ with trays := [(5, tr)] })] }
    s.jobs = [fillJob] ∧ s.pick = 0 ∧ s.jobTray fillJob (if fillJob.gather then fillJob.num 16 1 else fillJob.num 8 1) = some (5, tr) ∧
    fillJob.fills.head? = some 3 ∧ fillJob.committed.testBit 0 = false ∧ fillJob.slotFull tr.size 0 = true ∧ fillJob.nextPart = some 32 :=
  ⟨rfl, rfl, rfl, rfl, rfl, by decide, by decide⟩
/-! ### Trays -/

/-- Tray 5, named 2: slot 0 is being read, 1 filled in, 2 filled, 3 free. -/
def tray2 : Tray := ⟨0, 2, 0x1000, 128, 4, 3, 2, 0, 1, [.reading, .filling, .filled, .free]⟩

/-- Tray 5 and barrier slots 3 (named 15, of one member) and 15 (named 0, broken) are bound; the pair at 0 holds 1, 2 a name, 3 and 4 the
tokens of slots 0 and 1 of the tray, 5 a chitless template's offset, the pair at 6 what configures tray 15 with the whole scratchpad. -/
def sSync : State :=
  let s := solo (holding [⟨1, tagN64⟩, ⟨0, tagN64⟩, ⟨2, tagN32⟩, ⟨0x81000, tagN32⟩, ⟨0x1081080, tagN32⟩, ⟨0, tagN32⟩, ⟨0x400F, tagN64⟩, ⟨0, tagN64⟩])
    handled
  { s with cores := [(⟨0, 0⟩, { s.core ⟨0, 0⟩ with
      bundles := [(0, { Bundle.reset with regs := 32, scrSegs := 1, grid := 1, ready := true, begun := true })]
      trays := [(5, tray2)]
      bars := [(3, { BarSlot.reset with name := 15, mask := 1 }), (15, { BarSlot.reset with mask := 1, brk := true, gen := 0xFFFF, last := [(0, 0xFFFE)] })] })] }

theorem sSync_once {i : Instr} (hw : wellFormed i = true) (hg : (guardOf i).getD 12 = 12) (h : activeLanes i sSync = [ctx sSync]) :
    Once i sSync fetchKey (ctx sSync) :=
  ⟨rfl, hw, all_of_one (a := ctx sSync) rfl ⟨true, by rw [hg]; rfl, fun _ => namesAgain_none rfl⟩, by rw [h]; rfl⟩

theorem wit_TrayResults_configure : let i := Instr.trayCfg 12 0 111 6
    Once i sSync fetchKey (ctx sSync) ∧ (∀ c ∈ activeLanes i sSync, ∃ x m, c.pairOf (fld 6) 0 4 = .ok x ∧ c.dest (fld 111) false = .ok m) ∧
    (ctx sSync).pairOf (fld 6) 0 4 = .ok 0x400F :=
  ⟨sSync_once (by decide) rfl rfl, all_of_one (a := ctx sSync) rfl ⟨_, _, rfl, rfl⟩, rfl⟩

theorem wit_TrayResults_results : ∀ i ∈ ([.trayRel 12 0 111 2, .trayRsv 12 0 111 2, .trayCnt 12 0 111 2] : List Instr),
    Once i sSync fetchKey (ctx sSync) ∧ (∀ c ∈ activeLanes i sSync, ∃ x m, c.word (fld 2) 0 = .ok x ∧ c.dest (fld 111) false = .ok m) ∧
    (ctx sSync).word (fld 2) 0 = .ok 2 ∧ sSync.trayOf ⟨0, 0⟩ 0 2 = some (5, tray2) := by
  intro i h
  simp only [List.mem_cons, List.not_mem_nil, or_false] at h
  rcases h with rfl | rfl | rfl <;>
    exact ⟨sSync_once (by decide) rfl rfl, all_of_one (a := ctx sSync) rfl ⟨_, _, rfl, rfl⟩, rfl, rfl⟩

theorem wit_TrayResults_tokens : ∀ p ∈ ([(.trayCommit 12 4, 4, 0x1081080, 1, .filling), (.trayDone 12 3, 3, 0x81000, 0, .reading)] :
      List (Instr × BitVec 7 × BitVec 32 × Nat × SlotState)),
    Once p.1 sSync fetchKey (ctx sSync) ∧ (∀ c ∈ activeLanes p.1 sSync, sSync.released fetchKey c.tid 3 = true) ∧
    (∀ c ∈ activeLanes p.1 sSync, ∃ x, c.word (fld p.2.1) 0 = .ok x) ∧ (ctx sSync).word (fld p.2.1) 0 = .ok p.2.2.1 ∧
    p.2.2.1.extractLsb' 22 2 = 0 ∧ (p.2.2.1.extractLsb' 24 8).toNat = p.2.2.2.1 ∧ p.2.2.2.1 < tray2.n ∧ tray2.slots.length = tray2.n ∧
    sSync.trayOf ⟨0, 0⟩ 0 (p.2.2.1.extractLsb' 18 4).toNat = some (5, tray2) ∧ tray2.token p.2.2.2.1 = p.2.2.1 ∧
    nth .free tray2.slots p.2.2.2.1 = p.2.2.2.2 ∧ tray2.f < tray2.n ∧ nth .free tray2.slots tray2.f ≠ .spent ∧
    nth .free tray2.slots ((tray2.f + 1) % tray2.n) ≠ .spent := by
  intro p h
  simp only [List.mem_cons, List.not_mem_nil, or_false] at h
  rcases h with rfl | rfl <;>
    exact ⟨sSync_once (by decide) rfl rfl, all_of_one (a := ctx sSync) rfl rfl, all_of_one (a := ctx sSync) rfl ⟨_, rfl⟩, rfl, by decide, by decide,
      by decide, rfl, rfl, by decide, by decide, by decide, by decide, by decide⟩

/-- sSync, with nothing filled in tray 5. -/
def sDry : State := { sSync with cores := [(⟨0, 0⟩, { sSync.core ⟨0, 0⟩ with trays := [(5, { tray2 with c := 3 })] })] }

theorem wit_TrayResults_pop : (Solo (.trayPop 12 0 111 2) sSync fetchKey (ctx sSync) ∧ (ctx sSync).dest (fld 111) false = .ok 111 ∧
      tray2.c < tray2.slots.length ∧ nth .free tray2.slots tray2.c = .filled) ∧
    (Solo (.trayPop 12 0 111 2) sDry fetchKey (ctx sDry) ∧ (ctx sDry).word (fld 2) 0 = .ok 2 ∧
      sDry.trayOf ⟨0, 0⟩ 0 2 = some (5, { tray2 with c := 3 }) ∧ nth .free tray2.slots 3 ≠ .filled) :=
  ⟨⟨⟨rfl, rfl, by decide, rfl, rfl, rfl⟩, rfl, by decide, by decide⟩, ⟨rfl, rfl, by decide, rfl, rfl, rfl⟩, rfl, rfl, by decide⟩

/-! ### Barriers, counters and invocations -/

theorem wit_BarrierArrivals : (Once (.barInit 12 14 0 1) sSync fetchKey (ctx sSync) ∧
      (∀ c ∈ activeLanes (.barInit 12 14 0 1) sSync, ∃ x, c.pairOf (fld 0) 0 4 = .ok x) ∧ (ctx sSync).pairOf (fld 0) 0 4 = .ok 1 ∧
      (1 : BitVec 64).toNat < 2 ^ (ctx sSync).bundle.wpb ∧ sSync.boundTo fetchWarp 1 (fld 14) = none ∧ sSync.freeBar fetchWarp 1 = some 0) ∧
    (Once (.barInit 12 15 0 1) sSync fetchKey (ctx sSync) ∧ Once (.barRel 12 15 1) sSync fetchKey (ctx sSync) ∧
      sSync.boundTo fetchWarp 1 (fld 15) = some 3 ∧ sSync.slot? fetchWarp 1 3 = some { BarSlot.reset with name := 15, mask := 1 }) :=
  ⟨⟨sSync_once (by decide) rfl rfl, all_of_one (a := ctx sSync) rfl ⟨_, rfl⟩, rfl, by decide, rfl, rfl⟩, sSync_once (by decide) rfl rfl,
   sSync_once (by decide) rfl rfl, rfl, rfl⟩

theorem wit_BarrierArrivals_arrive : let b : BarSlot := { BarSlot.reset with name := 15, mask := 1 }
    Solo (.barArv 12 15 1) sSync fetchKey (ctx sSync) ∧ Solo (.barArvb 12 0 15 2 1) sSync fetchKey (ctx sSync) ∧
    (ctx sSync).byteCount (fld 2) 0 = .ok 2 ∧ sSync.released fetchKey x0 2 = true ∧
    (∀ l, l < 32 → l ≠ 0 → (sSync.thread ⟨fetchWarp, l⟩).st = .exited) ∧ b.mask.getLsbD (sSync.warp fetchWarp).wp = true ∧
    b.pend + 2 < 2 ^ 36 ∧ b.last = [] ∧ b.part = [] ∧ (sSync.cluster 0 0).monitors = [] :=
  ⟨⟨rfl, rfl, by decide, rfl, rfl, rfl⟩, ⟨rfl, rfl, by decide, rfl, rfl, rfl⟩, rfl, rfl, by decide, by decide, by decide, rfl, rfl, rfl⟩

/-- Barrier slot 3 as a wait finds it, with the last arrival of warp 0 for a generation, at level l. -/
def sWaits (gen last : BitVec 16) : State :=
  { sSync with cores := [(⟨0, 0⟩, { sSync.core ⟨0, 0⟩ with
      bars := [(3, { BarSlot.reset with name := 15, mask := 1, gen := gen, last := [(0, last)] })] })] }

/-- A generation passed, across the wrap of GEN, and one that has not. -/
theorem wit_BarrierWaits : ∀ p ∈ ([(0, 0xFFFF), (0xFFFF, 0xFFFF)] : List (BitVec 16 × BitVec 16)), let s := sWaits p.1 p.2
    let b : BarSlot := { BarSlot.reset with name := 15, mask := 1, gen := p.1, last := [(0, p.2)] }
    Solo (.barWait 12 0 15 1) s fetchKey (ctx s) ∧ (ctx s).th.wait = none ∧ s.barFind fetchWarp 1 (fld 15) = .ok 3 ∧
    s.slot? fetchWarp 1 3 = some b ∧ b.part = [] ∧ b.brk = false ∧ b.failed = [] ∧
    lookupD (s.unitOf fetchWarp 1) b.gen b.last = p.2 ∧ (p.1 = 0 → (b.gen - (p.2 + 1)).toNat < 0x8000) ∧
    (p.1 ≠ 0 → ¬ (b.gen - (p.2 + 1)).toNat < 0x8000) := by
  intro p h
  simp only [List.mem_cons, List.not_mem_nil, or_false] at h
  rcases h with rfl | rfl <;> exact ⟨⟨rfl, rfl, by decide, rfl, rfl, rfl⟩, rfl, rfl, rfl, rfl, rfl, rfl, rfl, by decide, by decide⟩

theorem wit_BarrierWaits_broken : Solo (.barWait 12 0 0 1) sSync fetchKey (ctx sSync) ∧ (ctx sSync).th.wait = none ∧
    sSync.barFind fetchWarp 1 (fld 0) = .ok 15 ∧ (∃ b, sSync.slot? fetchWarp 1 15 = some b ∧ b.part = [] ∧ b.brk = true) ∧ sSync.canTrap x0 :=
  ⟨⟨rfl, rfl, by decide, rfl, rfl, rfl⟩, rfl, rfl, ⟨_, rfl, rfl, rfl⟩, by decide, rfl, rfl⟩

/-- A warp with 5 copies not retired. -/
def sCopies : State := solo Thread.reset { handled with cpy := 5 }

theorem wit_CounterWaits : Solo (.wait 12 0 5) sCopies fetchKey (ctx sCopies) ∧ (sCopies.warp fetchWarp).cpy = 5 ∧
    (sCopies.warp fetchWarp).faults = [] ∧ Solo (.wait 12 0 4) sCopies fetchKey (ctx sCopies) :=
  ⟨⟨rfl, rfl, by decide, rfl, rfl, rfl⟩, rfl, rfl, ⟨rfl, rfl, by decide, rfl, rfl, rfl⟩⟩

/-- With a chit, from a table with a free entry; without one. -/
theorem wit_InvokeResults : ∀ p ∈ ([0x2000, 0] : List (BitVec 26)),
    Solo (.invk p 12 0 110 5 120) sSync fetchKey (ctx sSync) ∧ sSync.invkArgs p 110 5 120 (ctx sSync) = .ok (0, 0) ∧ p.getLsbD 8 = false ∧
    (ctx sSync).warp.inv < 255 ∧ sSync.released fetchKey x0 5 = true ∧ sSync.freeChit 0 = some 0 ∧
    (sSync.dispatcher 0).hold.length < 32 ∧ (sSync.dispatcher 0).holdSpill = [] := by
  intro p h
  simp only [List.mem_cons, List.not_mem_nil, or_false] at h
  rcases h with rfl | rfl <;> exact ⟨⟨rfl, rfl, by decide, rfl, rfl, rfl⟩, rfl, by decide, by decide, rfl, rfl, by decide, rfl⟩

/-- Every entry of the die's chit table is in a reserve. -/
def sChitless : State := { sSync with chits := { sSync.chits with reserves := [((0, 0), List.range 4096)] } }

theorem wit_InvokeResults_none : Solo (.invk 0x2000 12 0 110 5 120) sChitless fetchKey (ctx sChitless) ∧
    sChitless.invkArgs 0x2000 110 5 120 (ctx sChitless) = .ok (0, 0) ∧ (ctx sChitless).warp.inv < 255 ∧
    sChitless.released fetchKey x0 5 = true ∧ sChitless.freeChit 0 = none := by
  refine ⟨⟨rfl, rfl, by decide, rfl, rfl, rfl⟩, rfl, by decide, rfl, List.find?_eq_none.mpr ?_⟩
  intro e h
  have : e < 4096 := by
    have := List.mem_range.mp h
    exact Nat.lt_of_lt_of_le this (Nat.min_le_left _ _)
  have r : sChitless.chits.reserves = [((0, 0), List.range 4096)] := rfl
  simp [State.mayIssue, r, this]
/-! ### Chits -/

/-- Entry 4,095 of die 7's chit table holds a chit of this module; the pair at 0 holds that chit. -/
def sChit (st : ChitState) : State :=
  { solo (holding [⟨1, tagN64⟩, ⟨0x003FFF80, tagN64⟩]) handled with
    chits := { State.reset.chits with tables := [((7, 4095), { ChitEntry.reset with state := st })] } }

theorem wit_ChitResults (st : ChitState) (h : st ≠ .free) : let s := sChit st
    let x : BitVec 64 := 0x003FFF8000000001
    s.chitArg 0 (ctx s) = .ok x ∧ s.liveChit x = some { ChitEntry.reset with state := st } ∧
    Solo (.chitTest 12 0 111 0) s fetchKey (ctx s) ∧ Solo (.chitSlot 12 0 111 0) s fetchKey (ctx s) ∧ (ctx s).dest (fld 111) false = .ok 111 ∧
    Solo (.chitAwait 12 0) s fetchKey (ctx s) ∧ s.canTrap x0 ∧ Solo (.chitFree 12 0) s fetchKey (ctx s) ∧ (ctx s).warp.inv < 255 ∧
    (0, x) ∉ s.chits.unacked := by
  cases st <;> first
    | exact absurd rfl h
    | exact ⟨rfl, rfl, ⟨rfl, rfl, by decide, rfl, rfl, rfl⟩, ⟨rfl, rfl, by decide, rfl, rfl, rfl⟩, rfl, ⟨rfl, rfl, by decide, rfl, rfl, rfl⟩, ⟨by decide, rfl, rfl⟩,
        ⟨rfl, rfl, by decide, rfl, rfl, rfl⟩, by decide, by decide⟩

/-! ### The pool and the weigh monitors -/

/-- The scratchpad of the bundle has one segment; registers 0 to 3 ask for a size that is no multiple of 8192, for none, for 16384 and for
29 segments, 4 for 6 tile segments of quadrant 3, 5 for none of it. -/
def sPool : State :=
  let s := solo (holding [⟨1, tagN32⟩, ⟨0, tagN32⟩, ⟨0x4000, tagN32⟩, ⟨0x3A000, tagN32⟩, ⟨0x301, tagN32⟩, ⟨0x300, tagN32⟩]) handled
  { s with cores := [(⟨0, 0⟩, { s.core ⟨0, 0⟩ with
      segs := setNth ⟨.scr, false, some 0, 0⟩ Core.reset.segs 6
      bundles := [(0, { Bundle.reset with regs := 32, scrSegs := 1, grid := 1, ready := true, begun := true })] })] }

theorem sPool_once {i : Instr} (hw : wellFormed i = true) (hg : (guardOf i).getD 12 = 12) (h : activeLanes i sPool = [ctx sPool]) :
    Once i sPool fetchKey (ctx sPool) :=
  ⟨rfl, hw, all_of_one (a := ctx sPool) rfl ⟨true, by rw [hg]; rfl, fun _ => namesAgain_none rfl⟩, by rw [h]; rfl⟩

theorem wit_PoolResults : ∀ p ∈ ([(.poolScr 12 0 111 0, 0, 1), (.poolScr 12 0 111 1, 1, 0), (.poolScr 12 0 111 2, 2, 0x4000),
      (.poolScr 12 0 111 3, 3, 0x3A000), (.poolMxs 12 0 111 4, 4, 0x301), (.poolMxs 12 0 111 5, 5, 0x300)] : List (Instr × BitVec 7 × BitVec 32)),
    Once p.1 sPool fetchKey (ctx sPool) ∧ (∀ c ∈ activeLanes p.1 sPool, ∃ x n, c.word (fld p.2.1) 0 = .ok x ∧ c.dest (fld 111) false = .ok n) ∧
    (ctx sPool).word (fld p.2.1) 0 = .ok p.2.2 := by
  intro p h
  simp only [List.mem_cons, List.not_mem_nil, or_false] at h
  rcases h with rfl | rfl | rfl | rfl | rfl | rfl <;>
    exact ⟨sPool_once (by decide) rfl rfl, all_of_one (a := ctx sPool) rfl ⟨_, _, rfl, rfl⟩, rfl⟩

/-- Each kind of answer. -/
theorem wit_PoolResults_answers : sPool.poolAnswer false ⟨0, 0⟩ 0 1 = .code 5 ∧ sPool.poolAnswer false ⟨0, 0⟩ 0 0x3A000 = .code 1 ∧
    sPool.poolAnswer true ⟨0, 0⟩ 0 0x300 = .code 0 ∧ (∃ m, sPool.poolAnswer false ⟨0, 0⟩ 0 0x4000 = .change m none) ∧
    (∃ m, sPool.poolAnswer false ⟨0, 0⟩ 0 0 = .change m (some 0)) ∧ (∃ m, sPool.poolAnswer true ⟨0, 0⟩ 0 0x301 = .change m none) ∧
    sPool.scratchInFlight ⟨0, 0⟩ 0 = false :=
  ⟨rfl, rfl, rfl, ⟨_, rfl⟩, ⟨_, rfl⟩, ⟨_, rfl⟩, rfl⟩

/-- What a size that is asked meets, at the bounds. -/
theorem wit_PoolResults_codes : 8191 % 8192 ≠ 0 ∧ (8192 * 29 % 8192 = 0 ∧ 8192 * 29 ≤ 2 ^ 31 ∧ 28 < 8192 * 29 / 8192) ∧
    ((sPool.bundleAt ⟨0, 0⟩ 0).scrSegs ≤ 28 ∧ scrTotal (sPool.core ⟨0, 0⟩).segs ≤ 28 ∧ (sPool.core ⟨0, 0⟩).wring = none ∧
      (sPool.bundleAt ⟨0, 0⟩ 0).scrSegs ≤ scrTotal (sPool.core ⟨0, 0⟩).segs) :=
  ⟨by decide, by decide, by decide, by decide, rfl, by decide⟩

/-- The scratchpad holds at 0 the block of a monitor at cluster slot 0, at 64 one that names a slot not bound; the cluster's monitors are
bound by given spreads, to names from 0 on. -/
def sMon (ms : List Nat) : State :=
  let s := solo (holding [⟨0, tagN32⟩, ⟨3, tagN32⟩, ⟨0x40, tagN32⟩]) handled
  let b : Bundle := { Bundle.reset with
    regs := 32, scrSegs := 1, grid := 1, ready := true, begun := true
    scr := [(8, 8), (16, 4), (24, 2), (27, 2), (72, 8), (80, 4), (88, 2), (91, 2), (92, 9)] }
  { s with
    cores := [(⟨0, 0⟩, { s.core ⟨0, 0⟩ with bundles := [(0, b)] })]
    clusters := [((0, 0), { Cluster.reset with
      bars := [(0, { BarSlot.reset with holder := b.spread, mask := 1 })]
      monitors := ms.zipIdx.map (fun m => (m.2, { monitorOfBlock b m.2 0 0 with spread := b.spread + m.1, total := -1 })) })] }

/-- The block in a state of `sMon` at an offset, as WMON CFG under name 0 reads it. -/
def blockAt (off : Nat) : Monitor := monitorOfBlock ((sMon []).bundle fetchWarp) 0 (BitVec.ofNat 512 ((sMon []).scrRead ⟨0, 0⟩ 0 off 64)) 0

theorem wit_MonitorResults : ∀ ms ∈ ([[], [0, 0, 0, 0], [1, 1, 1, 1]] : List (List Nat)), let s := sMon ms
    (ctx s).word (fld 0) 0 = .ok 0 ∧ Once (.wmonCfg 12 0 111 0) s fetchKey (ctx s) ∧
    (∀ c ∈ activeLanes (.wmonCfg 12 0 111 0) s, ∃ x n, c.word (fld 0) 0 = .ok x ∧ c.dest (fld 111) false = .ok n) ∧
    s.monitorSlot fetchWarp (blockAt 0) = some 0 := by
  intro ms h
  simp only [List.mem_cons, List.not_mem_nil, or_false] at h
  rcases h with rfl | rfl | rfl <;>
    exact ⟨rfl, ⟨rfl, by decide, all_of_one (a := ctx (sMon _)) rfl ⟨true, rfl, fun _ => rfl⟩, rfl⟩, all_of_one (a := ctx (sMon _)) rfl ⟨_, _, rfl, rfl⟩, by decide +kernel⟩

/-- The outcomes of CFG: bound, MON_HELD, MON_NONE, and MON_BAD for a slot that is not held and for a block beyond the allocation. -/
theorem wit_MonitorResults_codes : (blockAt 0).bad = false ∧ (sMon []).monitorOf fetchWarp 0 = none ∧
    ((sMon [0, 0, 0, 0]).monitorOf fetchWarp 0).isSome = true ∧ (sMon [1, 1, 1, 1]).monitorOf fetchWarp 0 = none ∧
    (List.range 4).find? (fun i => (lookup? i ((sMon [1, 1, 1, 1]).cluster 0 0).monitors).isNone) = none ∧
    (List.range 4).find? (fun i => (lookup? i ((sMon []).cluster 0 0).monitors).isNone) = some 0 ∧
    (sMon []).monitorSlot fetchWarp (blockAt 64) = none ∧ 1 * 8192 < 8192 + 64 :=
  ⟨by decide +kernel, rfl, by decide +kernel, by decide +kernel, by decide +kernel, by decide +kernel, by decide +kernel, by decide⟩

theorem wit_MonitorResults_named : (3 : BitVec 32).toNat < 4 ∧ ∀ ms ∈ ([[], [0, 0, 0, 0]] : List (List Nat)), let s := sMon ms
    (ctx s).word (fld 1) 0 = .ok 3 ∧ Once (.wmonRel 12 0 111 1) s fetchKey (ctx s) ∧
    (∀ c ∈ activeLanes (.wmonRel 12 0 111 1) s, ∃ x n, c.word (fld 1) 0 = .ok x ∧ c.dest (fld 111) false = .ok n) ∧
    (ms = [0, 0, 0, 0] → (∃ q, s.monitorOf fetchWarp 3 = some q) ∧
      ∀ i ∈ ([.wmonRdlo 12 0 110 1, .wmonRdhi 12 0 110 1] : List Instr), Once i s fetchKey (ctx s) ∧
        ∀ c ∈ activeLanes i s, ∃ x n, c.word (fld 1) 0 = .ok x ∧ c.dest (fld 110) true = .ok n) := by
  refine ⟨by decide, ?_⟩
  intro ms h
  simp only [List.mem_cons, List.not_mem_nil, or_false] at h
  rcases h with rfl | rfl <;>
    refine ⟨rfl, ⟨rfl, by decide, all_of_one (a := ctx (sMon _)) rfl ⟨true, rfl, fun _ => rfl⟩, rfl⟩, all_of_one (a := ctx (sMon _)) rfl ⟨_, _, rfl, rfl⟩, fun e => ?_⟩
  · exact nomatch e
  · refine ⟨⟨_, rfl⟩, fun i h => ?_⟩
    simp only [List.mem_cons, List.not_mem_nil, or_false] at h
    rcases h with rfl | rfl <;>
      exact ⟨⟨rfl, by decide, all_of_one (a := ctx (sMon _)) rfl ⟨true, rfl, fun _ => rfl⟩, rfl⟩, all_of_one (a := ctx (sMon _)) rfl ⟨_, _, rfl, rfl⟩⟩

/-! ### Special registers and the system functions -/

/-- The pair at 0 is a multiple of 8,192, and 2 to 6 hold the greatest LGW, GANG, FPS, FPC and CHK that MTS takes. -/
def sSpecial (w : Warp) (hm : Bool) : State :=
  solo { holding [⟨0x6000, tagN64⟩, ⟨0, tagN64⟩, ⟨4, tagN32⟩, ⟨0x3F, tagN32⟩, ⟨63, tagN32⟩, ⟨127, tagN32⟩, ⟨1, tagN32⟩] with hm := hm } w

theorem wit_SpecialRegisterResults : ∀ p ∈ ([(.mfs 12 0 111 0, false, 0), (.mfs 12 0 110 0x14, true, 0x14), (.time 12 0 110, true, 0xA)] :
      List (Instr × Bool × Nat)), let s := sSpecial handled false
    wellFormed p.1 = true ∧ guardsRead p.1 s ∧ ∀ c ∈ activeLanes p.1 s, (p.2.2 = 0 → c.wb = .ok c.th.wb) ∧
      ∃ m, c.dest (if p.2.1 then 110 else 111) p.2.1 = .ok m := by
  intro p h
  simp only [List.mem_cons, List.not_mem_nil, or_false] at h
  rcases h with rfl | rfl | rfl <;>
    exact ⟨by decide, all_of_one (a := ctx (sSpecial handled false)) rfl ⟨true, rfl, fun _ => rfl⟩,
      all_of_one (a := ctx (sSpecial handled false)) rfl ⟨fun _ => rfl, _, rfl⟩⟩

/-- LR, and XPC in handler mode. -/
theorem wit_SpecialRegisterResults_pairs : ∀ r ∈ ([8, 0xD] : List (BitVec 7)), let s := sSpecial handled true
    wellFormed (.mts 12 0 0 r) = true ∧ guardsRead (.mts 12 0 0 r) s ∧
    ∀ c ∈ activeLanes (.mts 12 0 0 r) s, c.pairOf (fld 0) 0 4 = .ok 0x6000 ∧ c.th.hm = true := by
  intro r h
  simp only [List.mem_cons, List.not_mem_nil, or_false] at h
  rcases h with rfl | rfl <;>
    exact ⟨by decide, all_of_one (a := ctx (sSpecial handled true)) rfl ⟨true, rfl, fun _ => rfl⟩, all_of_one (a := ctx (sSpecial handled true)) rfl ⟨rfl, rfl⟩⟩

theorem wit_SpecialRegisterResults_words : ∀ p ∈ ([(1, 2, 4), (2, 3, 0x3F), (3, 4, 63), (4, 5, 127), (5, 6, 1), (0x11, 2, 4)] :
      List (BitVec 7 × BitVec 7 × BitVec 32)), let s := sSpecial handled false
    Once (.mts 12 0 p.2.1 p.1) s fetchKey (ctx s) ∧ (∀ c ∈ activeLanes (.mts 12 0 p.2.1 p.1) s, ∃ x, c.word (fld p.2.1) 0 = .ok x) ∧
    (ctx s).word (fld p.2.1) 0 = .ok p.2.2 ∧ (ctx s).warp.wdog = 0 := by
  intro p h
  simp only [List.mem_cons, List.not_mem_nil, or_false] at h
  rcases h with rfl | rfl | rfl | rfl | rfl | rfl <;>
    exact ⟨⟨rfl, by decide, all_of_one (a := ctx (sSpecial handled false)) rfl ⟨true, rfl, fun _ => rfl⟩, rfl⟩,
      all_of_one (a := ctx (sSpecial handled false)) rfl ⟨_, rfl⟩, rfl, rfl⟩

theorem wit_SpecialRegisterResults_base : (let s := sSpecial Warp.reset false
    Once (.mts 12 0 0 9) s fetchKey (ctx s) ∧ (∀ c ∈ activeLanes (.mts 12 0 0 9) s, ∃ x, c.pairOf (fld 0) 0 4 = .ok x) ∧
    (ctx s).pairOf (fld 0) 0 4 = .ok 0x6000 ∧ (ctx s).warp.tbase = 0 ∧ (0x6000#64).extractLsb' 0 13 = 0) ∧
    (let s := sSpecial handled false
    Solo (.mts 12 0 0 0xD) s fetchKey (ctx s) ∧ (ctx s).th.hm = false ∧ (∃ x, (ctx s).pairOf (fld 0) 0 4 = .ok x) ∧ s.canTrap x0) :=
  ⟨⟨⟨rfl, by decide, all_of_one (a := ctx (sSpecial Warp.reset false)) rfl ⟨true, rfl, fun _ => rfl⟩, rfl⟩,
    all_of_one (a := ctx (sSpecial Warp.reset false)) rfl ⟨_, rfl⟩, rfl, rfl, by decide⟩,
   ⟨rfl, rfl, by decide, rfl, rfl, rfl⟩, rfl, ⟨_, rfl⟩, by decide, rfl, rfl⟩

/-- The pairs at 0, 2, 4 and 6 hold the last byte of the weight store, an address of the scratchpad, a page that the TLB holds, and an image
in the scratchpad of one microprogram operation for slot 31; 8 holds a stamp's tag. -/
def sQuery (on : Bool) : State :=
  let s := solo (holding [⟨0x1FFFFFFF, tagN64⟩, ⟨0x01200000, tagN64⟩, ⟨0, tagN64⟩, ⟨0x01000000, tagN64⟩, ⟨0x10000, tagN64⟩, ⟨0, tagN64⟩,
    ⟨0x40, tagN64⟩, ⟨0x01000000, tagN64⟩, ⟨7, tagN32⟩]) handled
  { s with
    dies := [(0, { Die.reset with obs := { Die.reset.obs with tsen := on } })]
    cores := [(⟨0, 0⟩, { s.core ⟨0, 0⟩ with
      tlb := [⟨0, 0x10000, 0x1000, 0x20007⟩]
      bundles := [(0, { Bundle.reset with
        regs := 32, scrSegs := 1, grid := 1, ready := true, begun := true
        scr := [(0x40, 0x3F), (0x44, 0xFE), (0x45, 0x3E), (0x46, 0x1F), (0x47, 7)] })] })] }

theorem wit_QueryAndLoadResults : let s := sQuery true
    (Solo (.refq 12 0 111 0) s fetchKey (ctx s) ∧ (ctx s).pairOf (fld 0) 0 4 = .ok 0x012000001FFFFFFF ∧ (ctx s).dest (fld 111) false = .ok 111) ∧
    (Solo (.locq 12 0 111 2) s fetchKey (ctx s) ∧ (ctx s).pairOf (fld 2) 0 4 = .ok 0x0100000000000000 ∧
      (0x0100000000000000#64).extractLsb' 52 12 = 0x10) ∧
    (Solo (.locq 12 0 111 4) s fetchKey (ctx s) ∧ (ctx s).pairOf (fld 4) 0 4 = .ok 0x10000 ∧ ∃ x, s.locq (ctx s) 0x10000 = .ok x) :=
  ⟨⟨⟨rfl, rfl, by decide, rfl, rfl, rfl⟩, rfl, rfl⟩, ⟨⟨rfl, rfl, by decide, rfl, rfl, rfl⟩, rfl, by decide⟩, ⟨rfl, rfl, by decide, rfl, rfl, rfl⟩, rfl, _, rfl⟩

theorem wit_QueryAndLoadResults_load : let s := sQuery true
    let i := Instr.mload 12 0 111 6
    Once i s fetchKey (ctx s) ∧ (∀ c ∈ activeLanes i s, ∃ y n, c.pairOf (fld 6) 0 4 = .ok y ∧ c.dest (fld 111) false = .ok n) ∧
    (ctx s).pairOf (fld 6) 0 4 = .ok 0x0100000000000040 ∧ s.mloadOut fetchWarp 0x0100000000000040 = .ok (0, some (31, [0x071F3EFE])) :=
  ⟨⟨rfl, by decide, all_of_one (a := ctx (sQuery true)) rfl ⟨true, rfl, fun _ => rfl⟩, rfl⟩, all_of_one (a := ctx (sQuery true)) rfl ⟨_, _, rfl, rfl⟩, rfl, rfl⟩

theorem wit_QueryAndLoadResults_stamps : ∀ on ∈ [false, true], ∀ p ∈ ([(.tsrOpen 12 0 8, 8, 7), (.tsrClose 12 0 120, 120, 0)] :
      List (Instr × BitVec 7 × BitVec 32)), let s := sQuery on
    Once p.1 s fetchKey (ctx s) ∧ (∀ c ∈ activeLanes p.1 s, ∃ y, c.word (fld p.2.1) 0 = .ok y) ∧ (ctx s).word (fld p.2.1) 0 = .ok p.2.2 := by
  intro on h i h'
  simp only [List.mem_cons, List.not_mem_nil, or_false] at h h'
  rcases h with rfl | rfl <;> rcases h' with rfl | rfl <;>
    exact ⟨⟨rfl, by decide, all_of_one (a := ctx (sQuery _)) rfl ⟨true, rfl, fun _ => rfl⟩, rfl⟩, all_of_one (a := ctx (sQuery _)) rfl ⟨_, rfl⟩, rfl⟩

/-- A grid that has been accepted and whose one element is placed. -/
def grid1 : Grid :=
  { disp := 0, queue := none, index := 0, record := 0, acceptedAt := 0, asid := 0, thrm := false, nextElem := 1, finished := 0, brk := none
    loc := none, fatal := none, gone := false }

/-- Lane 0 stands at an instruction of grid 1, lane 1 is ready; register 0 holds a code. -/
def sExit (hm : Bool) : State :=
  let s := solo { holding [⟨0xFFFFFFFF, tagN32⟩] with hm := hm } handled
  { s.setThread ⟨fetchWarp, 1⟩ Thread.reset with grids := [(1, grid1)] }

theorem wit_ExitAndReturnResults : ∀ i ∈ ([.exit 12 0, .brk 12 0 0] : List Instr), let s := sExit false
    Solo i s fetchKey (ctx s) ∧ (ctx s).warp.exitWaits = false ∧ (ctx s).warp.faults = [] ∧ (ctx s).word (fld 0) 0 = .ok 0xFFFFFFFF ∧
    (∃ l, l < 32 ∧ l ≠ (ctx s).lane ∧ (s.thread ⟨fetchWarp, l⟩).st ≠ .exited) ∧ fetchWarp ∈ s.warpsOf ⟨0, 0⟩ (s.warp fetchWarp).bslot ∧
    (s.core ⟨0, 0⟩).bars = [] ∧ (s.cluster 0 0).bars = [] ∧ (s.die 0).bars = [] ∧ s.devBars = [] ∧ (s.bundle fetchWarp).grid = 1 ∧
    s.grid? 1 = some grid1 := by
  intro i h
  simp only [List.mem_cons, List.not_mem_nil, or_false] at h
  rcases h with rfl | rfl <;>
    exact ⟨⟨rfl, rfl, by decide, rfl, rfl, rfl⟩, rfl, rfl, rfl, ⟨1, by decide⟩, by decide, rfl, rfl, rfl, rfl, rfl, rfl⟩

theorem wit_ExitAndReturnResults_handler : ∀ i ∈ ([.resume 12 0, .fail 12 0] : List Instr),
    (let s := sExit true
    Solo i s fetchKey (ctx s) ∧ (s.thread x0).hm = true ∧ s.grid? (s.bundle fetchWarp).grid = some grid1 ∧ grid1.fatal = none) ∧
    (let s := sExit false
    Solo i s fetchKey (ctx s) ∧ (s.thread x0).hm = false ∧ s.canTrap x0) := by
  intro i h
  simp only [List.mem_cons, List.not_mem_nil, or_false] at h
  rcases h with rfl | rfl <;>
    exact ⟨⟨⟨rfl, rfl, by decide, rfl, rfl, rfl⟩, rfl, rfl, rfl⟩, ⟨rfl, rfl, by decide, rfl, rfl, rfl⟩, rfl, by decide, rfl, rfl⟩
/-! ### Bring-up, power and cooling -/

/-- Bring-up in a phase whose bound of so many microseconds is just reached, or just past. -/
def sPhase (p : Phase) (us : Nat) (late : Nat) : State :=
  { State.reset with time := us * microsecond + late, boot := { Boot.reset with phase := p } }

theorem wit_BringUpSteps : ∀ p ∈ ([(.power, 20000), (.rom, 10000), (.config, 50000), (.links, 30000), (.memory, 400000), (.managers, 500000)] :
      List (Phase × Nat)),
    (sPhase p.1 p.2 0).bringingUp p.1 p.2 ∧ (sPhase p.1 p.2 1).boot.phase = p.1 ∧ (sPhase p.1 p.2 1).boot.faultOff = false ∧
    (sPhase p.1 p.2 1).boot.since + p.2 * microsecond < (sPhase p.1 p.2 1).time := by
  intro p h
  simp only [List.mem_cons, List.not_mem_nil, or_false] at h
  rcases h with rfl | rfl | rfl | rfl | rfl | rfl <;> exact ⟨⟨rfl, rfl, by decide⟩, rfl, rfl, by decide⟩

theorem wit_BringUpSteps_key : State.reset.boot.faultOff = false ∧ (0x15E7A#32).extractLsb' 0 17 = 0x15E7A ∧ (0x15E7B#32).extractLsb' 0 17 ≠ 0x15E7A :=
  ⟨rfl, by decide, by decide⟩

/-- RECOVERY after an identity failure or another one, with a submission checked or not; and READY with links up or not. -/
def sRecovery (busy : Bool) (err : BitVec 8) : State :=
  { State.reset with boot := { Boot.reset with phase := .recovery, err := err, busy := busy, ports := [(20, 1), (21, 0)], linkUp := [(21, false)] } }

theorem wit_RecoveryAndPowerSteps : (sRecovery false 0x23).boot.faultOff = false ∧ (1#32).getLsbD 0 = true ∧
    (sRecovery false 0x23).boot.phase = .recovery ∧ (sRecovery false 0x23).boot.busy = false ∧ (sRecovery true 0x10).boot.phase = .recovery ∧
    (sRecovery true 0x10).boot.busy = true ∧ lookup? 20 (sRecovery true 0x10).boot.linkUp = none ∧
    lookup? 20 (sRecovery true 0x10).boot.ports = some 1 ∧ (lookup? 21 (sRecovery true 0x10).boot.linkUp).isSome = true :=
  ⟨rfl, by decide, rfl, rfl, rfl, rfl, rfl, rfl, rfl⟩

/-- A module in READY; die 7 is under a limit, and core 191 of it runs at 7/8 of its duty. -/
def sPower : State :=
  { State.reset with
    time := 100 * microsecond
    boot := { Boot.reset with phase := .ready, hot := [7], watts := 3600, temps := [(7, List.replicate 48 95)] }
    cores := [(⟨7, 191⟩, { Core.reset with duty := [(3, 7)] })] }

theorem wit_RecoveryAndPowerSteps_power : sPower.boot.faultOff = false ∧ (∃ x ∈ [0, 110], sPower.boot.toff ≤ x) ∧
    (∀ x ∈ [109, 0], x < sPower.boot.toff) ∧ (∀ x ∈ [95], x < sPower.boot.toff ∧ x ≤ sPower.boot.tthr) ∧ 3600 ≤ sPower.boot.plim.toNat ∧
    sPower.boot.plim.toNat < 3601 ∧ sPower.boot.hot.contains 7 = true ∧ lookupD ⟨7, 191⟩ 0 sPower.boot.dutyAt + 100 * microsecond ≤ sPower.time ∧
    (∃ p, p < 4 ∧ sPower.dutyOf ⟨7, 191⟩ p < 8) ∧ sPower.boot.watts ≤ sPower.boot.plim.toNat ∧
    nth 0 (lookupD 7 [] sPower.boot.temps) (191 / 4) ≤ sPower.boot.tthr :=
  ⟨rfl, ⟨110, by decide, by decide⟩, by decide, by decide, by decide, by decide, rfl, by decide, ⟨3, by decide, by decide⟩, by decide, by decide⟩

/-- ACT of die 7 is 1, and its cache holds the sector at 0x40. -/
def sFill : State :=
  { State.reset with
    dies := [(7, { Die.reset with wreq := true })]
    coh := { Coherence.reset with lines := [((7, 1), { Line.reset with tok := 1, dv := true, data := 0x1234 })] } }

theorem wit_RecoveryAndPowerSteps_store : 0x1FFFFFC0 + 64 ≤ 0x20000000 ∧ sFill.weightAct 7 = true ∧
    (∃ bs, sFill.copyFrom 7 (64 / 64 + 2) 0x40 64 = .ok bs) ∧ State.reset.weightAct 7 = false :=
  ⟨by decide, rfl, ⟨_, rfl⟩, rfl⟩

/-! ### Links and routers -/

/-- A request for a sector, from die 0 to die 7; a data response with all the tokens. -/
def probe : Packet := { Packet.blank with opc := 0x01, dst := 7, rqlen := 1 }
/-- See `probe`. -/
def tokens : Packet := { Packet.blank with opc := 0x10, vcl := 1, dlen := 2, tok := 16, own := true, sector := 1, data := [0, 0] }


/-- The links and routers of a module in given conditions, at a given time. -/
def sNet (n : Net) (time : Nat) : State := { State.reset with net := n, time := time }

/-- An item for router 1 under LSEQ n, and one acknowledged by it. -/
def sWire (n : Nat) : State := sNet { Net.reset with wire := [⟨linkId 0 1, n, .packet probe, (Payload.packet probe).crc⟩] } 5
/-- See `sWire`. -/
def sAck (nak : Bool) : State :=
  sNet { Net.reset with
    msgs := [⟨linkId 0 1, nak, 0⟩]
    links := [(linkId 0 1, { Link.reset with replay := [(4095, .packet probe), (0, .packet probe)], lackDue := true })] } 512

theorem wit_LinkSteps : (∀ n ∈ [0, 4095], ∃ w, (sWire n).net.wire = [w] ∧ w.item = .packet probe ∧ w.crc = w.item.crc ∧ linkTo w.link < 22 ∧
      (sWire n).linkUp w.link ∧ w.seq = n ∧ ((sWire n).link w.link).expect = 0) ∧ (0x80000000 : BitVec 32) ≠ 0 ∧
    ((sAck false).link (linkId 0 1)).lackDue = true ∧ (∀ nak ∈ [false, true], (sAck nak).net.msgs = [⟨linkId 0 1, nak, 0⟩] ∧ (sAck nak).pick = 0) ∧
    ((sAck false).link (linkId 0 1)).replay = [(4095, .packet probe)] ++ (0, .packet probe) :: [] ∧
    (∀ e ∈ [((4095, .packet probe) : Nat × Payload)], e.1 ≠ 0) ∧ ((sAck true).link (linkId 0 1)).replay ≠ [] ∧ (sAck true).linkUp (linkId 0 1) ∧
    ((sAck true).link (linkId 0 1)).progressAt + (if 4096 ≤ linkId 0 1 then 181 else 512) ≤ (sAck true).time := by
  refine ⟨fun n h => ?_, by decide, rfl, fun n h => ?_, rfl, by decide, by decide, ⟨rfl, rfl⟩, by decide⟩ <;>
    simp only [List.mem_cons, List.not_mem_nil, or_false] at h <;> rcases h with rfl | rfl
  · exact ⟨_, rfl, rfl, rfl, by decide, ⟨rfl, rfl⟩, rfl, rfl⟩
  · exact ⟨_, rfl, rfl, rfl, by decide, ⟨rfl, rfl⟩, rfl, rfl⟩
  · exact ⟨rfl, rfl⟩
  · exact ⟨rfl, rfl⟩

/-- A link from die 20's router to die 21's that has been retraining since time 7, with tokens in its replay buffer. -/
def sRetrain (time : Nat) : State :=
  sNet { Net.reset with links := [(linkId 20 21, { Link.reset with retrainAt := some 7, replay := [(0, .packet { tokens with dst := 21 })] })] } time

theorem wit_LinkSteps_retrain : ((sRetrain 110006).link (linkId 20 21)).retrainAt = some 7 ∧ ((sRetrain 110006).link (linkId 20 21)).down = false ∧
    110006 < 7 + 100 * microsecond ∧ ((sRetrain 110007).link (linkId 20 21)).retrainAt = some 7 ∧ 7 + 100 * microsecond ≤ 110007 ∧
    (0, .packet { tokens with dst := 21 }) ∈ ((sRetrain 110007).link (linkId 20 21)).replay ∧ { tokens with dst := 21 }.carriesTokens = true :=
  ⟨rfl, rfl, by decide, rfl, by decide, List.mem_singleton.mpr rfl, rfl⟩

/-- Router 0 holds a packet that breaks R38 and one for die 7, router 7 one that has arrived. -/
def sRouter : State := sNet { Net.reset with routers := [⟨0, none, false, { probe with dst := 22 }⟩, ⟨0, none, false, probe⟩, ⟨7, none, false, probe⟩] } 5

theorem wit_LinkSteps_router : nth? sRouter.net.routers 0 = some ⟨0, none, false, { probe with dst := 22 }⟩ ∧ { probe with dst := 22 }.src = 0 ∧
    { probe with dst := 22 }.wellFormed = false ∧ nth? sRouter.net.routers 1 = some ⟨0, none, false, probe⟩ ∧ probe.wellFormed = true ∧ probe.dst ≠ 0 ∧
    (∃ n, (n, false) ∈ sRouter.hops 0 probe ∧ (sRouter.link (linkId 0 n)).down = false ∧ (sRouter.link (linkId 0 n)).retrainAt = none ∧
      (sRouter.link (linkId 0 n)).replay.length < replayRoom (linkId 0 n)) ∧
    nth? sRouter.net.routers 2 = some ⟨7, none, false, probe⟩ ∧ probe.dst = 7 ∧ (sRouter.link (linkId 7 29)).retrainAt = none :=
  ⟨rfl, rfl, rfl, rfl, rfl, by decide, ⟨1, by decide, rfl, rfl, by decide⟩, rfl, rfl, rfl⟩
/-! ### Coherence -/

/-- A coherence state at a time, with one packet that has arrived at a die. -/
def sCoh (d : Nat) (p : Packet) (c : Coherence) (time : Nat) : State :=
  { State.reset with coh := c, net := { Net.reset with inbox := [(d, p)] }, time := time }

/-- A packet about sector 1, whose home is die 8, from a site. -/
def about (opc : BitVec 8) (src : Nat) : Packet := { Packet.blank with opc := opc, src := src, rsock := src, sector := 1 }

/-- Site 7's line of sector 1 with some tokens, the owner token among them or not. -/
def withLine (tok : Nat) (own : Bool) : Coherence :=
  { Coherence.reset with lines := [((7, 1), { Line.reset with tok := tok, own := own, dv := true })] }

/-- The home entry of sector 1. -/
def withHome (h : HomeEntry) : Coherence := { Coherence.reset with homes := [(1, h)] }

/-- An access of a core of die 7 to sector 1. -/
def access (who : AccFor) (kind : AccKind) : Access :=
  { id := 1, who := who, site := 7, kind := kind, va := 0x40, pa := 0x7F, size := 1, wdata := 0x5A, wmask := 1, comp := 0, dest := [], signed := false
    cls := 0, rep := false, mark := 2, acq := 0 }

/-- See `access`. -/
def withAccess (c : Coherence) (who : AccFor) (kind : AccKind) : Coherence := { c with accesses := [access who kind] }

theorem wit_TokenSteps : ∀ p ∈ ([(withAccess (withLine 16 true) (.writeBack ⟨7, 0⟩ []) .write, access (.writeBack ⟨7, 0⟩ []) .write),
      (withAccess Coherence.reset (.lane x0) .read, access (.lane x0) .read)] : List (Coherence × Access)),
    let s := sCoh 7 (about 1 0) p.1 5;
    nth? s.coh.accesses s.pick = some p.2 ∧ p.2.pa < farBase ∧ s.localOut = false ∧ s.coh.accesses.take s.pick = [] ∧ sectorOf p.2.pa = 1 ∧
    s.activeAt 7 1 = none ∧ s.mendNote 7 1 = none ∧ s.snooping 7 1 = false ∧ s.hasWay 7 1 = true ∧
    ((s.line 7 1).tok = 16 ∧ (s.line 7 1).dv = true ∧ (s.line 7 1).hs = .i ∨
      (s.line 7 1).tok = 0 ∧ (s.line 7 1).rep = false ∧ s.missOf 7 1 = none ∧ s.missCount 7 < 512) := by
  intro p h
  simp only [List.mem_cons, List.not_mem_nil, or_false] at h
  rcases h with rfl | rfl
  · exact ⟨rfl, by decide, rfl, rfl, by decide, rfl, rfl, rfl, rfl, .inl ⟨rfl, rfl, rfl⟩⟩
  · exact ⟨rfl, by decide, rfl, rfl, by decide, rfl, rfl, rfl, rfl, .inr ⟨rfl, rfl, rfl, by decide⟩⟩

/-- GETS and GETX at a site without the owner token, with it among two tokens, with it alone; at a home that holds all, and at one that has
lost the sector. -/
theorem wit_TokenSteps_requests : ∀ opc ∈ ([1, 2] : List (BitVec 8)),
    (∀ l ∈ ([(1, false), (2, true), (1, true)] : List (Nat × Bool)), let s := sCoh 7 (about opc 0) (withLine l.1 l.2) 5;
      nth? s.net.inbox s.pick = some (7, about opc 0) ∧ Machine.isSite 7 = true ∧ s.keepsTokens 7 1 = false ∧ lookup? (7, 1) s.coh.holdoff = none ∧
      (s.line 7 1).own = l.2 ∧ (s.line 7 1).hs = .i ∧ (s.line 7 1).tok = l.1) ∧
    (∀ lost ∈ [false, true], let s := sCoh 8 (about opc 0) (withHome ⟨16, true, 0, lost⟩) 5;
      nth? s.net.inbox s.pick = some (8, about opc 0) ∧ Machine.isSite 8 = false ∧ (s.homeEntry 1).lostb = lost ∧ s.homeYields 1 0 = false ∧
      (s.homeEntry 1).hown = true ∧ 2 ≤ (s.homeEntry 1).htok) := by
  intro opc h
  simp only [List.mem_cons, List.not_mem_nil, or_false] at h
  rcases h with rfl | rfl <;> refine ⟨fun l h => ?_, fun l h => ?_⟩ <;> simp only [List.mem_cons, List.not_mem_nil, or_false] at h
  · rcases h with rfl | rfl | rfl <;> exact ⟨rfl, rfl, rfl, rfl, rfl, rfl, rfl⟩
  · rcases h with rfl | rfl <;> exact ⟨rfl, rfl, rfl, rfl, rfl, by decide⟩
  · rcases h with rfl | rfl | rfl <;> exact ⟨rfl, rfl, rfl, rfl, rfl, rfl, rfl⟩
  · rcases h with rfl | rfl <;> exact ⟨rfl, rfl, rfl, rfl, rfl, by decide⟩

/-- The last token of a sector that the host shares, asked for at a far cache; a request at a site that knows of an active one; and what a
hold-off has held back of each kind, at a site with two tokens. -/
theorem wit_TokenSteps_kept :
    (let s := sCoh 20 (about 1 0) { Coherence.reset with lines := [((20, 1), { Line.reset with tok := 1, own := true, dv := true, hs := .s })] } 5;
      nth? s.net.inbox s.pick = some (20, about 1 0) ∧ Machine.isSite 20 = true ∧ s.keepsTokens 20 1 = false ∧
      lookup? (20, 1) s.coh.holdoff = none ∧ (s.line 20 1).own = true ∧ (s.line 20 1).tok = 1 ∧ (s.line 20 1).hs = .s ∧ s.snooping 20 1 = false) ∧
    (let s := sCoh 7 (about 2 0) { Coherence.reset with active := [⟨7, 1, 0, 20, true⟩] } 5;
      nth? s.net.inbox s.pick = some (7, about 2 0) ∧ Machine.isSite 7 = true ∧ s.keepsTokens 7 1 = true) ∧
    (∀ opc ∈ ([1, 2] : List (BitVec 8)),
      let s := sCoh 7 (about 1 0) { withLine 2 true with holdoff := [((7, 1), 0)], heldReqs := [(7, about opc 0)] } 5;
      lookup? (7, 1) s.coh.holdoff = some 0 ∧
      s.coh.heldReqs.filter (fun h => decide (h.1 = 7) && decide (h.2.sec = 1)) = [(7, about opc 0)] ∧ s.keepsTokens 7 1 = false ∧
      (s.line 7 1).hs = .i ∧ (s.line 7 1).own = true ∧ 2 ≤ (s.line 7 1).tok) := by
  refine ⟨⟨rfl, rfl, rfl, rfl, rfl, rfl, rfl, rfl⟩, ⟨rfl, rfl, rfl⟩, fun opc h => ?_⟩
  simp only [List.mem_cons, List.not_mem_nil, or_false] at h
  rcases h with rfl | rfl <;> exact ⟨rfl, rfl, rfl, rfl, rfl, by decide⟩

/-- A token packet of sector 1 under a mend serial. -/
def gift (opc ser : BitVec 8) : Packet := { about opc 0 with ser := ser, tok := 1 }

/-- TOKD and TOKN: at a home, of another serial and of its own; at a site with a line, of another serial and of its own; at a site without
one that knows of an active request, and at one that does not. -/
theorem wit_TokenSteps_tokens : ∀ opc ∈ ([0x10, 0x11] : List (BitVec 8)),
    (∀ ser ∈ ([0, 1] : List (BitVec 8)), let s := sCoh 8 (gift opc ser) (withHome ⟨15, true, 0, false⟩) 5;
      nth? s.net.inbox s.pick = some (8, gift opc ser) ∧ (s.homeEntry 1).ser = 0 ∧ s.mendOf 1 = none ∧ s.activeHome 1 = none) ∧
    (∀ ser ∈ ([0, 1] : List (BitVec 8)), let s := sCoh 7 (gift opc ser) (withLine 15 true) 5;
      nth? s.net.inbox s.pick = some (7, gift opc ser) ∧ s.mendNote 7 1 = none ∧ (s.line 7 1).tok ≠ 0 ∧ (s.line 7 1).ser = 0 ∧ s.activeAt 7 1 = none ∧
      s.firstAccess 7 1 = none) ∧
    (let s := sCoh 7 (gift opc 0) { Coherence.reset with active := [⟨7, 1, 0, 20, true⟩] } 5;
      s.mendNote 7 1 = none ∧ (s.line 7 1).tok = 0 ∧ s.activeAt 7 1 = some ⟨7, 1, 0, 20, true⟩) ∧
    (let s := sCoh 7 (gift opc 0) { Coherence.reset with mendNotes := [((7, 1), 1)] } 5;
      s.mendNote 7 1 = some 1 ∧ (gift opc 0).ser ≠ 1) ∧
    (let s := sCoh 7 (gift opc 0) Coherence.reset 5;
      s.mendNote 7 1 = none ∧ (s.line 7 1).tok = 0 ∧ s.activeAt 7 1 = none ∧ s.missOf 7 1 = none ∧ s.requesterAt 7 1 = false) := by
  intro opc h
  simp only [List.mem_cons, List.not_mem_nil, or_false] at h
  rcases h with rfl | rfl <;>
    refine ⟨fun l h => ?_, fun l h => ?_, ⟨rfl, rfl, rfl⟩, ⟨rfl, by decide⟩, rfl, rfl, rfl, rfl, rfl⟩ <;>
    simp only [List.mem_cons, List.not_mem_nil, or_false] at h <;> rcases h with rfl | rfl <;>
    first | exact ⟨rfl, rfl, rfl, rfl⟩ | exact ⟨rfl, rfl, by decide, rfl, rfl, rfl⟩

/-- Site 7 misses sector 1 after given broadcasts, the last of them just a microsecond ago. -/
def missing (attempt : Nat) : Miss := ⟨1, true, 3, attempt, 0, 0, false, 0, false, false, 0⟩

theorem wit_TokenSteps_waits :
    (let s := sCoh 7 (about 0x14 8) (withAccess Coherence.reset (.lane x0) .read) 5;
      nth? s.net.inbox s.pick = some (7, about 0x14 8) ∧ s.coh.accesses = [access (.lane x0) .read] ∧ sectorOf 0x7F = (about 0x14 8).sec) ∧
    (∀ n ∈ [0, 1, 2], let s := sCoh 7 (about 1 0) { Coherence.reset with misses := [(7, missing n)] } microsecond;
      s.missAt 7 0 = some (missing n) ∧ (missing n).last + microsecond ≤ s.time ∧ (missing n).raised = false ∧ (missing n).attempt = n ∧
      s.mayRaise 7 1 = true) ∧
    (∀ on ∈ [false, true], let m := { missing 2 with raised := true };
      let s := sCoh 7 (about 1 0) { Coherence.reset with misses := [(7, m)], active := if on then [⟨7, 1, 0, 7, false⟩] else [] } microsecond;
      s.missAt 7 0 = some m ∧ m.last + microsecond ≤ s.time ∧ m.raised = true ∧ s.requesterAt 7 m.sector = on) ∧
    lookup? (7, 1) (sCoh 7 (about 1 0) { Coherence.reset with holdoff := [((7, 1), 0)] } 5).coh.holdoff = some 0 := by
  refine ⟨⟨rfl, rfl, rfl⟩, fun n h => ?_, fun n h => ?_, rfl⟩ <;> simp only [List.mem_cons, List.not_mem_nil, or_false] at h
  · rcases h with rfl | rfl | rfl <;> exact ⟨rfl, Nat.le_refl _, rfl, rfl, rfl⟩
  · rcases h with rfl | rfl <;> exact ⟨rfl, Nat.le_refl _, rfl, rfl⟩

/-- An entry of home 8's table of persistent requests. -/
def entry (stage : PreqStage) (packs : Nat) (pdone : Bool) : PreqEntry := ⟨1, 0, 7, true, stage, packs, pdone, 0⟩

theorem wit_PersistentAndMendingSteps :
    (let s := sCoh 8 (about 0x20 7) Coherence.reset 5;
      nth? s.net.inbox s.pick = some (8, about 0x20 7) ∧ removeNth s.net.inbox s.pick = [] ∧ s.coh.preqs = [] ∧ s.knowsPreq 1 7 = false ∧
      s.mendOf 1 = none) ∧
    (∀ site ∈ [7, 6], let s := sCoh 8 (about 0x20 site) { Coherence.reset with preqs := [entry .active 0 false] } 5;
      s.activeHome 1 = some (entry .active 0 false) ∧ s.knowsPreq 1 site = decide (site = 7) ∧ s.coh.preqs.countP (fun e => decide (homeSock e.sector = 8)) < 64) ∧
    (∀ r ∈ [7, 20], let p := { about 0x21 8 with rsock := r };
      let s := sCoh 7 p (withLine 15 true) 5;
      nth? s.net.inbox s.pick = some (7, p) ∧ (p.rsock = 7 ∨ (s.line 7 1).hs = .i)) ∧
    (let p := about 0x21 7;
      let s := sCoh 7 p { withLine 15 true with lasting := [(7, 1)] } 5;
      nth? s.net.inbox s.pick = some (7, p) ∧ p.rsock = 7 ∧ (7, 1) ∈ s.coh.lasting) ∧
    nth? (sCoh 7 (about 0x23 8) Coherence.reset 5).net.inbox 0 = some (7, about 0x23 8) ∧
    nth? (sCoh 8 (about 0x22 7) Coherence.reset 5).net.inbox 0 = some (8, about 0x22 7) ∧
    (∀ e ∈ [entry .active 0 false, entry .active 9 true, entry .active 10 false, entry .ending 9 true],
      ∀ opc ∈ ([0x22, 0x24] : List (BitVec 8)), let s := sCoh 8 (about opc 7) { Coherence.reset with preqs := [e] } 5;
      nth? s.net.inbox s.pick = some (8, about opc 7) ∧ s.coh.preqs = [e] ∧ e.sector = (about opc 7).sec ∧ e.rsock = (about opc 7).rsock ∧
      e.rmod = (about opc 7).rmod ∧ s.mendOf 1 = none ∧ s.coh.preqHeld = []) := by
  refine ⟨⟨rfl, rfl, rfl, rfl, rfl⟩, fun r h => ?_, fun r h => ?_, ⟨rfl, rfl, by decide⟩, rfl, rfl, fun e h opc h' => ?_⟩
  · simp only [List.mem_cons, List.not_mem_nil, or_false] at h
    rcases h with rfl | rfl <;> exact ⟨rfl, rfl, by decide⟩
  · simp only [List.mem_cons, List.not_mem_nil, or_false] at h
    rcases h with rfl | rfl
    · exact ⟨rfl, .inl rfl⟩
    · exact ⟨rfl, .inr rfl⟩
  · simp only [List.mem_cons, List.not_mem_nil, or_false] at h h'
    rcases h with rfl | rfl | rfl | rfl <;> rcases h' with rfl | rfl <;> exact ⟨rfl, rfl, rfl, rfl, rfl, rfl, rfl⟩

/-- Sector 1 being mended since time 0, with MRET from given sites. -/
def mending (got : List Nat) : Coherence := { Coherence.reset with mends := [⟨1, 0, got, false⟩] }

theorem wit_PersistentAndMendingSteps_mend :
    (let s := sCoh 8 (about 0x33 7) Coherence.reset 5;
      s.mendOf 1 = none ∧ nth? s.net.inbox s.pick = some (8, about 0x33 7) ∧ (about 0x33 7).sec = 1 ∧ (about 0x33 7).ser = (s.homeEntry 1).ser) ∧
    (let s := sCoh 8 (about 1 7) { Coherence.reset with preqs := [entry .active 0 false] } (50 * microsecond);
      s.activeHome 1 = some (entry .active 0 false) ∧ (entry .active 0 false).since + 50 * microsecond ≤ s.time) ∧
    (let s := sCoh 7 (about 0x30 8) (withLine 3 true) 5;
      nth? s.net.inbox s.pick = some (7, about 0x30 8) ∧ (s.line 7 1).hs = .i) ∧
    (let s := sCoh 7 (about 0x32 8) { Coherence.reset with mendNotes := [((7, 1), 0)] } 5;
      nth? s.net.inbox s.pick = some (7, about 0x32 8) ∧ s.mendNote 7 1 = some (about 0x32 8).ser ∧ (s.line 7 1).hs = .i ∧ s.missOf 7 1 = none) ∧
    (let s := sCoh 7 (about 0x32 8) { Coherence.reset with mendNotes := [((7, 1), 0)], misses := [(7, missing 2)] } 5;
      s.missOf 7 1 = some (missing 2) ∧ (s.line 7 1).allows (missing 2).write = false ∧ (s.line 7 1).hs = .i) ∧
    (∀ got ∈ [[], [0, 1, 2, 3, 4, 5, 6, 20, 21]], let s := sCoh 8 (about 0x31 7) (mending got) (50 * microsecond);
      s.coh.mends = [⟨1, 0, got, false⟩] ∧ s.coh.preqs = [] ∧ nth? s.net.inbox s.pick = some (8, about 0x31 7) ∧
      (about 0x31 7).ser = (s.homeEntry 1).ser ∧ (about 0x31 7).src ∉ got ∧ 0 + 50 * microsecond ≤ s.time) := by
  refine ⟨⟨rfl, rfl, rfl, rfl⟩, ⟨rfl, by decide⟩, ⟨rfl, rfl⟩, ⟨rfl, rfl, rfl, rfl⟩, ⟨rfl, rfl, rfl⟩, fun got h => ?_⟩
  simp only [List.mem_cons, List.not_mem_nil, or_false] at h
  rcases h with rfl | rfl <;> exact ⟨rfl, rfl, rfl, rfl, by decide, by decide⟩

/-- A replica's miss of sector 1 by site 7. -/
def replicaMiss : Miss := { missing 0 with replica := true, txn := 0 }

theorem wit_PersistentAndMendingSteps_replicas :
    (∀ htok ∈ [15, 16], let s := sCoh 8 (about 3 7) (withHome ⟨htok, true, 0, false⟩) 5;
      nth? s.net.inbox s.pick = some (8, about 3 7) ∧ (s.homeEntry 1).lostb = false) ∧
    (let p := { about 0x50 7 with rqlen := 4, sector := 0 };
      let s := sCoh 8 p Coherence.reset 5;
      nth? s.net.inbox s.pick = some (8, p) ∧ (s.homeEntry 0).lostb = false ∧ (s.homeEntry 1).lostb = false) ∧
    (∀ opc ∈ ([0x12, 0x51] : List (BitVec 8)), let p := { about opc 8 with data := [0, 1], dlen := 2 };
      let s := sCoh 7 p Coherence.reset 5;
      nth? s.net.inbox s.pick = some (7, p) ∧ p.data = [0, 1] ∧ (s.line 7 1).tok = 0 ∧ (s.line 7 1).rep = false ∧ s.inSet 7 (setOf 7 1) = [] ∧
      s.missOf 7 1 = none ∧ s.firstAccess 7 1 = none) ∧
    (let s := sCoh 7 (about 0x13 8) { Coherence.reset with misses := [(7, replicaMiss)] } 5;
      nth? s.net.inbox s.pick = some (7, about 0x13 8) ∧ s.coh.misses = [(7, replicaMiss)] ∧ replicaMiss.replica = true ∧
      replicaMiss.txn = (about 0x13 8).txn ∧ replicaMiss.covered = false) := by
  refine ⟨fun n h => ?_, ⟨rfl, rfl, rfl⟩, fun n h => ?_, rfl, rfl, rfl, rfl, rfl⟩ <;>
    simp only [List.mem_cons, List.not_mem_nil, or_false] at h <;> rcases h with rfl | rfl <;>
    first | exact ⟨rfl, rfl⟩ | exact ⟨rfl, rfl, rfl, rfl, rfl, rfl, rfl⟩
/-! ### Groups, stops and waits -/

/-- The last lane of the last warp slot of the part. -/
def xEnd : ThreadId := ⟨⟨7, 191, 3, 15⟩, 31⟩

/-- One thread, at given time. -/
def sOne (x : ThreadId) (th : Thread) (w : Warp) (time : Nat) : State :=
  { State.reset with time := time, threads := [(x, th)], warps := [(x.warp, w)] }

/-- A group of lane 0 whose run has not been fetched; the TLB and the instruction cache hold its page and a run of one ADD. -/
def sFetching (addr : BitVec 64) : State :=
  let s := solo Thread.reset handled
  { s.setThread x0 { s.thread x0 with st := .fetchWait } with
    groups := [(fetchKey, { soloGroup [] with addr := addr, fetched := false, next := 0 })]
    dies := [(0, { Die.reset with roots := [(0, rootOn)] })]
    cores := [(⟨0, 0⟩, { s.core ⟨0, 0⟩ with
      tlb := [⟨0, 0x1000, 0x1000, 0x2000B⟩], icache := [(0x400, 0xFC28000007008001)] })] }

theorem wit_GroupAndStopSteps : let s := sOne xEnd Thread.reset handled 5
    s.threads = [(xEnd, Thread.reset)] ∧ s.groups = [] ∧ Thread.reset.st = .ready ∧ xEnd.lane < 32 ∧ xEnd.warp.die < 8 ∧ xEnd.warp.core < 192 ∧
    xEnd.warp.part < 4 ∧ xEnd.warp.slot < 16 :=
  ⟨rfl, rfl, rfl, by decide, by decide, by decide, by decide, by decide⟩

set_option exponentiation.threshold 1100 in
/-- A sound run, and a run at an address that is no multiple of 4. -/
theorem wit_GroupAndStopSteps_fetch : (∀ a ∈ ([0x1000, 0x1002] : List (BitVec 64)), let s := sFetching a;
      let g := { soloGroup [] with addr := a, fetched := false, next := 0 };
      s.landStanding = s ∧ s.group? fetchKey = some g ∧ g.fetched = false ∧ membersOf fetchKey g = [(0, x0)] ∧ s.tornLines fetchWarp = [] ∧
      g.seed = fetchWarp.slot ∧
      (s.thread x0).st = .fetchWait ∧ (s.thread x0).pending = [] ∧ s.canTrap x0) ∧
    (sFetching 0x1000).readRun fetchWarp 0x1000 = .ok (some ([0x07008001], 0xFC280000, 0)) ∧ (sFetching 0x1002).readRun fetchWarp 0x1002 = .ok none := by
  refine ⟨fun a h => ?_, rfl, rfl⟩
  simp only [List.mem_cons, List.not_mem_nil, or_false] at h
  rcases h with rfl | rfl <;> exact ⟨rfl, rfl, rfl, rfl, rfl, rfl, rfl, rfl, by decide, rfl, rfl⟩

/-- The two halves of a line that the cache holds no longer. -/
theorem wit_GroupAndStopSteps_torn :
    let s := (sFetching 0x1000).setWarp fetchWarp { handled with got := [(0x20000, List.replicate 64 0), (0x20040, List.replicate 64 0)] };
    s.landStanding = s ∧ s.tornLines fetchWarp = [0x400] := ⟨rfl, rfl⟩

/-- A run that has issued its last instruction, with STOP clear or set. -/
theorem wit_GroupAndStopSteps_end : ∀ a ∈ ([0xFC280000, 0xFC3FF000] : List Word),
    let s := { sInt with groups := [(fetchKey, { soloGroup [0] with trailerA := a })] };
    let g := { soloGroup [0] with trailerA := a };
    s.group? fetchKey = some g ∧ g.fetched = true ∧ g.words.length ≤ g.next ∧ membersOf fetchKey g = [(0, x0)] ∧ g.hazards = [] ∧
    (s.thread x0).wait = none ∧ (s.thread x0).late = [] ∧ (s.warp fetchWarp).halt = none ∧ (s.thread x0).bpHeld = false ∧
    (s.warp fetchWarp).wdog = 0 ∧ (s.die 0).obs.stop = false ∧ (s.die 0).obs.bpen = false := by
  intro a h
  simp only [List.mem_cons, List.not_mem_nil, or_false] at h
  rcases h with rfl | rfl <;> exact ⟨rfl, rfl, Nat.le_refl _, rfl, rfl, rfl, rfl, rfl, rfl, rfl, rfl, rfl⟩

/-- A thread held at a JOIN since time 100; one whose watchdog has just passed; one that stands at a boundary as a debug stop begins. -/
theorem wit_GroupAndStopSteps_waits :
    (let s := sOne xEnd { Thread.reset with st := .blocked, wait := some (.join 0x2000 100) } handled 356;
      ∃ l at', l < 32 ∧ ((s.thread ⟨xEnd.warp, l⟩).st = .blocked ∧ (s.thread ⟨xEnd.warp, l⟩).wait = some (.join 0x2000 at')) ∧ at' + 256 ≤ s.time) ∧
    (∀ st ∈ [ThreadState.ready, .blocked], let s := sOne xEnd { Thread.reset with st := st } { handled with wdog := 1 } 1025;
      (lookup? xEnd s.threads).isSome = true ∧ s.canTrap xEnd ∧ ((s.thread xEnd).st = .blocked ∨ (s.thread xEnd).st = .ready ∧ (s.thread xEnd).wait = none) ∧
      (s.warp xEnd.warp).wdog ≠ 0 ∧ (s.warp xEnd.warp).wdog.toNat * 1024 < s.time - (s.thread xEnd).safeAt) ∧
    (∀ st ∈ [ThreadState.grouped, .blocked], let s := sOne xEnd { Thread.reset with st := st } handled 5;
      s.threads = [(xEnd, { Thread.reset with st := st })] ∧ (1#32).getLsbD 0 = true ∧ xEnd.warp.die = 7 ∧ Thread.reset.stopped = false ∧
      Thread.reset.stopMark ≠ .standing ∧ s.canTrap xEnd ∧
      (s.bundle xEnd.warp).asid = (1#32).extractLsb' 2 8) := by
  refine ⟨⟨31, 100, by decide, ⟨rfl, rfl⟩, by decide⟩, fun st h => ?_, fun st h => ?_⟩ <;>
    simp only [List.mem_cons, List.not_mem_nil, or_false] at h <;> rcases h with rfl | rfl
  · exact ⟨rfl, ⟨by decide, rfl, rfl⟩, .inr ⟨rfl, rfl⟩, by decide, by decide⟩
  · exact ⟨rfl, ⟨by decide, rfl, rfl⟩, .inl rfl, by decide, by decide⟩
  · exact ⟨rfl, by decide, rfl, rfl, by decide, ⟨by decide, rfl, rfl⟩, rfl⟩
  · exact ⟨rfl, by decide, rfl, rfl, by decide, ⟨by decide, rfl, rfl⟩, rfl⟩

/-- Die 7 samples, into a ring of one record at a sector that its cache owns, which holds none or one; core 191 has a warp in partition 0 or not. -/
def sSample (on warp : Bool) (pi : BitVec 32) (pend : List (BitVec 256)) : State :=
  let w : WarpId := ⟨7, 191, 0, 15⟩
  { State.reset with
    time := 65536
    coh := { Coherence.reset with lines := [((7, 0), { Line.reset with tok := 16, own := true, dv := true })] }
    dies := [(7, { Die.reset with obs := { Observe.reset with en := on, log := 0, pi := pi, pendingLog := pend } })]
    warps := if warp then [(w, { handled with stamps := [⟨7, 0, none, 5, 0, [3]⟩] })] else [] }

theorem wit_ObserveSteps : ((sSample false false 0 []).die 7).obs.en = false ∧ ((sSample false false 0 []).die 7).obs.tsen = false ∧
    (10 ≤ ((0x28#32).extractLsb' 2 5).toNat ∧ ((0x60#32).extractLsb' 2 5).toNat ≤ 24) ∧ ((0x24#32).extractLsb' 2 5).toNat < 10 ∧
    24 < ((0x64#32).extractLsb' 2 5).toNat ∧
    (∀ warp ∈ [false, true], let s := sSample true warp 0 [];
      (s.die 7).obs.en = true ∧ (s.die 7).obs.pendingLog = [] ∧ (s.core ⟨7, 191⟩).sampledAt + 2 ^ (s.die 7).obs.cur.toNat ≤ s.time ∧
      s.nextOccupied ⟨7, 191⟩ ((s.core ⟨7, 191⟩).samplePart % 4) (bitsAt (s.core ⟨7, 191⟩).sampleSlot (4 * 0) 4) = if warp then some 15 else none) := by
  refine ⟨rfl, rfl, by decide, by decide, by decide, fun w h => ?_⟩
  simp only [List.mem_cons, List.not_mem_nil, or_false] at h
  rcases h with rfl | rfl <;> exact ⟨rfl, rfl, by decide, rfl⟩

/-- A ring that is full, and one with room, to which each kind of record can be written. -/
theorem wit_ObserveSteps_ring : let o (pi : BitVec 32) := ((sSample true true pi [0]).die 7).obs;
    let s := sSample true true 0 [];
    2 ^ (o 1).log.toNat ≤ ((o 1).pi - (o 1).ci).toNat ∧ ((o 0).pi - (o 0).ci).toNat < 2 ^ (o 0).log.toNat ∧ (o 0).pendingLog = 0 :: [] ∧
    (∃ u, { s with openVals := s.openVals + 1 }.physWrite 7 0 (s.die 7).obs.nextPa (bytesOfNat 32 (s.sampleRecord ⟨7, 191, 0, 15⟩)) = .ok u) ∧
    (∃ u, (sSample true true 0 [0]).physWrite 7 0 (o 0).nextPa (bytesOfNat 32 (0 : BitVec 256).toNat) = .ok u) ∧
    (∃ r, (s.warp ⟨7, 191, 0, 15⟩).stamps = [r] ∧ (s.warp ⟨7, 191, 0, 15⟩).ops = [] ∧
      ∃ u, s.physWrite 7 0 (s.die 7).obs.nextPa (bytesOfNat 32 (r.record ⟨7, 191, 0, 15⟩ (s.bundle ⟨7, 191, 0, 15⟩).bn s.time)) = .ok u) :=
  ⟨by decide, by decide, rfl, ⟨_, rfl⟩, ⟨_, rfl⟩, _, rfl, rfl, _, rfl⟩

/-! ### Translation -/

/-- Die 7 walks for a read of page 0x10000 by core 191, with, in the die's cache, a page table of four levels that maps it, or no root. -/
def sWalk (en : Bool) : State :=
  { sOne ⟨⟨7, 191, 0, 0⟩, 0⟩ { Thread.reset with st := .grouped } handled 5 with
    coh := { Coherence.reset with lines := [(0x100, 0x8001), (0x200, 0xC001), (0x300, 0x10001), (0x400, 0), (0x402, 0x20007)].map (fun p =>
      ((7, p.1), { Line.reset with tok := 16, own := true, dv := true, data := p.2 })) }
    dies := [(7, { Die.reset with
      roots := [(0, ⟨en, false, 0x4000, 0⟩)], walks := [⟨0, 0x10000, [⟨⟨7, 191⟩, .thread ⟨⟨7, 191, 0, 0⟩, 0⟩, 0x10000, 0⟩]⟩] })] }

theorem wit_TranslationSteps :
    (∀ en ∈ [false, true], nth? ((sWalk en).die 7).walks 0 =
      some ⟨0, 0x10000, [⟨⟨7, 191⟩, .thread ⟨⟨7, 191, 0, 0⟩, 0⟩, 0x10000, 0⟩]⟩) ∧
    (sWalk true).walk 7 0 0x10000 = .page ⟨0, 0x10000, 0x1000, 0x20007⟩ [(0, 0, 0x8001), (0, 1, 0xC001), (0, 2, 0x10001)] ∧ (sWalk false).walk 7 0 0x10000 = .fault 1 false ∧
    ((sWalk false).thread ⟨⟨7, 191, 0, 0⟩, 0⟩).st = .grouped ∧ (sWalk false).canTrap ⟨⟨7, 191, 0, 0⟩, 0⟩ := by
  refine ⟨fun en h => ?_, by decide +kernel, rfl, rfl, by decide, rfl, rfl⟩
  simp only [List.mem_cons, List.not_mem_nil, or_false] at h
  rcases h with rfl | rfl <;> rfl

/-- A thread parked in slot 63 of die 7. -/
def sParked : State :=
  { sOne xEnd { Thread.reset with st := .blocked, wait := some (.parked 63) } handled 5 with
    dies := [(7, { Die.reset with slots := [(63, ⟨0, 0, 1, 0, 0, []⟩)] })] }

theorem wit_TranslationSteps_parked : lookup? (63#8).toNat (sParked.die 7).slots = some ⟨0, 0, 1, 0, 0, []⟩ ∧ (sParked.die 7).slotWaits = [] ∧
    sParked.shadow = [] ∧ sParked.threads = [(xEnd, { Thread.reset with st := .blocked, wait := some (.parked 63) })] ∧ sParked.canTrap xEnd :=
  ⟨rfl, rfl, rfl, rfl, by decide, rfl, rfl⟩

/-- The least root, the greatest one before the empty row, and one in that row. -/
theorem wit_TranslationSteps_roots : (0#12 ++ (0#32).extractLsb' 14 18 ++ 0#14).toNat < 0xC000000000 ∧
    (0xBF#12 ++ (0xFFFFC000#32).extractLsb' 14 18 ++ 0#14).toNat < 0xC000000000 ∧
    emptyRow (0xC0#12 ++ (0#32).extractLsb' 14 18 ++ 0#14).toNat = true ∧ 255 < 256 := by decide

/-- A POOL's wring is under way on a core with one bundle. -/
def sWring : State :=
  { sPool with cores := [(⟨0, 0⟩, { sPool.core ⟨0, 0⟩ with wring := some ⟨Core.reset.segs, some (fetchWarp, [⟨x0, 1, [], none⟩]), none⟩ })] }

/-- A slot of the barrier network that is idle, and one that is broken. -/
theorem wit_TranslationSteps_slots : let b : BarSlot := { BarSlot.reset with brk := true };
    let s := { sWring with dies := [(7, { Die.reset with bars := [(31, b)] })] };
    (s.core ⟨0, 0⟩).wring = some ⟨Core.reset.segs, some (fetchWarp, [⟨x0, 1, [], none⟩]), none⟩ ∧ s.wringWaits ⟨0, 0⟩ = false ∧
    (s.core ⟨0, 0⟩).bundles ≠ [] ∧ (∀ q ∈ (s.core ⟨0, 0⟩).bundles, q.2.ready = true) ∧ s.slot? ⟨20, 0, 0, 0⟩ 4 15 = some BarSlot.reset ∧
    BarSlot.reset.count = 0 ∧ BarSlot.reset.arrv = 0 ∧ BarSlot.reset.pend = 0 ∧ (1#32).getLsbD 0 = true ∧ s.slot? ⟨7, 0, 0, 0⟩ 3 31 = some b ∧
    b.brk = true :=
  ⟨rfl, rfl, by decide, by decide, rfl, rfl, rfl, rfl, by decide, rfl, rfl⟩

/-! ### The host -/

/-- A module in READY whose ports have trained as CXL, with given coherence and management state. -/
def sHost (c : Coherence) (m : Mgmt) (time : Nat) : State :=
  { State.reset with
    time := time, coh := c, mgmt := m, boot := { Boot.reset with phase := .ready, linkUp := [(20, true), (21, true)], ports := [(20, 1), (21, 1)] } }

theorem wit_HostSteps : let s := sHost Coherence.reset Mgmt.reset 5;
    s.moduleReady = true ∧ 0xBFFFFFFFFF < 0xC000000000 ∧ 0xBFFFFFFFF0 < 0xC000000000 ∧ lookup? 21 s.boot.linkUp = some true ∧ s.boot.cxlAllowed 21 = true ∧ (2 : BitVec 2) ≠ 3 ∧
    ∀ p ∈ ([(0, 0, 4), (0, 0, 8), (1, 6, 4), (1, 6, 8), (2, 8, 4), (2, 8, 8), (2, 8, 16)] : List (BitVec 2 × Nat × Nat)), 0xBFFFFFFFF0 % p.2.2 = 0 :=
  ⟨rfl, by decide, by decide, rfl, rfl, by decide, by decide⟩

/-- A port has trained before READY. -/
theorem wit_HostSteps_early : let s := { State.reset with boot := { Boot.reset with linkUp := [(20, true)] } };
    s.moduleReady = false ∧ (lookup? 20 s.boot.linkUp).isSome = true := ⟨rfl, rfl⟩

/-- A snoop of sector 1 by port 20 that has waited 40 microseconds, with a demand. -/
def sSnoop : State :=
  sHost { Coherence.reset with
    lines := [((20, 1), { Line.reset with tok := 16, own := true, dv := true, hs := .e })]
    snoops := [⟨20, 1, true, 0, false, true, some (about 2 7)⟩] } Mgmt.reset (40 * microsecond)

/-- Site 7 has a dirty copy of the first sector of far memory. -/
def sFar : State :=
  sHost { Coherence.reset with
    lines := [((7, farBase / 64), { Line.reset with dirty := true, dv := true, far := true, hs := .e })], farSnoop := [(7, farBase / 64)] } Mgmt.reset 5

theorem wit_HostSteps_cxl : (let x : Snoop := ⟨20, 1, true, 0, false, true, some (about 2 7)⟩;
      sSnoop.snoopOf 20 1 = some x ∧ x.demand = some (about 2 7) ∧ (about 2 7).opc = 2 ∧ (about 2 7).sec = 1 ∧ x.inval = true ∧
      sSnoop.coh.snoops = [x] ∧ sSnoop.keepsTokens 20 1 = false ∧ lookup? (20, 1) sSnoop.coh.holdoff = none) ∧ (sSnoop.line 20 1).tok ≠ 0 ∧
    (let x : Snoop := ⟨20, 1, false, 0, false, true, none⟩;
      let s := sHost { sSnoop.coh with snoops := [x] } Mgmt.reset 5;
      s.snoopOf 20 1 = some x ∧ x.demand = none ∧ x.inval = false ∧ s.coh.heldReqs = []) ∧
    sSnoop.coh.heldReqs = [] ∧ 0 + 40 * microsecond ≤ sSnoop.time ∧ sFar.cxlServed 20 = true ∧ isFarSec (farBase / 64) = true ∧
    sFar.farIod (farBase / 64 * 64) = 20 ∧ sFar.coh.farSnoop = [(7, farBase / 64)] ∧ (sFar.line 7 (farBase / 64)).far = true ∧ (sFar.line 7 (farBase / 64)).dirty = true :=
  ⟨⟨rfl, rfl, rfl, rfl, rfl, rfl, rfl, rfl⟩, by decide, ⟨rfl, rfl, rfl, rfl⟩, rfl, by decide, rfl, by decide, rfl, rfl, rfl, rfl⟩

/-- A read of far memory by a thread, or by a service core, that waits for the host. -/
def farRead (who : AccFor) : Access := { access who .read with pa := farBase }

theorem wit_HostSteps_completion : ∀ who ∈ [AccFor.lane x0, .service],
    let s := sHost { Coherence.reset with cxlReqs := [farRead who] } Mgmt.reset 5;
    nth? s.coh.cxlReqs 0 = some (farRead who) ∧ (farRead who).kind = .read ∧ (farRead who).op = 0 ∧ s.inSet 7 (setOf 7 (sectorOf farBase)) = [] ∧ s.coh.farSnoop = [] ∧
    (s.line 7 (sectorOf farBase)).far = false := by
  intro who h
  simp only [List.mem_cons, List.not_mem_nil, or_false] at h
  rcases h with rfl | rfl <;> exact ⟨rfl, rfl, rfl, rfl, rfl, rfl⟩

/-- Decoder 0 claims the first part of far memory; decoder 7 may claim the last, and not the first. -/
def sDecoders : State :=
  sHost Coherence.reset { Mgmt.reset with fmb := [(0, 0x80000400)], fml := [(0, 0x400), (7, 0x3FFF)] } 5

theorem wit_HostSteps_windows : sDecoders.windowOk 7 (0x80003FFF % 2 ^ 14) ((lookupD 7 0 sDecoders.mgmt.fml).toNat % 2 ^ 14) = true ∧
    sDecoders.windowOk 7 (0x80000400 % 2 ^ 14) ((lookupD 7 0 sDecoders.mgmt.fml).toNat % 2 ^ 14) = false ∧ (0x80003FFF#32).getLsbD 31 = true := by decide

/-- The host message rings: disabled; and enabled, at an index that wraps, with a request for endpoint 0 of I/O die 20 published. -/
def sRings : State :=
  sHost Coherence.reset { Mgmt.reset with hmbEn := true, hmbCons := 0xFFFF, hmbProd := 0xFFFF, hostMem := [(3840, 20)] } 5

theorem wit_HostSteps_rings : (sHost Coherence.reset Mgmt.reset 5).mgmt.hmbEn = false ∧ ((0xFFFF001C#32).getLsbD 4 = true ∧ 0xFFFF001C % 16 ≤ 0xC) ∧
    sRings.mgmt.hmbEn = true ∧ (0x10#32).extractLsb' 16 16 = sRings.mgmt.hmbCons + 1 ∧ sRings.mgmt.replies.length < sRings.mgmt.ringSize ∧
    (msgOf (readCells (sRings.mgmt.ringBase + 256 * (sRings.mgmt.hmbCons.toNat % sRings.mgmt.ringSize)) sRings.mgmt.hostMem 256)).dsock = 20 ∧
    (msgOf (readCells (sRings.mgmt.ringBase + 256 * (sRings.mgmt.hmbCons.toNat % sRings.mgmt.ringSize)) sRings.mgmt.hostMem 256)).dep = 0 ∧
    sRings.mgmt.hmbProd = sRings.mgmt.hmbCons :=
  ⟨rfl, by decide, rfl, by decide, by decide, by decide +kernel, by decide +kernel, rfl⟩

theorem wit_HostSteps_registers : let s := sHost Coherence.reset { Mgmt.reset with ertidx := 255, ert := [(255, 0x80000001)] } 5;
    (lookupD 255 1 s.mgmt.ert).getLsbD 31 = true ∧ (lookupD (sHost Coherence.reset Mgmt.reset 5).mgmt.ertidx.toNat 1
      (sHost Coherence.reset Mgmt.reset 5).mgmt.ert).getLsbD 31 = false ∧
    ((List.range 25).filter (fun i => (0x1000000#32).getLsbD i)).length = 1 ∧ (s.queue 7 63).en = false := by decide
/-! ### The scale-up fabric -/

/-- A module in a fabric with given registers, at a time. -/
def sFab (f : Fabric) (time : Nat) : State := { State.reset with fab := f, time := time }

/-- A fabric in use, every plane up and live. -/
def fabUp : Fabric := { Fabric.reset with nmod := 3, lock := true, en := true, live := 0xFF, up := 0xFF }

theorem wit_FabricRegisterSteps : (∀ h, h < 8 → (sFab fabUp 5).fab.live.getLsbD ((0xFFFFFF#32).toNat / 2 ^ (3 * h) % 8) = true) ∧
    (∃ h, h < 8 ∧ (sFab { fabUp with live := 0x7F } 5).fab.live.getLsbD ((0xE00000#32).toNat / 2 ^ (3 * h) % 8) = false) ∧
    (sFab fabUp 5).fab.en = true ∧ (∀ k, ((sFab fabUp 5).rau k).txns = [] ∧ ((sFab fabUp 5).rau k).held = []) ∧
    (sFab { fabUp with up := 0x7F } 5).fab.up.getLsbD 7 = false ∧ (sFab fabUp 5).fab.up.getLsbD 7 = true ∧
    ((sFab fabUp 5).port (planeIod 7)).service = [] ∧
    (∀ k, ∀ h ∈ ((sFab fabUp 5).rau k).held, planeOf ((sFab fabUp 5).rau k).map h.pkt.planeKey ≠ 7) :=
  ⟨by decide, ⟨7, by decide, by decide⟩, rfl, fun k => ⟨rfl, rfl⟩, by decide, by decide, rfl, fun _ _ h => nomatch h⟩

/-- Unit 21 has a read of module 2 outstanding on the plane that half 7 of both maps gives. -/
def sAdopt : State :=
  sFab { fabUp with map := 0xFAC680, raus := [(21, { Rau.reset with txns := [⟨0, { NPacket.blank with nopc := 1, plane := 7 }, [], none, 0, 0, 0, none, false⟩] })] } 5

/-- Unit 7 holds flags for module 2 back until RSYN is confirmed. -/
def sResync : State := sFab { fabUp with up := 0x80, raus := [(7, { Rau.reset with flags := [(2, { FlagState.reset with shold := true })] })] } 5

theorem wit_FabricRegisterSteps_units : (∀ x ∈ (sAdopt.rau 21).txns, ∀ h, h < 8 → bitsAt (sAdopt.rau 21).map.toNat (3 * h) 3 = x.pkt.plane →
      bitsAt sAdopt.fab.map.toNat (3 * h) 3 = x.pkt.plane) ∧ sResync.fab.en = true ∧ ((sResync.rau 7).flag 2).shold = true ∧
    ((sResync.rau 7).flag 2).rsynAt = none ∧ (sResync.rau 7).txns = [] ∧ sResync.fab.up.getLsbD 7 = true ∧
    ∀ q, q < 7 → sResync.fab.up.getLsbD q = false :=
  ⟨by decide, rfl, rfl, rfl, rfl, by decide, by decide⟩

/-- A remote access of thread x0, with its packet. -/
def farAccess (kind : AccKind) : Access := { access (.lane x0) kind with pa := 2 * 2 ^ 44, size := 4, dest := [(7, tagN32)] }
/-- See `farAccess`. -/
def farPkt (nopc : BitVec 8) : NPacket := { NPacket.blank with nopc := nopc, dmod := 2, pa := 0x200000000000, bmask := 0xF }

/-- Unit 0 with given accesses held, outstanding and answered; the thread's warp counts the operation. -/
def sUnit (en : Bool) (held : List Held) (txns : List Txn) (inbox : List NPacket) : State :=
  { sOne x0 Thread.reset { handled with ops := [⟨3, 9, false⟩] } (1000 * microsecond) with
    fab := { fabUp with en := en, raus := [(0, { Rau.reset with held := held, txns := txns, inbox := inbox })] } }

/-- One access held, or outstanding. -/
def oneHeld : Held := ⟨farPkt 1, [farAccess .read], some fetchWarp, 9, 1, none, false⟩
/-- See `oneHeld`. -/
def oneTxn (nopc : BitVec 8) (a : Access) : Txn := ⟨0, farPkt nopc, [a], some fetchWarp, 9, 1, 0, none, false⟩

theorem wit_RemoteAccessSteps : (∀ en ∈ [false, true], let s := sUnit en [oneHeld] [] [];
      (s.rau 0).held = [oneHeld] ∧ oneHeld.pkt.nopc = 1 ∧ (s.rau 0).txns = [] ∧ s.fab.en = en ∧ ((s.rau 0).flag 2).shold = false ∧
      s.fab.up.getLsbD (planeOf (s.rau 0).map oneHeld.pkt.pa.toNat) = true ∧ oneHeld.accs = [farAccess .read] ∧
      s.issuerHere oneHeld.warp oneHeld.opId = true ∧ (s.thread x0).st ≠ .exited) := by
  intro en h
  simp only [List.mem_cons, List.not_mem_nil, or_false] at h
  rcases h with rfl | rfl <;> exact ⟨rfl, rfl, rfl, rfl, rfl, by decide, rfl, rfl, by decide⟩

/-- Responses to a read, a write, an atomic and a flag's reset, with STAT OK or not. -/
theorem wit_RemoteAccessSteps_responses : ∀ p ∈ ([(0x10, 1, farAccess .read), (0x11, 2, { farAccess .write with dest := [] }),
      (0x12, 3, farAccess (.atom 0 0))] : List (BitVec 8 × BitVec 8 × Access)), ∀ stat ∈ ([0, 1] : List (BitVec 4)),
    let n : NPacket := { NPacket.blank with nopc := p.1, stat := stat, data := [0] };
    let s := sUnit true [] [oneTxn p.2.1 p.2.2] [n];
    (s.rau 0).inbox = [n] ∧ n.ce = false ∧ (s.rau 0).txns = [oneTxn p.2.1 p.2.2] ∧ (oneTxn p.2.1 p.2.2).pkt.ntag = n.ntag ∧ p.2.2.who = .lane x0 ∧
    p.2.2.acq < 3 ∧ maskSectors (farPkt p.2.1).bmask = [p.2.2.pa / 64 % 2] ∧ (p.1 ≠ 0x11 → p.2.2.dest ≠ []) ∧ (p.1 = 0x11 → p.2.2.dest = []) ∧
    p.2.2.size ≠ 16 ∧ 1 ≤ (farPkt p.2.1).nopc.toNat ∧ (farPkt p.2.1).nopc.toNat ≤ 4 ∧ s.issuerHere (some fetchWarp) 9 = true ∧
    (s.thread x0).st ≠ .exited := by
  intro p h stat h'
  simp only [List.mem_cons, List.not_mem_nil, or_false] at h h'
  rcases h with rfl | rfl | rfl <;> rcases h' with rfl | rfl <;>
    exact ⟨rfl, rfl, rfl, rfl, rfl, by decide, by decide, by decide, by decide, by decide, by decide, by decide, rfl, by decide⟩

/-- RFAK of an RSYN and RNAK of a flag; a flag whose wait is over; a read that a millisecond has brought nothing for. -/
theorem wit_RemoteAccessSteps_flags :
    (∀ nopc ∈ ([0x13, 0x14] : List (BitVec 8)), let n : NPacket := { NPacket.blank with nopc := nopc };
      let x : Txn := { oneTxn 7 (farAccess .read) with accs := [] };
      let s := sUnit true [] [x] [n];
      (s.rau 0).inbox = [n] ∧ n.ce = false ∧ (s.rau 0).txns = [x] ∧ x.pkt.ntag = n.ntag ∧ x.pkt.nopc = 7 ∧ x.pkt.fsyn = ((s.rau 0).flag x.pkt.dmod).fsyn) ∧
    (let x : Txn := { oneTxn 5 (farAccess .flag) with resendAt := some (1000 * microsecond) };
      let s := sUnit true [] [x] [];
      (s.rau 0).txns = [x] ∧ 1000 * microsecond ≤ s.time) ∧
    (let x := oneTxn 1 (farAccess .read);
      let s := sUnit true [] [x] [];
      (s.rau 0).txns = [x] ∧ x.sentAt + 1000 * microsecond ≤ s.time ∧ x.pkt.nopc = 1 ∧ x.accs = [farAccess .read] ∧
      s.issuerHere x.warp x.opId = true ∧ (s.thread x0).st ≠ .exited) := by
  refine ⟨fun n h => ?_, ⟨rfl, by decide⟩, rfl, by decide, rfl, rfl, rfl, by decide⟩
  simp only [List.mem_cons, List.not_mem_nil, or_false] at h
  rcases h with rfl | rfl <;> exact ⟨rfl, rfl, rfl, rfl, rfl, rfl⟩

/-- I/O die 21 has a request, with given flags waiting. -/
def sArrive (n : NPacket) (fs : List WaitingFlag) : State :=
  sFab { fabUp with ports := [(21, { FabPort.reset with arrivals := [n], flags := fs })] } 5

set_option exponentiation.threshold 1100 in
/-- Requests at the last byte of local memory, and one beyond it: a read, a write of one sector, an atomic and a CAS. -/
theorem wit_RemoteServiceSteps : ∀ pa ∈ ([0xBFFFFFFFFC, 0xC000000000] : List (BitVec 52)),
    ∀ p ∈ ([(1, 0), (2, 0), (3, 0x80), (4, 0x88)] : List (BitVec 8 × BitVec 8)),
    let n : NPacket := { NPacket.blank with nopc := p.1, pa := pa, aop := p.2, bmask := 0xF, data := if p.1 = 2 then [0] else [] };
    let s := sArrive n [];
    nth? (s.port 21).arrivals 0 = some n ∧ (s.port 21).service.length < 1024 ∧ (localEnd ≤ n.pa.toNat % 2 ^ 44 ↔ pa = 0xC000000000) ∧
    maskSectors n.bmask = [0] ∧ (p.1 = 2 → n.data = [0]) ∧ (3 ≤ p.1.toNat → aopBad (p.1 == 4) n = false ∧ 4 = 4 * 2 ^ (n.aop.extractLsb' 4 2).toNat) := by
  intro pa h p h'
  simp only [List.mem_cons, List.not_mem_nil, or_false] at h h'
  rcases h with rfl | rfl <;> rcases h' with rfl | rfl | rfl | rfl <;> exact ⟨rfl, by decide, by decide, by decide, by decide, by decide⟩

set_option exponentiation.threshold 1100 in
/-- A reserved atomic; a flag of another epoch, one that finds no place, and one that must wait; RSYN of the epoch in force and of a new one. -/
theorem wit_RemoteServiceSteps_flags : aopBad false { NPacket.blank with nopc := 3, aop := 0x30 } = true ∧
    (∀ nopc ∈ ([5, 6, 7] : List (BitVec 8)), ∀ fsyn ∈ ([0, 1] : List (BitVec 3)),
      let n : NPacket := { NPacket.blank with nopc := nopc, fsyn := fsyn, fseq := 0xFFFF };
      let s := sArrive n [];
      nth? (s.port 21).arrivals 0 = some n ∧ (s.source 21 n.source).sync = 0 ∧ (s.source 21 n.source).nextf ≠ 0xFFFF ∧ (s.port 21).flags = [] ∧
      (s.port 21).checks = []) ∧
    256 ≤ ((sArrive NPacket.blank (List.replicate 256 ⟨NPacket.blank, false, false⟩)).port 21).flags.countP (fun f => f.pkt.nopc != 7) := by
  refine ⟨by decide, fun p h f h' => ?_, by decide +kernel⟩
  simp only [List.mem_cons, List.not_mem_nil, or_false] at h h'
  rcases h with rfl | rfl | rfl <;> rcases h' with rfl | rfl <;> exact ⟨rfl, rfl, by decide, rfl, rfl⟩

/-- I/O die 21 has a packet, with given flags waiting. -/
def sPeer (p : Packet) (fs : List WaitingFlag) : State :=
  { sFab { fabUp with ports := [(21, { FabPort.reset with flags := fs })] } 5 with net := { Net.reset with inbox := [(21, p)] } }

set_option exponentiation.threshold 1100 in
/-- OCHK of a reset, and of a flag that must wait; OCNF of a reset and of a flag. -/
theorem wit_RemoteServiceSteps_orders :
    (∀ x ∈ ([0x100000000, 0xFFFF0000] : List (BitVec 256)), let p : Packet := { Packet.blank with opc := 0x64, data := [x] };
      let s := sPeer p [];
      nth? s.net.inbox s.pick = some (21, p) ∧ (checkOf 21 x).fsyn = (s.source 21 (checkOf 21 x).source).sync ∧
      (x = 0x100000000 → (checkOf 21 x).nopc = 7) ∧
      (x = 0xFFFF0000 → (checkOf 21 x).nopc ≠ 7 ∧ (checkOf 21 x).fseq ≠ (s.source 21 (checkOf 21 x).source).nextf)) ∧
    (∀ q ∈ ([(7, 0x80000), (6, 0xFFFF)] : List (BitVec 8 × Nat)),
      let p : Packet := { Packet.blank with opc := 0x65, sector := q.2, rmod := 2, rsock := 7 };
      let f : WaitingFlag := ⟨{ NPacket.blank with nopc := q.1, smod := 2, ssock := 7, fseq := 0xFFFF }, true, false⟩;
      let s := sPeer p [f];
      nth? s.net.inbox s.pick = some (21, p) ∧ (s.port 21).flags = [f] ∧ f.pkt.source = (p.rmod, p.rsock) ∧
      f.pkt.fsyn.toNat = bitsAt p.sector 16 3 ∧ p.sector.testBit 19 = (q.1 == 7) ∧ (q.1 = 6 → f.pkt.fseq.toNat = bitsAt p.sector 0 16)) := by
  refine ⟨fun p h => ?_, fun p h => ?_⟩ <;> simp only [List.mem_cons, List.not_mem_nil, or_false] at h <;> rcases h with rfl | rfl
  · exact ⟨rfl, by decide, by decide, by decide⟩
  · exact ⟨rfl, by decide, by decide, by decide⟩
  · exact ⟨rfl, rfl, rfl, by decide, by decide, by decide⟩
  · exact ⟨rfl, rfl, rfl, by decide, by decide, by decide⟩

set_option exponentiation.threshold 1100 in
/-- NXRQ and NXRS of a packet for another module, and for this one. -/
theorem wit_RemoteServiceSteps_onward : ∀ opc ∈ ([0x62, 0x63] : List (BitVec 8)), ∀ x ∈ ([0, 0x3000000] : List (BitVec 256)),
    let p : Packet := { Packet.blank with opc := opc, data := [x, 0] };
    let s := sPeer p [];
    nth? s.net.inbox s.pick = some (21, p) ∧ ∃ n, nimUnwrap p = some n ∧ (n.dmod = 3 ↔ x = 0x3000000) ∧ n.nopc.toNat < 0x20 := by
  intro p h x h'
  simp only [List.mem_cons, List.not_mem_nil, or_false] at h h'
  rcases h with rfl | rfl <;> rcases h' with rfl | rfl <;> exact ⟨rfl, _, rfl, by decide +kernel, by decide +kernel⟩

/-! ### Chit messages and services -/

/-- The last chit of table 20 in its generation 5, and another of table 7. -/
def chitA : BitVec 64 := 20#13 ++ 16383#14 ++ 5#37
def chitB : BitVec 64 := 7#13 ++ 4095#12 ++ 1#39

/-- A message about a chit to socket 20. -/
def chitMsgOf (o : BitVec 8) (rec : BitVec 512) (brk : Bool) (w : Option WarpId) : ChitMsg :=
  { nopc := o, dsock := 20, dmod := 0, ssock := 7, smod := 0, chit := chitA, other := chitB, payload := rec, broken := brk, warp := w
    opId := 1, plane := 0, cm := false, ce := false }

/-- That message waiting at the table, whose entry of the chit is given. -/
def sChitMsg (e : ChitEntry) (m : ChitMsg) : State :=
  { State.reset with chits := { State.reset.chits with tables := [((20, 16383), e)], msgs := [m], unacked := [(20, chitA)] } }

/-- Its entry at generation 5 in a given state, with a location and a queue. -/
def chitAt (st : ChitState) (l : Option (BitVec 64)) (q : List Invocation) (lo : Bool) : ChitEntry :=
  { ChitEntry.reset with state := st, gen := 5, loc := l, queue := q, locOnly := lo }

/-- No live entry: a wrong generation. -/
theorem wit_ChitAndServiceSteps_stale :
    (sChitMsg { chitAt .wait none [] false with gen := 4 } (chitMsgOf 0x20 0 false none)).liveChit chitA = none := by decide +kernel

/-- Every state of an entry, with and without a location, is that of a live chit. -/
theorem wit_ChitAndServiceSteps : (∀ st ∈ [ChitState.wait, .placed, .done, .broken], let e := chitAt st none [] false;
      (sChitMsg e (chitMsgOf 0x20 0 false none)).liveChit chitA = some e) ∧
    (∀ st ∈ [ChitState.placed, .done], let e := chitAt st (some chitB) [] false;
      (sChitMsg e (chitMsgOf 0x20 0 false none)).liveChit chitA = some e) ∧
    (∀ st ∈ [ChitState.placed, .done], let e := chitAt st (some chitA) [] false;
      (sChitMsg e (chitMsgOf 0x22 0 false none)).liveChit chitA = some e) ∧ chitB ≠ chitA ∧
    nth? (sChitMsg (chitAt .wait none [] true) (chitMsgOf 0x20 0 false none)).chits.msgs 0 = some (chitMsgOf 0x20 0 false none) ∧
    (∀ lo ∈ [false, true], let e := chitAt .placed (some chitA) [⟨0, chitB⟩] lo;
      (sChitMsg e (chitMsgOf 0x23 0 true none)).liveChit chitA = some e ∧ e.spill = [] ∧ e.release = false ∧ e.forwarded = 0) := by
  decide +kernel

set_option exponentiation.threshold 1100 in
/-- QSEL at each end of the two ranges, with and without a chit. -/
theorem wit_ChitAndServiceSteps_task : (∀ q ∈ [64, 79], 64 ≤ recQsel (recSet 0 59 1 q) ∧ recQsel (recSet 0 59 1 q) ≤ 79) ∧
    (∀ q ∈ [63, 80], let r := recSet (recSet 0 59 1 q) 58 1 8;
      (recQsel r < 64 ∨ 79 < recQsel r) ∧ recChv r = true) := by decide +kernel

/-- An acknowledgment for a warp, and for none. -/
theorem wit_ChitAndServiceSteps_ack : ∀ w ∈ [none, some fetchWarp], let m := chitMsgOf 0x25 0 false w;
    let s := sChitMsg (chitAt .wait none [] false) m;
    nth? s.chits.msgs 0 = some m ∧ m.smod = s.fab.nmod ∧ m.chit ≠ 0 ∧ s.chits.waiting = [] ∧
    (∀ p ∈ s.chits.tables, p.1.1 = 20 → p.2.loc ≠ some m.chit) := by decide +kernel

/-- A die's reserve of the chits of table 21, full or with one place. -/
theorem wit_ChitAndServiceSteps_refill : State.reset.freeChit 21 = some 0 ∧ 64 ≤ (List.range 64).length ∧ (List.range 63).length < 64 := by decide +kernel

/-- A module that is READY, with a port enabled. -/
theorem wit_ChitAndServiceSteps_ready : let s : State := { State.reset with boot := { State.reset.boot with phase := .ready, ports := [(21, BitVec.allOnes 256)] } };
    s.moduleReady = true ∧ s.portByte 21 10 1 ≠ 0 ∧ 1 ≤ s.portByte 21 12 2 :=
  by decide +kernel

/-! ### Queues and dispatchers -/

theorem ok_of {ε α : Type} [DecidableEq α] {x : Except ε α} {a : α} (h : (match x with | .ok v => decide (v = a) | .error _ => false) = true) :
    x = .ok a := by cases x <;> simp_all

theorem error_of {ε α : Type} [DecidableEq ε] {x : Except ε α} {e : ε}
    (h : (match x with | .ok _ => false | .error v => decide (v = e)) = true) : x = .error e := by cases x <;> simp_all

theorem ok_some {ε α : Type} {x : Except ε α} (h : x.isOk = true) : ∃ a, x = .ok a := by
  cases x with
  | ok a => exact ⟨a, rfl⟩
  | error e => cases h

/-- A kernel's record of one bundle of one warp, published in phase 1, with a grid of GX elements. -/
def recOne (gx : Nat) : BitVec 512 := BitVec.ofNat 512 (gx * 2 ^ 352 + 2 ^ 384 + 2 ^ 400 + 2 ^ 416 + 2 ^ 432 + 2 ^ 504)

/-- A dispatcher with an enabled queue at 0x10000, mapped to 0x20000, whose die's cache owns the page table, RESV and CONS, and the queue's
first place; or with no page table. -/
def sQueue (disp n : Nat) (mapped : Bool) (counts record : BitVec 512) : State :=
  { State.reset with
    boot := { State.reset.boot with phase := .ready }
    coh := { Coherence.reset with lines :=
      [(0x100, 0x8001), (0x200, 0xC001), (0x300, 0x10001), (0x402, 0x20007), (0x800, counts), (0x801, record)].map (fun p =>
        ((disp, p.1), { Line.reset with tok := 16, own := true, dv := true, data := p.2 })) }
    dies := [(rootsOf disp, { Die.reset with roots := [(0, ⟨mapped, false, 0x4000, 0⟩)] })]
    disp := [(disp, { Dispatcher.reset with queues := [(n, { Queue.reset with en := true, base := 0x10000 })] })] }

/-- The first and the last queue of both kinds of dispatcher; LOG below 4 and not; each state of EN. -/
theorem wit_QueueAndDispatchSteps : hasQueue 0 0 = true ∧ hasQueue 7 63 = true ∧ hasQueue 20 0 = true ∧ hasQueue 20 15 = true ∧
    ((6#32).extractLsb' 1 4).toNat < 4 ∧ 4 ≤ ((8#32).extractLsb' 1 4).toNat ∧ (8#32).getLsbD 0 = false ∧ (9#32).getLsbD 0 = true := by decide

/-- An enabled queue with no record, without its page, with a record that breaks a rule, and with a good one. -/
theorem wit_QueueAndDispatchSteps_accept : ∀ d ∈ [(7, 63), (20, 15)], let s := sQueue d.1 d.2 true; let q := (s 0 0).queue d.1 d.2;
    (s 0 0).takesWork d.1 = true ∧ q.en = true ∧ q.stuck = false ∧ (s 0 0).published d.1 d.2 = .ok (0, none) ∧
    (sQueue d.1 d.2 false 0 0).published d.1 d.2 = .error (.fault 0x10008) := by
  intro d h
  simp only [List.mem_cons, List.not_mem_nil, or_false] at h
  rcases h with rfl | rfl <;>
    exact ⟨by decide +kernel, by decide +kernel, by decide +kernel, ok_of (by decide +kernel), error_of (by decide +kernel)⟩

theorem wit_QueueAndDispatchSteps_record : ∀ gx ∈ [(0, some 4), (1, none)], let s := sQueue 20 15 true 0 (recOne gx.1);
    s.published 20 15 = .ok (0, some (recOne gx.1)) ∧ (∃ t, s.advanceCons 20 15 0 = .ok t) ∧ recChv (recOne gx.1) = false ∧
    recFault (recOne gx.1) = gx.2 ∧ recJinit (recOne gx.1) = 0 := by
  intro gx h
  simp only [List.mem_cons, List.not_mem_nil, or_false] at h
  rcases h with rfl | rfl <;>
    exact ⟨ok_of (by decide +kernel), ok_some (by decide +kernel), by decide +kernel, by decide +kernel, by decide +kernel⟩

theorem ok_chain {ε α : Type} {x : Except ε α} {f : α → Except ε α} (h : (x.bind f).isOk = true) : ∃ u v, x = .ok u ∧ f u = .ok v := by
  cases x with
  | error e => cases h
  | ok a => obtain ⟨v, hv⟩ := ok_some h; exact ⟨a, v, rfl, hv⟩

/-- A push held at a dispatcher, of a queue. -/
def pushOf (q : Nat) : Push := ⟨recOne 1, q, false, 0, none, none⟩

/-- A push to each side of the queues there are. -/
theorem wit_QueueAndDispatchSteps_push : (79 < (pushOf 80).queue ∨ ((pushOf 80).queue < 64 ∧ 8 ≤ 20)) ∧ (pushOf 63).cont = false ∧
    recChv (pushOf 63).record = false ∧ (∀ q ∈ [64, 79], 64 ≤ (pushOf q).queue ∧ (pushOf q).queue ≤ 79) ∧ (pushOf 63).frameCopy = none ∧
    ({ Dispatcher.reset with hold := [pushOf 63] } : Dispatcher).holdSpill = [] := by decide +kernel

/-- A queue with all of its 16 places reserved, and an empty one, which takes a record. -/
theorem wit_QueueAndDispatchSteps_room :
    (sQueue 20 15 true 16 0).dispRead 20 0 0x10000 16 1 = .ok (bytesOfNat 16 16) ∧
    2 ^ (4#4).toNat ≤ (natOfBytes ((bytesOfNat 16 16).take 8) + 2 ^ 64 - natOfBytes ((bytesOfNat 16 16).drop 8)) % 2 ^ 64 ∧
    (sQueue 20 15 true 0 0).dispRead 20 0 0x10000 16 1 = .ok (bytesOfNat 16 0) ∧
    ∃ u v, (sQueue 20 15 true 0 0).dispWrite 20 0 0x10000 (bytesOfNat 8 (0 + 1)) = .ok u ∧
      u.dispWrite 20 0 0x10040 (bytesOfNat 64 (recSet (recOne 1) 63 1 1).toNat) = .ok v :=
  ⟨ok_of (by decide +kernel), by decide, ok_of (by decide +kernel), ok_chain (by decide +kernel)⟩

/-- A grid of a dispatcher with one element, whose record has a given BPS. -/
def gridOne (disp bps : Nat) : Grid :=
  { disp := disp, queue := some 0, index := 0, record := recSet (recOne 1) 53 1 bps, acceptedAt := 0, asid := 0, thrm := false, nextElem := 0
    finished := 0, brk := none, loc := none, fatal := none, gone := false }

/-- That element ready at its dispatcher. -/
def sItem (disp bps : Nat) (d : Dispatcher) : State :=
  { State.reset with
    boot := { State.reset.boot with phase := .ready }
    grids := [(5, gridOne disp bps)]
    disp := [(disp, { d with items := [⟨5, 0, false, 0, 0, 0⟩] })] }

/-- The promotion of an item at its time, and just before. -/
theorem wit_QueueAndDispatchSteps_promote : let i : Item := ⟨5, 0, false, 0, 0, 6⟩;
    i.prio < 7 ∧ i.since + 100 * microsecond * (i.prio + 1 - i.base) ≤ 100 * microsecond * 7 ∧
    100 * microsecond * 7 - 1 < i.since + 100 * microsecond * (i.prio + 1 - i.base) := by decide

/-- A batch for die 0, of one bundle and of a spread of 48. -/
theorem wit_QueueAndDispatchSteps_batch : ∀ bps ∈ [0, 48], let s := sItem 20 bps { Dispatcher.reset with free := [(0, 48)] };
    let g := gridOne 20 bps;
    s.firstItem 20 = some ⟨5, 0, false, 0, 0, 0⟩ ∧ s.grid? 5 = some g ∧ g.disp = 20 ∧ 0 = g.nextElem ∧ recChv g.record = false ∧
      s.batchDie g.thrm (s.batchDies (Nat.min (64 / recMembers g.record) (recElements g.record - g.nextElem) * recMembers g.record)) =
        some 0 := by
  decide +kernel

/-- Every core of die 7 reserved for higher priorities, and none of them but core 191. -/
theorem wit_QueueAndDispatchSteps_place : let i : Item := ⟨5, 0, false, 0, 0, 0⟩; let d := Dispatcher.reset;
    let all := sItem 7 0 { d with reserved := (List.range 192).map (fun c => (c, 7, none)) };
    let last := sItem 7 0 { d with reserved := [(191, 7, none)], coreCursor := 191 };
    let spread := sItem 7 48 { d with clusterCursor := 3 };
    all.takesWork 7 = true ∧ (all.die 7).wreq = false ∧ all.firstItem 7 = some i ∧ (∀ c, c < 192 → all.canHold 7 c i 0 = false) ∧
    last.canHold 7 0 i 0 = true ∧ last.canHold 7 191 i 0 = false ∧
    ∃ cs, spread.spreadCores 7 3 i = some cs := by
  refine ⟨by decide +kernel, rfl, rfl, fun c hc => ?_, by decide +kernel, by decide +kernel,
    Option.isSome_iff_exists.mp (by decide +kernel)⟩
  have hb : (sItem 7 0 { Dispatcher.reset with reserved := (List.range 192).map (fun c => (c, 7, none)) }).barred 7 c 0 = true := by
    have hm : ((c, 7, none) : Nat × Nat × Option Nat) ∈ (List.range 192).map (fun c => (c, 7, none)) :=
      List.mem_map.mpr ⟨c, List.mem_range.mpr hc, rfl⟩
    exact List.any_eq_true.mpr ⟨_, hm, by simp⟩
  simp [State.canHold, hb]

/-! ### Pre-emption -/

/-- A request for one core, with a minimal priority of 7, of the last cluster. -/
def reqOne : PeReq :=
  { id := 3, count := 1, clusters := false, prio := 7, cmask := 8, tout := 255, start := 0, victims := [], saved := [], dieoff := false
    begun := false, late := false }

/-- PEREQ's bit 18 set: counts 0, 193 of cores, 5 of clusters and no mask; and counts 1 and 192 of cores and 4 of clusters. -/
theorem wit_PreemptionSteps :
    (∀ n ∈ [0x4F000, 0x40001, 0x4F0C1, 0x4F105], let v := BitVec.ofNat 32 n;
      v.getLsbD 18 = true ∧ (bitsAt v.toNat 0 8 = 0 ∨ (if v.getLsbD 8 then 4 else 192) < bitsAt v.toNat 0 8 ∨ v.extractLsb' 12 4 = 0)) ∧
    (∀ n ∈ [0x4F001, 0x4F0C0, 0x4F104], let v := BitVec.ofNat 32 n;
      v.getLsbD 18 = true ∧
      ¬ (bitsAt v.toNat 0 8 = 0 ∨ (if v.getLsbD 8 then 4 else 192) < bitsAt v.toNat 0 8 ∨ v.extractLsb' 12 4 = 0 ∨
        (State.reset.pestatOf 7 (bitsAt v.toNat 16 2)).st ∈ [PeStage.queued, .halting, .saving])) := by decide +kernel

/-- Die 7 with a dispatcher, and bundles on core 191. -/
def sPre (d : Dispatcher) (bs : List (Nat × Bundle)) : State :=
  { State.reset with time := 100, disp := [(7, d)], cores := [(⟨7, 191⟩, { Core.reset with bundles := bs })] }

/-- A bundle that runs, of grid 5. -/
def bRun : Bundle := { Bundle.reset with grid := 5, begun := true, ready := true }

/-- The last cluster's cores but one reserved. -/
def dPre (r : PeReq) : Dispatcher :=
  { Dispatcher.reset with reqs := [r], reserved := (List.range 47).map (fun c => (144 + c, 7, none)) }

/-- No unit may be taken; an empty core; and a core with one bundle of lower priority. -/
theorem wit_PreemptionSteps_start : let s := sPre (dPre reqOne);
    (sPre (dPre { reqOne with cmask := 0 }) []).rankedUnits 7 { reqOne with cmask := 0 } = [] ∧
    (∀ bs ∈ [[], [(15, bRun)]], ∃ us, (s bs).rankedUnits 7 reqOne = [191] :: us) ∧ (s []).residents 7 191 = [] ∧
    (s []).reservedCore 7 191 = false ∧ (s []).shadowUsed 7 ≤ shadowSize ∧
    (s [(15, bRun)]).residents 7 191 = [(15, bRun)] ∧ bRun.prio < reqOne.prio ∧ (s [(15, bRun)]).spreadOf 7 bRun = [(191, 15)] ∧
    (s [(15, bRun)]).shadowUsed 7 + (s [(15, bRun)]).saveBytes 7 [(191, 15)] ≤ shadowSize := by
  refine ⟨by decide +kernel, fun bs h => ?_, rfl, by decide +kernel, by decide +kernel, rfl, by decide, by decide +kernel, by decide +kernel⟩
  simp only [List.mem_cons, List.not_mem_nil, or_false] at h
  rcases h with rfl | rfl <;> exact List.head?_eq_some_iff.mp (by decide +kernel)

/-- A request in service whose victim has halted, or has a warp that has not; a request saved; and its time limit met, and just not. -/
theorem wit_PreemptionSteps_serve : let r := { reqOne with begun := true, victims := [(191, 15)] };
    let s := sPre { Dispatcher.reset with reqs := [r] } [(15, bRun)];
    let w : WarpId := ⟨7, 191, 0, 0⟩;
    let u := { s with warps := [(w, { Warp.reset with bslot := 15 })], threads := [(⟨w, 0⟩, { Thread.reset with st := .ready })] };
    s.inService 7 = some r ∧ lookup? 15 (s.core ⟨7, 191⟩).bundles = some bRun ∧ s.whollyHalted 7 (191, 15) = true ∧
    s.bundleDrained ⟨7, 191⟩ 15 = true ∧ u.whollyHalted 7 (191, 15) = false ∧
    (sPre { Dispatcher.reset with reqs := [{ r with saved := [(191, 15)] }] } [(15, bRun)]).inService 7 = some { r with saved := [(191, 15)] } ∧
    r.tout ≠ 0 ∧ 10 * r.tout * microsecond - 1 < r.start + 10 * r.tout * microsecond := by
  decide +kernel

/-- A context read back into a bundle that runs. -/
theorem wit_PreemptionSteps_restore :
    let v : Saved := ⟨7, bRun, [], [], [], [], [], [], [], false, some (191, 15), false⟩;
    let s := { sPre Dispatcher.reset [(15, bRun)] with shadow := [v] };
    nth? s.shadow 0 = some v ∧ v.restoring = some (191, 15) ∧ v.die = 7 ∧ (s.bundleAt ⟨7, 191⟩ 15).begun = true := ⟨rfl, rfl, rfl, rfl⟩

/-- A fatal cause that has reached given dies. -/
def fatalAt (reached : List (Nat × Nat)) : Fatal :=
  ⟨Trap.sync 3 1 0, 0, 7, 0, 0, 0, 0, 0, 0, false, 0, none, 0, false, false, reached⟩

/-- Grid 5 with that cause, resident on die 7 with one warp that a thread keeps from halting, or not at all. -/
def sFatal (reached : List (Nat × Nat)) (res : Bool) : State :=
  let w : WarpId := ⟨7, 191, 0, 0⟩
  { sPre Dispatcher.reset (if res then [(15, bRun)] else []) with
    time := 10 * microsecond
    grids := [(5, { gridOne 7 0 with fatal := some (fatalAt reached) })]
    warps := if res then [(w, { Warp.reset with bslot := 15, halt := some (.fatal 5) })] else []
    threads := if res then (⟨w, 0⟩, { Thread.reset with st := .ready }) ::
      (List.range 31).map (fun l => (⟨w, l + 1⟩, { Thread.reset with st := .exited })) else [] }

theorem wit_PreemptionSteps_fatal : let w : WarpId := ⟨7, 191, 0, 0⟩;
    (∀ r, (sFatal r false).grid? 5 = some { gridOne 7 0 with fatal := some (fatalAt r) }) ∧
    (∀ p ∈ (fatalAt []).reached, p.1 ≠ 7) ∧ (sFatal [] false).gridBundles 7 5 = [] ∧
    (sFatal [] true).gridBundles 7 5 = [(⟨7, 191⟩, 15)] ∧ lookup? 15 ((sFatal [] true).core ⟨7, 191⟩).bundles = some bRun ∧
    (sFatal [(7, 0)] true).forcedHalt 5 7 = true ∧ (sFatal [] true).warpsOf ⟨7, 191⟩ 15 = [w] ∧
    ((sFatal [] true).warp w).halt = some (.fatal 5) ∧
    w.threads.filter (fun x => ((sFatal [] true).thread x).forceable) = [⟨w, 0⟩] ∧
    (sFatal [(7, 0)] false).dumpReady 5 (fatalAt [(7, 0)]) = true ∧ recChv (gridOne 7 0).record = false ∧
    (sFatal [(7, 0)] false).writeDump { gridOne 7 0 with fatal := some (fatalAt [(7, 0)]) } (fatalAt [(7, 0)]) 5 =
      .ok (sFatal [(7, 0)] false, 0, 0) := by
  refine ⟨fun r => rfl, by decide, by decide +kernel, by decide +kernel, rfl, by decide +kernel, by decide +kernel, by decide +kernel, ?_,
    by decide +kernel, by decide +kernel, ok_of (by decide +kernel)⟩
  decide +kernel

/-! ### Endpoints, die states and events -/

/-- A request of a type from an endpoint of a socket, about virtual address 0x10000 of address space 0. -/
def epMsg (typ : BitVec 16) (dsock ssock : Nat) (arg : BitVec 32) : EpMsg :=
  { dsock := dsock, dep := 0, ssock := ssock, sep := 0, typ := typ, seq := 0, len := 9, sts := 0, arg := arg, body := bytesOfNat 9 0x10000 }

/-- That request waiting. -/
def sMsg (s : State) (m : EpMsg) : State := { s with mgmt := { s.mgmt with requests := [m] } }

/-- A sender of each kind; a message of any type and a source with no part in it. -/
theorem wit_MessageSteps : (∀ typ, (epMsg typ 19 3 0).typ = typ ∧ (epMsg typ 19 19 0).sender = .other) ∧ (epMsg 0x10 0 255 0).sender = .host ∧
    (epMsg 0x10 0 7 0).sender = .dieManager ∧ (epMsg 0x40 0 21 0).sender = .serviceCore ∧
    (∀ m, nth? (sMsg State.reset m).mgmt.requests (sMsg State.reset m).pick = some m) :=
  ⟨fun _ => ⟨rfl, by simp [EpMsg.sender, epMsg]⟩, by decide, by decide, by decide, fun _ => rfl⟩

/-- Classes and registers at the ends of their ranges. -/
theorem wit_MessageSteps_args : (0x3F#32).toNat % 256 < 0x40 ∧ 0x40 ≤ (0x40#32).toNat % 256 ∧ 4 ≤ (4#32).toNat ∧ (7#32).toNat ≤ 7 ∧
    ¬ (4 ≤ (3#32).toNat ∧ (3#32).toNat ≤ 7) ∧ ¬ (4 ≤ (8#32).toNat ∧ (8#32).toNat ≤ 7) ∧
    (let sec := 3 * 2 ^ 32 - 1; sec * 64 < localEnd ∧ stackOffset (sec * 64) = (0x3FFFFFFF#32).toNat % 2 ^ 30 * 64) := by decide +kernel

/-- A message for die 7 about a page that its tables map, with an access of the old translation, or none; and about one they do not map. -/
def sUnmap (busy : Bool) (m : EpMsg) : State :=
  { sMsg (sWalk true) m with coh := { (sWalk true).coh with accesses := if busy then [laneAccess x0 1 .read 0x10000 0x20000 4 2] else [] } }

/-- The leaf that maps it. -/
def leafOne : LeafAt := ⟨0x10000, 3, 0x20007⟩

theorem ok_and {ε α : Type} {x : Except ε α} {P : α → Prop} [∀ a, Decidable (P a)]
    (h : (match x with | .ok v => decide (P v) | .error _ => false) = true) : ∃ a, x = .ok a ∧ P a := by
  cases x with
  | ok a => exact ⟨a, rfl, of_decide_eq_true h⟩
  | error e => cases h

theorem wit_MessageSteps_unmap : let m := epMsg 0x20 7 255 0;
    m.sender ≠ .other ∧ (sUnmap false m).mgmt.unmaps = [] ∧ (let n := { m with body := [] };
      (sUnmap false n).leafOf 7 n.asid n.va = .ok none) ∧
    (sUnmap false m).leafOf 7 m.asid m.va = .ok (some leafOne) ∧ (sUnmap true m).leafOf 7 m.asid m.va = .ok (some leafOne) ∧
    (∃ t, (sUnmap false m).clearEntries 7 (leafOne.entries m.va) = .ok t ∧ t.mgmt.unmaps = [] ∧
      (t.takeRequest.shootDown m.asid m.va).pageBusy (pteOut leafOne.entry) (pageBytes leafOne.entry) = false) ∧
    (∃ t, (sUnmap true m).clearEntries 7 (leafOne.entries m.va) = .ok t ∧ t.mgmt.unmaps = [] ∧
      (t.takeRequest.shootDown m.asid m.va).pageBusy (pteOut leafOne.entry) (pageBytes leafOne.entry) = true) :=
  ⟨by decide, rfl, ok_of (by decide +kernel), ok_of (by decide +kernel), ok_of (by decide +kernel), ok_and (by decide +kernel),
    ok_and (by decide +kernel)⟩

/-- An arrived message, for an endpoint of hardware and of firmware; a reply for the host and for another. -/
def sArrived (p : Packet) : State := { State.reset with net := { State.reset.net with inbox := [(20, p)] } }

theorem wit_MessageSteps_arrived : ∀ p, nth? (sArrived p).net.inbox (sArrived p).pick = some (20, p) := fun _ => rfl

/-- A reply and the host's ring: not enabled, full, with room. -/
theorem wit_MessageSteps_reply : let g := State.reset.mgmt;
    g.hmbEn = false ∧ Nat.min g.ringSize 65535 ≤ ((BitVec.ofNat 16 g.ringSize) - 0).toNat ∧
    ((BitVec.ofNat 16 (g.ringSize - 1)) - 0).toNat < Nat.min g.ringSize 65535 ∧ g.hmbProd = g.hmbCons := by decide

/-- A request for die k whose state, and that of die 8, are given. -/
def sDie (m : EpMsg) (k : Nat) (st md : BitVec 2) : State :=
  let s := sMsg State.reset m
  { s with mgmt := { s.mgmt with dieState := if k = 8 then [(8, st)] else [(k, st), (8, md)], draining := [] } }

theorem wit_DieAndEventSteps : (epMsg 0x30 19 255 0).sender = .host ∧ 20 ≤ (epMsg 0x30 20 255 0).dsock ∧
    (∀ st, (sDie (epMsg 0x30 19 255 0) 19 st 0).stateOf 19 = st ∧ (sDie (epMsg 0x30 7 255 0) 7 st 0).stateOf 7 = st) ∧
    (∃ j, 8 ≤ j ∧ j < 20 ∧ j ≠ 19 ∧ (sDie (epMsg 0x30 19 255 0) 19 0 1).stateOf j ≠ 0) ∧
    (∀ j, 8 ≤ j → j < 20 → j ≠ 19 → (sDie (epMsg 0x30 19 255 0) 19 0 0).stateOf j = 0) ∧
    ((sDie (epMsg 0x30 7 255 0) 7 0 0).dispatcher 7).items = [] ∧ ((sDie (epMsg 0x30 7 255 0) 7 0 0).dispatcher 7).batch = [] ∧
    (∀ x ∈ (sDie (epMsg 0x31 7 255 0) 7 2 0).mgmt.draining, x.1 ≠ 7) := by
  refine ⟨by decide, by decide, fun st => ⟨rfl, rfl⟩, ⟨8, by decide⟩, fun j h1 h2 h3 => ?_, rfl, rfl, by decide⟩
  rcases (by omega : j = 8 ∨ (j ≠ 8 ∧ j ≠ 19)) with rfl | ⟨h4, h5⟩
  · decide
  · simp [sDie, sMsg, State.stateOf, lookupD, lookup?, Ne.symm h4, Ne.symm h5]

/-- Die 19 drains beside die 8, which is OFFLINE; the page table's last entry lies in far memory and maps a local page, which may have room
there or, where a dump area takes the window, none; its migration is to clear that entry, or has not begun. -/
def sMove (room begun : Bool) : State :=
  { State.reset with
    boot := { State.reset.boot with phase := .ready }
    dies := [(0, { Die.reset with roots := [(0, { rootOn with root := BitVec.ofNat 44 (farBase - 16376) })] })]
    disp := if room then [] else [(0, { Dispatcher.reset with queues := [(0, { Queue.reset with dumpHi := 0x100, dumpSize := 0xFFFFF })] })]
    mgmt := { State.reset.mgmt with
      dieState := [(8, 2), (19, 1)], draining := [(19, epMsg 0x30 19 255 0)]
      fmb := [(0, 0x80000400)], fml := [(0, 0x400)]
      migration := if begun then some ⟨0x20000, 4096, farBase + 0x4000, [], [farBase], 0, []⟩ else none }
    coh := { Coherence.reset with lines := [((0, farBase / 64), { Line.reset with far := true, dv := true, hs := .e, data := 0x20007 })] } }

/-- What its page table maps. -/
def mappedOne : Mapped := ⟨[⟨0, 2047 * 2 ^ 45, farBase, 0x20007⟩], [farBase - 16376]⟩

theorem wit_DieAndEventSteps_migrate : (∀ room begun, (sMove room begun).mgmt.draining = [(19, epMsg 0x30 19 255 0)]) ∧
    (∀ room ∈ [false, true], let s := sMove room false;
      s.stateOf 19 = 1 ∧ s.mgmt.migration = none ∧ s.mapped s.movingDie = .ok mappedOne ∧ s.localStructure mappedOne = false ∧
      mappedOne.leaves.find? s.mapsLocal = some ⟨0, 2047 * 2 ^ 45, farBase, 0x20007⟩ ∧
      (s.farRoom mappedOne (pageBytes 0x20007)).isSome = room) ∧
    (let s := sMove true true;
      ∃ x t, s.mgmt.migration = some x ∧ s.migrateStep s.movingDie x = .ok t) := by
  refine ⟨fun _ _ => rfl, fun room h => ?_, ⟨0x20000, 4096, farBase + 0x4000, [], [farBase], 0, []⟩, ?_⟩
  · simp only [List.mem_cons, List.not_mem_nil, or_false] at h
    rcases h with rfl | rfl <;>
      exact ⟨by decide +kernel, rfl, ok_of (by decide +kernel), by decide +kernel, by decide +kernel, by decide +kernel⟩
  · obtain ⟨t, ht⟩ := ok_some (x := (sMove true true).migrateStep (sMove true true).movingDie ⟨0x20000, 4096, farBase + 0x4000, [], [farBase], 0, []⟩)
      (by decide +kernel)
    exact ⟨t, rfl, ht⟩

/-- A die that drains, or is OFFLINE, with nothing left on it, and a structure in local memory or not. -/
def sDrain (k : Nat) (st : BitVec 2) (ring : Bool) : State :=
  { State.reset with mgmt := { State.reset.mgmt with
      dieState := [(k, st)], draining := [(k, epMsg 0x30 k 255 0)], evring := if ring then [(24, 0x30000)] else [] } }

theorem wit_DieAndEventSteps_drain : (∀ k st r, (sDrain k st r).mgmt.draining = [(k, epMsg 0x30 k 255 0)]) ∧ (sDrain 7 1 false).stateOf 7 = 1 ∧
    ((sDrain 7 1 false).dispatcher 7).reqs = [] ∧ (sDrain 7 1 false).locationsOn 7 = [] ∧ (sDrain 7 1 false).dieEmpty 7 = true ∧
    (∀ r ∈ [false, true], let s := sDrain 19 1 r; s.mapped s.movingDie = .ok ⟨[], []⟩ ∧ s.localStructure ⟨[], []⟩ = r ∧
      s.mgmt.migration = none) ∧
    (sDrain 8 1 false).stateOf 8 = 1 ∧ (sDrain 19 2 false).stateOf 19 = 2 := by
  refine ⟨fun _ _ _ => rfl, by decide, by decide, by decide, by decide, fun r h => ?_, by decide, by decide⟩
  simp only [List.mem_cons, List.not_mem_nil, or_false] at h
  rcases h with rfl | rfl <;> exact ⟨rfl, by decide, rfl⟩

/-- An event held for an owner, with a ring of 64 entries in local memory for owner 24, which I/O die 20's cache owns. -/
def sEvent (owner : Nat) : State :=
  { sDrain 24 0 true with
    coh := { Coherence.reset with lines := [(0xC00, 0x6000000000000000000000000), (0xC01, 0)].map (fun p =>
      ((20, p.1), { Line.reset with tok := 16, own := true, dv := true, data := p.2 })) }
    mgmt := { (sDrain 24 0 true).mgmt with evEn := true, events := [⟨0x40, 7, 0, 0, 0, some owner⟩] } }

theorem wit_DieAndEventSteps_deliver :
    (∀ o ∈ [0, 1, 24], (sEvent o).mgmt.events.find? (fun e => decide (e.owner = some o)) = some ⟨0x40, 7, 0, 0, 0, some o⟩) ∧
    State.reset.mgmt.evEn = false ∧ (sEvent 0).mgmt.evEn = true ∧
    ((sEvent 0).mgmt.evPi - (sEvent 0).mgmt.evCi).toNat < 2 ^ (sEvent 0).mgmt.evLog.toNat ∧ lookup? 1 (sEvent 1).mgmt.evring = none ∧
    lookup? 24 (sEvent 24).mgmt.evring = some 0x30000 ∧ (sEvent 24).physRead 20 0 0x30000 16 = .ok (bytesOfNat 16 (6 * 2 ^ 96)) ∧
    bitsAt (natOfBytes (bytesOfNat 16 (6 * 2 ^ 96))) 96 8 = 6 ∧
    (∃ u v, (sEvent 24).physWrite 20 0 0x30040 (⟨0x40, 7, 0, 0, 0, some 24⟩ : EventRec).bytes = .ok u ∧
      u.physWrite 20 0 0x30000 (bytesOfNat 4 (0 + 1)) = .ok v) :=
  ⟨by decide, rfl, rfl, by decide, by decide, by decide, ok_of (by decide +kernel), by decide +kernel, ok_chain (by decide +kernel)⟩

/-! ### Rules stated whole, and the machine -/

/-- A word pair of 32 bits and one of 64, a word of tag 15. -/
theorem wit_LogicRule : let c := ctx sInt;
    Solo (.andn 12 0 0 1 4) sInt fetchKey c ∧ c.sources [fld 1, fld 4] = .ok [oneReg 0x7FFFFFFF tagS32, oneReg 33 tagN32] ∧
    c.narrowBad 13 [fld 1, fld 4] = false ∧ (∃ n, c.dest (fld 0) false = .ok n) ∧
    Solo (.xor 12 0 0 6 4) sInt fetchKey c ∧ c.sources [fld 6, fld 4] = .ok [⟨0x2000, tagN64⟩, oneReg 33 tagN32] ∧
    c.narrowBad 12 [fld 6, fld 4] = false ∧ sInt.canTrap c.tid ∧
    Solo (.andi 12 0 0 8 127) sInt fetchKey c ∧ c.sources [fld 8] = .ok [oneReg 0x7F800000 tagF32] ∧
    c.narrowBad 19 [fld 8] = false :=
  ⟨⟨rfl, rfl, by decide, rfl, rfl, rfl⟩, rfl, by decide, ⟨_, rfl⟩, ⟨rfl, rfl, by decide, rfl, rfl, rfl⟩, rfl, by decide, ⟨by decide, rfl, rfl⟩,
    ⟨rfl, rfl, by decide, rfl, rfl, rfl⟩, rfl, by decide⟩

/-- A source that is chosen, of each width, one of tag 15 on the side not chosen, and `zr`. -/
def sSel : State := solo (holding [⟨1, tagS32⟩, ⟨2, 15⟩, ⟨0x2000, tagN64⟩, ⟨0, tagN64⟩]) handled

theorem wit_SelectRule : let c := ctx sSel;
    sSel.cur = some fetchKey ∧ laneCtxs sSel = [c] ∧ wellFormed (.sel 12 0 0 0 120) = true ∧ c.predVal 12 = .ok true ∧ c.predVal 3 = .ok false ∧
    c.selSource (fld 0) 0 = .ok (oneReg 1 tagS32) ∧ c.selSource (fld 1) 0 = .ok (oneReg 2 15) ∧ c.selSource (fld 1) 2 = .ok (oneReg 2 15) ∧
    c.selSource (fld 2) 2 = .ok ⟨0x2000, tagN64⟩ ∧ (∃ n, c.dest (fld 0) false = .ok n) ∧ sSel.canTrap c.tid ∧
    Solo (.sel 12 0 0 1 0) sSel fetchKey c ∧ Solo (.sel 3 0 0 0 1) sSel fetchKey c ∧ Solo (.sel 12 0 0 0 2) sSel fetchKey c ∧
    isPairTag tagS32 ≠ isPairTag tagN64 :=
  ⟨rfl, rfl, by decide, rfl, rfl, rfl, rfl, rfl, rfl, ⟨_, rfl⟩, ⟨by decide, rfl, rfl⟩, ⟨rfl, rfl, by decide, rfl, rfl, rfl⟩,
    ⟨rfl, rfl, by decide, rfl, rfl, rfl⟩, ⟨rfl, rfl, by decide, rfl, rfl, rfl⟩, by decide⟩

/-- Every selector of PLACE, and the first that it has not. -/
theorem wit_PlaceRule : ∀ n ∈ [0, 1, 2, 3, 4], let x := BitVec.ofNat 32 n; let s := solo (holding [⟨x, tagN32⟩]) handled;
    Solo (.place 12 0 110 0) s fetchKey (ctx s) ∧ (ctx s).word (fld 0) 0 = .ok x ∧ (∃ k, (ctx s).dest (fld 110) true = .ok k) ∧
    x.toNat = n ∧ s.canTrap (ctx s).tid := by
  intro n h
  simp only [List.mem_cons, List.not_mem_nil, or_false] at h
  rcases h with rfl | rfl | rfl | rfl | rfl <;> exact ⟨⟨rfl, rfl, by decide, rfl, rfl, rfl⟩, rfl, ⟨_, rfl⟩, by decide, by decide, rfl, rfl⟩

/-- The last sector with an active request, being mended or not, and a LOST that has arrived for it. -/
def sMend (time : Nat) (m : Bool) (ser : BitVec 8) : State :=
  let p : Packet := ⟨0x33, 0, 0, 7, 19, 7, 0, 0, 3 * 2 ^ 32 - 1, 0, false, false, ser, 0, false, 0, 0, []⟩
  { State.reset with
    time := time, net := { State.reset.net with inbox := [(19, p)] }
    coh := { State.reset.coh with
      preqs := [⟨3 * 2 ^ 32 - 1, 0, 7, true, .active, 0, false, 0⟩], mends := if m then [⟨3 * 2 ^ 32 - 1, 0, [], false⟩] else [] } }

theorem wit_MendStartRule : let sec := 3 * 2 ^ 32 - 1; let s := sMend (50 * microsecond) false 0;
    s.activeHome sec = some ⟨sec, 0, 7, true, .active, 0, false, 0⟩ ∧ s.mendOf sec = none ∧ 0 + 50 * microsecond ≤ s.time ∧
    (sMend (50 * microsecond - 1) false 0).time < 0 + 50 * microsecond ∧
    (∃ p, nth? s.net.inbox s.pick = some (19, p) ∧ p.opc = 0x33 ∧ p.sec = sec ∧ p.ser = (s.homeEntry sec).ser) ∧
    (∃ m, (sMend 0 true 0).mendOf sec = some m) ∧ 1#8 ≠ ((sMend 0 false 1).homeEntry sec).ser :=
  ⟨by decide +kernel, by decide +kernel, by decide, by decide, ⟨_, rfl, rfl, by decide +kernel, by decide +kernel⟩, ⟨_, rfl⟩, by decide⟩

/-! ### Completion of the forms that lanes, engines, the matrix unit and the homes carry out together -/

/-- Predicates of lane 0 under given instructions, one register read as N32 and as S32, and a destination. -/
theorem wit_LaneExchangesComplete :
    (∀ i ∈ ([.pxor 12 11 12 11, .vall 12 0 11, .setp 12 0 2, .redScani 12 0 111 2, .redMax 12 0 111 0, .shfi 12 0 111 0 127] : List Instr), Ready i sPred) ∧
    (let c := ctx sPred
    c.predVal 11 0 = .ok true ∧ c.predVal 12 2 = .ok true ∧ c.dest (fld 111) false = .ok 111 ∧ c.word (fld 2) 0 = .ok 40 ∧
    c.word (fld 2) 2 = .ok 40 ∧ c.src (fld 0) 0 = .ok (oneReg 5 tagS32) ∧ isPairTag tagS32 = false ∧ tagS32 ≠ 15 ∧
    c.sources [fld 2] = .ok [oneReg 40 tagN32] ∧ c.sources [fld 0] = .ok [oneReg 5 tagS32]) := by
  refine ⟨fun i h => ?_, rfl, rfl, rfl, rfl, rfl, rfl, rfl, by decide, rfl, rfl⟩
  simp only [List.mem_cons, List.not_mem_nil, or_false] at h
  rcases h with rfl | rfl | rfl | rfl | rfl | rfl <;>
    exact ⟨rfl, by decide, all_of_one (a := ctx sPred) rfl ⟨true, rfl, fun _ => rfl⟩, rfl⟩

/-- One arrived packet of each kind at a site or a home, the ninth PACK of an entry, the ninth and tenth MRET and the end of 50 µs. -/
theorem wit_HomeMessagesComplete :
    (∀ opc ∈ ([0x20, 0x21, 0x22, 0x23, 0x30, 0x32, 0x03, 0x50, 0x13] : List (BitVec 8)), let s := sCoh 7 (about opc 8) Coherence.reset 5;
      nth? s.net.inbox s.pick = some (7, about opc 8) ∧ (about opc 8).opc = opc) ∧
    (let s := sCoh 8 (about 0x24 7) { Coherence.reset with preqs := [entry .active 8 true] } 5;
      s.coh.preqs.find? (fun e => decide (e.sector = 1) && (decide (e.stage = .active) || decide (e.stage = .ending))) = some (entry .active 8 true) ∧
      (entry .active 8 true).packs + 1 < 10) ∧
    (∀ got ∈ [[0, 1, 2, 3, 4, 5, 6, 20], [0, 1, 2, 3, 4, 5, 6, 20, 21]], ∀ us ∈ [49, 50],
      let s := sCoh 8 (about 0x31 7) (mending got) (us * microsecond);
      s.mendOf 1 = some ⟨1, 0, got, false⟩ ∧ (about 0x31 7).ser = (s.homeEntry 1).ser ∧ (about 0x31 7).src ∉ got ∧
      (if us = 50 then 0 + 50 * microsecond ≤ s.time else s.time < 0 + 50 * microsecond)) ∧
    (∀ opc ∈ ([0x12, 0x51] : List (BitVec 8)), let s := sCoh 7 { about opc 8 with data := [0, 1] } Coherence.reset 5;
      nth? s.net.inbox s.pick = some (7, { about opc 8 with data := [0, 1] }) ∧ s.coh.accesses = []) := by
  refine ⟨fun o h => ?_, ⟨rfl, by decide⟩, fun g h u h' => ?_, fun o h => ?_⟩
  · simp only [List.mem_cons, List.not_mem_nil, or_false] at h
    rcases h with rfl | rfl | rfl | rfl | rfl | rfl | rfl | rfl | rfl <;> exact ⟨rfl, rfl⟩
  · simp only [List.mem_cons, List.not_mem_nil, or_false] at h h'
    rcases h with rfl | rfl <;> rcases h' with rfl | rfl <;> exact ⟨rfl, rfl, by decide, by decide⟩
  · simp only [List.mem_cons, List.not_mem_nil, or_false] at h
    rcases h with rfl | rfl <;> exact ⟨rfl, rfl⟩

/-- An operation of another warp stands in the queue before the one picked; what else the issues of CPY, GTH and MMA and the events of their units
ask for is as in the witnesses of EngineResults and MatrixResults. -/
theorem wit_EnginesAndMatrixComplete :
    (∀ g ∈ [false, true], let j := engJob g (if g then [1] else [0])
      let s := { sEng with jobs := [{ engJob false [] with id := 9 }, j], pick := 1 };
      s.job? j.id = some j ∧ nth? s.jobs s.pick = some j ∧ j.gather = g ∧ j.nextPart = none ∧
      (∀ n, n < j.fills.length → j.committed.testBit n = true) ∧ j.got = [] ∧ s.engAway j = false) ∧
    (let s := { sEng with jobs := [farJob] };
      let va := farJob.elementVa (farJob.num 0 8) 60 0;
      farJob.esz ∈ [1, 2, 4, 8] ∧ va.toNat % 64 + farJob.esz ≤ 64 ∧ ∃ tr, s.locate farJob.warp va farJob.esz 0 0 = .trap tr) ∧
    (∀ fn ∈ [5, 1, 2], let s := { sJob fn with matrix := [{ oneJob 3 with id := 7, warp := ⟨0, 0, 0, 1⟩ }, oneJob fn], pick := 1 };
      nth? s.matrix s.pick = some (oneJob fn) ∧ s.matrix.filter (fun x => decide (x.warp = (oneJob fn).warp)) = [oneJob fn]) := by
  refine ⟨fun g h => ?_, ⟨by decide, by decide, _, rfl⟩, fun fn h => ?_⟩
  · simp only [List.mem_cons, List.not_mem_nil, or_false] at h
    rcases h with rfl | rfl <;> exact ⟨rfl, rfl, rfl, rfl, by decide, rfl, rfl⟩
  · simp only [List.mem_cons, List.not_mem_nil, or_false] at h
    rcases h with rfl | rfl | rfl <;> exact ⟨rfl, by decide⟩

/-- A state whose memory lists bytes, and which steps. -/
theorem wit_MemoryStaysCanonical : let s := { State.reset with mem := [(0, 1), (0xBFFFFFFFFF, 255)], agenda := [.event (.freeReport 8) 0] };
    Memory.wf s.mem = true ∧ ∃ t, step s = .next t := ⟨by decide, _, rfl⟩

/-- An ADD as the first instruction of a run. -/
theorem wit_StepRunsDecoded : let x := 0x7004103; let s := State.reset.withFetchWord 32 x; let g := fetchGroup [BitVec.ofNat 32 x];
    let u : State := { s with agenda := [] }; let k := fetchKey; let i := Instr.add none 12 0 1 2 3; let g1 := g.advance 1 (varDestFields i);
    let v := issueAt k g1 u; let w := enterAll k v;
    s.agenda = [.issue k] ∧ s.group? k = some g ∧ g.fetched = true ∧ g.next < g.len ∧ decodeWords (g.words.drop g.next) = .ok (i, 1) ∧
    u.onDuty k = true ∧ u.issueDue k g = true ∧ isPool i = false ∧ g.next = 0 ∧ g.entered = false ∧ (∀ c ∈ laneCtxs v, regionWaits v g1 c = false) ∧
    placementFault g1 i (blocksHere i v) (k.port == 1) = none ∧ blocksHere i v = false ∧ w.readsPending i = false ∧
    u.unitsFree k { g with here := g.next } i (laneCtxs w) = true :=
  ⟨rfl, rfl, rfl, by decide, rfl, by decide +kernel, by decide +kernel, rfl, rfl, rfl, by decide +kernel, by decide +kernel, by decide +kernel,
    by decide +kernel, by decide +kernel⟩

theorem wit_EncodeDecodes : encode (.invk 0x3FFFFFF 15 1 127 127 127) ≠ [] ∧ encode (.exit 12 0) ≠ [] := by decide

end Sys2Proof.Tests
end

section
/-! PROOFS. Dies going offline and online (R113, R114, R148), and events numbered by the arbiter and delivered to their owners
(R118 to R121). -/

namespace Sys2Proof.DieAndEvents

open Sys2Proof Sys2Proof.Machine

/-! ## What a report changes -/

/-- Handing something to a link changes the transport alone. -/
theorem linkSend_net_only (s : State) (l : Nat) (x : Payload) : ∃ n : Net, s.linkSend l x = { s with net := n } := by
  unfold State.linkSend
  dsimp only
  split
  · exact ⟨s.net, rfl⟩
  · split <;> exact ⟨_, rfl⟩

/-- An event raised goes to the arbiter: nothing but the transport changes. -/
theorem report_net_only (s : State) (cls sock what : Nat) : ∃ n : Net, s.report cls sock what = { s with net := n } := by
  unfold State.report State.raiseEvent
  dsimp only
  split
  · exact ⟨_, rfl⟩
  · exact linkSend_net_only ..

/-- A change of a die's state reaches its own entry and the transport alone. -/
theorem setDieState_eq (s : State) (k : Nat) (v : BitVec 2) :
    ∃ n : Net, s.setDieState k v = { s with net := n, mgmt := { s.mgmt with dieState := put k v s.mgmt.dieState } } :=
  report_net_only _ _ _ _

@[simp] theorem dispatcher_setDieState (s : State) (k : Nat) (v : BitVec 2) (d : Nat) :
    (s.setDieState k v).dispatcher d = s.dispatcher d := by
  obtain ⟨n, h⟩ := setDieState_eq s k v
  rw [h]
  rfl

@[simp] theorem draining_setDieState (s : State) (k : Nat) (v : BitVec 2) : (s.setDieState k v).mgmt.draining = s.mgmt.draining := by
  obtain ⟨n, h⟩ := setDieState_eq s k v
  rw [h]

/-! ## Requests and packets -/

/-- A waiting request of the type looked for, from a source its type allows, is carried out (R111). -/
theorem onRequest_allowed {typ : BitVec 16} {who : List Sender} {s : State} {m : EpMsg} (f : EpMsg → State → State)
    (hm : nth? s.mgmt.requests s.pick = some m) (ht : m.typ = typ) (hw : m.sender ∈ who) : onRequest typ who f s = .next (f m s) := by
  simp [onRequest, State.request?, hm, ht, hw]

/-- An arrived packet of the OPC looked for is carried out by the die it has reached. -/
theorem onPacket_arrived {opc : BitVec 8} {s : State} {d : Nat} {p : Packet} (f : Nat → Packet → State → State)
    (hp : nth? s.net.inbox s.pick = some (d, p)) (ho : p.opc = opc) : onPacket opc f s = .next (f d p s.takeArrived) := by
  simp [onPacket, State.arrived, hp, ho]

/-! ## DIEOFF (R113) -/

theorem otherMemoryOut_iff (s : State) (k : Nat) :
    s.otherMemoryOut k = true ↔ ∃ j, 8 ≤ j ∧ j < 20 ∧ j ≠ k ∧ s.stateOf j ≠ 0 := by
  simp only [State.otherMemoryOut, List.any_eq_true, List.mem_range, Bool.and_eq_true, decide_eq_true_eq, bne_iff_ne]
  constructor
  · rintro ⟨i, hi, hne, hst⟩
    exact ⟨8 + i, by omega, by omega, hne, hst⟩
  · rintro ⟨j, h8, h20, hne, hst⟩
    obtain ⟨i, rfl⟩ := Nat.exists_eq_add_of_le h8
    exact ⟨i, by omega, hne, hst⟩

/-- No other memory die is out where each is ONLINE. -/
theorem otherMemoryOut_eq_false {s : State} {k : Nat} (h : ∀ j, 8 ≤ j → j < 20 → j ≠ k → s.stateOf j = 0) :
    s.otherMemoryOut k = false := by
  rw [Bool.eq_false_iff, Ne, otherMemoryOut_iff]
  rintro ⟨j, h8, h20, hne, hst⟩
  exact hst (h j h8 h20 hne)

theorem onDisp_onDisp (s : State) (d : Nat) (f g : Dispatcher → Dispatcher) :
    (s.onDisp d f).onDisp d g = s.onDisp d (fun q => g (f q)) := by
  simp [State.onDisp, State.setDispatcher, State.dispatcher]

/-- A draining die without unplaced work only takes the request for all its clusters. -/
theorem drainDie_of_no_items {s : State} {k : Nat} (hi : (s.dispatcher k).items = []) (hb : (s.dispatcher k).batch = []) :
    s.drainDie k = s.onDisp k (fun d => { d with batch := [], items := [], reqs := d.reqs ++ [dieoffReq] }) := by
  simp [State.drainDie, State.drainItems, hi, hb, onDisp_onDisp]

theorem dieOff_ioDie {s : State} {m : EpMsg} (hk : 20 ≤ m.dsock) : s.dieOff m = s.reply m 3 3 := by
  simp [State.dieOff, hk]

theorem dieOff_draining {s : State} {m : EpMsg} (hk : m.dsock < 20) (h : s.stateOf m.dsock = 1) : s.dieOff m = s.reply m 1 := by
  simp [State.dieOff, Nat.not_le.2 hk, h]

theorem dieOff_offline {s : State} {m : EpMsg} (hk : m.dsock < 20) (h : s.stateOf m.dsock = 2) : s.dieOff m = s.reply m 0 := by
  simp [State.dieOff, Nat.not_le.2 hk, h]

theorem dieOff_otherMemoryOut {s : State} {m : EpMsg} (h8 : 8 ≤ m.dsock) (hk : m.dsock < 20) (h : s.stateOf m.dsock = 0)
    (ho : s.otherMemoryOut m.dsock = true) : s.dieOff m = s.reply m 1 := by
  simp [State.dieOff, Nat.not_le.2 hk, h, h8, ho]

theorem dieOff_memoryDie {s : State} {m : EpMsg} (h8 : 8 ≤ m.dsock) (hk : m.dsock < 20) (h : s.stateOf m.dsock = 0)
    (ho : s.otherMemoryOut m.dsock = false) :
    s.dieOff m = (s.setDieState m.dsock 1).onMgmt (fun g => { g with draining := g.draining ++ [(m.dsock, m)] }) := by
  simp [State.dieOff, Nat.not_le.2 hk, h, ho, Nat.not_lt.2 h8]

theorem dieOff_computeDie {s : State} {m : EpMsg} (hk : m.dsock < 8) (h : s.stateOf m.dsock = 0)
    (hi : (s.dispatcher m.dsock).items = []) (hb : (s.dispatcher m.dsock).batch = []) :
    s.dieOff m =
      ((s.setDieState m.dsock 1).onMgmt (fun g => { g with draining := g.draining ++ [(m.dsock, m)] })).onDisp m.dsock (fun d => { d with
        batch := [], items := [], reqs := d.reqs ++ [dieoffReq] }) := by
  have h8 : ¬ 8 ≤ m.dsock := Nat.not_le.2 hk
  have h20 : ¬ 20 ≤ m.dsock := by omega
  rw [← drainDie_of_no_items (by simpa only [State.dispatcher_onMgmt, dispatcher_setDieState] using hi)
    (by simpa only [State.dispatcher_onMgmt, dispatcher_setDieState] using hb)]
  simp [State.dieOff, h, hk, h8, h20]

/-! ## Requests about a die answered, and DIEON (R114) -/

/-- With no request about a die waiting, none is answered. -/
theorem answerDraining_of_none {s : State} {k : Nat} (h : ∀ x ∈ s.mgmt.draining, x.1 ≠ k) (sts : Nat) (arg : BitVec 32) :
    s.answerDraining k sts arg = s := by
  have hnone : s.mgmt.draining.filter (fun d => decide (d.1 = k)) = [] := by simpa using h
  have hall : s.mgmt.draining.filter (fun d => decide (d.1 ≠ k)) = s.mgmt.draining := by simpa using h
  simp only [State.answerDraining, hnone, List.foldl_nil, State.onMgmt, hall]

/-- The only request that waits is answered where it is about the die. -/
theorem answerDraining_of_sole {s : State} {k : Nat} {m : EpMsg} (h : s.mgmt.draining = [(k, m)]) (sts : Nat) (arg : BitVec 32) :
    s.answerDraining k sts arg = (s.onMgmt (fun g => { g with draining := [] })).reply m sts arg := by
  simp [State.answerDraining, h, State.onMgmt]

theorem dieOn_online {s : State} {m : EpMsg} (h : s.stateOf m.dsock = 0) : s.dieOn m = s.reply m 0 := by
  simp [State.dieOn, h]

theorem dieOn_memoryDie {s : State} {m : EpMsg} (h8 : 8 ≤ m.dsock) (h : s.stateOf m.dsock = 2) :
    s.dieOn m = s.onMgmt (fun g => { g with draining := g.draining ++ [(m.dsock, m)] }) := by
  simp [State.dieOn, h, h8]

theorem dieOn_computeDie {s : State} {m : EpMsg} (hk : m.dsock < 8) (h : s.stateOf m.dsock = 2)
    (hd : ∀ x ∈ s.mgmt.draining, x.1 ≠ m.dsock) :
    s.dieOn m = ((s.setDieState m.dsock 0).onDisp m.dsock (fun d => { d with
      reqs := d.reqs.filter (fun r => !r.dieoff || r.begun) })).reply m 0 := by
  have h8 : ¬ 8 ≤ m.dsock := Nat.not_le.2 hk
  simp [State.dieOn, h, h8, answerDraining_of_none hd]

/-! ## The end of a drain (R113, R148) -/

theorem draining_any {s : State} {k : Nat} {m : EpMsg} (hm : (k, m) ∈ s.mgmt.draining) :
    s.mgmt.draining.any (fun d => decide (d.1 = k)) = true :=
  List.any_eq_true.2 ⟨_, hm, by simp⟩

/-- A page on its way to far memory goes on, whichever memory die the step names. -/
theorem execDieDrainDone_migrating {s : State} {k : Nat} {x : Migration} (h8 : 8 ≤ k) (h20 : k < 20) (hx : s.mgmt.migration = some x)
    (why : BitVec 3) : execDieDrainDone k why s = .next (s.migrateOn x) := by
  simp [execDieDrainDone, h8, h20, hx]

/-- A compute die in DRAIN, about which a request waits, is brought nearer its end. -/
theorem execDieDrainDone_computeDie {s : State} {k : Nat} {m : EpMsg} (hk : k < 8) (hst : s.stateOf k = 1)
    (hm : (k, m) ∈ s.mgmt.draining) (why : BitVec 3) : execDieDrainDone k why s = .next (s.drainStep k) := by
  have h20 : ¬ 20 ≤ k := by omega
  simp [execDieDrainDone, draining_any hm, hst, hk, Nat.not_le.2 hk, h20]

/-- A memory die in DRAIN, about which a request waits, is brought nearer its end while no page is on its way. -/
theorem execDieDrainDone_memoryDie {s : State} {k : Nat} {m : EpMsg} (h8 : 8 ≤ k) (h20 : k < 20) (hst : s.stateOf k = 1)
    (hx : s.mgmt.migration = none) (hm : (k, m) ∈ s.mgmt.draining) (why : BitVec 3) :
    execDieDrainDone k why s = .next (s.memoryDrained k why.toNat) := by
  simp [execDieDrainDone, draining_any hm, hst, hx, Nat.not_le.2 h20, Nat.not_lt.2 h8]

/-- No bundle stands on a die that is empty. -/
theorem no_bundles_of_dieEmpty {s : State} {k : Nat} (h : s.dieEmpty k = true) :
    s.cores.any (fun c => decide (c.1.die = k) && !c.2.bundles.isEmpty) = false := by
  simp only [State.dieEmpty, Bool.and_eq_true] at h
  obtain ⟨⟨⟨⟨hcores, -⟩, -⟩, -⟩, -⟩ := h
  rw [List.any_eq_false]
  intro c hc
  have hcore := List.all_eq_true.1 hcores c hc
  by_cases hd : c.1.die = k
  · simp only [hd, ne_eq, not_true_eq_false, decide_false, Bool.false_or, Bool.and_eq_true] at hcore
    simp [hcore.1]
  · simp [hd]

/-- A compute die with nothing left on it is OFFLINE, and the requests about it are answered. -/
theorem drainStep_of_empty {s : State} {k : Nat} (hr : (s.dispatcher k).reqs = []) (hl : s.locationsOn k = []) (he : s.dieEmpty k = true) :
    s.drainStep k = (s.setDieState k 2).answerDraining k 0 0 := by
  simp [State.drainStep, no_bundles_of_dieEmpty he, hr, hl, he]

/-- A reason that the firmware has found is the answer, and the die stays in DRAIN. -/
theorem memoryDrained_of_reason {s : State} {k why : Nat} (h : why = 1 ∨ why = 2 ∨ why = 4) :
    s.memoryDrained k why = s.answerDraining k 3 (BitVec.ofNat 32 why) := if_pos h

section Leaves

variable {s : State} {mp : Mapped} (k : Nat) (hmp : s.mapped s.movingDie = .ok mp)
include hmp

theorem memoryDrained_localStructure (hs : s.localStructure mp = true) : s.memoryDrained k 0 = s.answerDraining k 3 4 := by
  simp [State.memoryDrained, hmp, hs]

theorem memoryDrained_noLeaf (hs : s.localStructure mp = false) (hl : mp.leaves.find? s.mapsLocal = none) :
    s.memoryDrained k 0 = (s.setDieState k 2).answerDraining k 0 0 := by
  simp only [State.memoryDrained, hmp, hs, hl]
  rfl

theorem memoryDrained_noRoom {l : MappedLeaf} (hs : s.localStructure mp = false) (hl : mp.leaves.find? s.mapsLocal = some l)
    (hr : s.farRoom mp (pageBytes l.entry) = none) : s.memoryDrained k 0 = s.answerDraining k 3 2 := by
  simp [State.memoryDrained, hmp, hs, hl, hr]

theorem memoryDrained_room {l : MappedLeaf} {d : Nat} (hs : s.localStructure mp = false) (hl : mp.leaves.find? s.mapsLocal = some l)
    (hr : s.farRoom mp (pageBytes l.entry) = some d) : s.memoryDrained k 0 = s.beginMigration mp l d := by
  simp [State.memoryDrained, hmp, hs, hl, hr]

end Leaves

/-- A memory die retrained comes back zeroed and ONLINE, and the requests about it are answered (R114). -/
theorem execMemoryDieRestoreDone_offline {s : State} {k : Nat} {m : EpMsg} (h8 : 8 ≤ k) (h20 : k < 20) (hst : s.stateOf k = 2)
    (hm : (k, m) ∈ s.mgmt.draining) :
    execMemoryDieRestoreDone k s = .next (((s.clearStack k).setDieState k 0).answerDraining k 0 0) := by
  simp [execMemoryDieRestoreDone, draining_any hm, hst, Nat.not_le.2 h20, Nat.not_lt.2 h8]

/-! ## Events into their owners' rings (R121) -/

/-- The host's ring takes nothing while it is not set up or full. -/
theorem deliverHost_noRoom {s : State} (e : EventRec)
    (h : s.mgmt.evEn = false ∨ 2 ^ s.mgmt.evLog.toNat ≤ (s.mgmt.evPi - s.mgmt.evCi).toNat) : s.deliverHost e = none := by
  rcases h with h | h
  · simp [State.deliverHost, h]
  · simp only [State.deliverHost, decide_eq_true h, Bool.or_true, if_true]

theorem deliverHost_room {s : State} (e : EventRec) (hen : s.mgmt.evEn = true)
    (h : (s.mgmt.evPi - s.mgmt.evCi).toNat < 2 ^ s.mgmt.evLog.toNat) :
    s.deliverHost e = some (s.onMgmt (fun m => { m with
      evPi := m.evPi + 1
      hostMem := writeCells ((s.mgmt.evbh ++ s.mgmt.evbl).toNat / 4096 * 4096 + 32 * (s.mgmt.evPi.toNat % 2 ^ s.mgmt.evLog.toNat))
        e.bytes m.hostMem })) := by
  simp only [State.deliverHost, hen]
  rw [if_neg (by simpa using h)]

theorem deliverCore_noRing {s : State} {owner : Nat} (e : EventRec) (h : lookup? owner s.mgmt.evring = none) :
    s.deliverCore owner e = .ok none := by
  simp [State.deliverCore, h]

/-- A core's ring whose header gives a size and room takes the record at PIDX, and PIDX goes on. -/
theorem deliverCore_room {s u v : State} {owner a pidx log : Nat} {e : EventRec} {ring : BitVec 64} {h : List Byte}
    (hring : lookup? owner s.mgmt.evring = some ring) (ha : ring.toNat % 2 ^ 44 / 64 * 64 = a) (hh : s.physRead 20 0 a 16 = .ok h)
    (hp : bitsAt (natOfBytes h) 0 32 = pidx) (hlog : bitsAt (natOfBytes h) 96 8 = log) (h6 : 6 ≤ log) (h20 : log ≤ 20)
    (hroom : (pidx + 2 ^ 32 - bitsAt (natOfBytes h) 64 32) % 2 ^ 32 < 2 ^ log)
    (hu : s.physWrite 20 0 (a + 64 + 32 * (pidx % 2 ^ log)) e.bytes = .ok u)
    (hv : u.physWrite 20 0 a (bytesOfNat 4 (pidx + 1)) = .ok v) : s.deliverCore owner e = .ok (some v) := by
  simp only [State.deliverCore, hring, ha, hh, hp, hlog]
  rw [if_neg (by omega)]
  simp only [hu, hv]

section Find

variable {s : State} {e : EventRec} {owner : Nat} (hf : s.mgmt.events.find? (fun e => decide (e.owner = some owner)) = some e)
include hf

theorem execEventDeliver_host_waits (h0 : owner = 0) (h : s.deliverHost e = none) : execEventDeliver owner s = .next s := by
  simp only [execEventDeliver, hf, if_pos h0, h]

theorem execEventDeliver_host_taken {t : State} (h0 : owner = 0) (h : s.deliverHost e = some t) :
    execEventDeliver owner s = .next (t.onMgmt (fun m => { m with events := m.events.erase e })) := by
  simp only [execEventDeliver, hf, if_pos h0, h]

theorem execEventDeliver_core_waits (h0 : owner ≠ 0) (h : s.deliverCore owner e = .ok none) : execEventDeliver owner s = .next s := by
  simp [execEventDeliver, hf, h0, h]

theorem execEventDeliver_core_taken {t : State} (h0 : owner ≠ 0) (h : s.deliverCore owner e = .ok (some t)) :
    execEventDeliver owner s = .next (t.onMgmt (fun m => { m with events := m.events.erase e })) := by
  simp [execEventDeliver, hf, h0, h]

end Find

/-! ## The statement -/

theorem exec_dieoff {s : State} {m : EpMsg} (hm : nth? s.mgmt.requests s.pick = some m) (ht : m.typ = 0x30) (hs : m.sender = .host) :
    exec .dieoff s = .next (s.takeRequest.dieOff m) :=
  onRequest_allowed (fun m s => s.takeRequest.dieOff m) hm ht (by simp [hs])

theorem exec_dieon {s : State} {m : EpMsg} (hm : nth? s.mgmt.requests s.pick = some m) (ht : m.typ = 0x31) (hs : m.sender = .host) :
    exec .dieon s = .next (s.takeRequest.dieOn m) :=
  onRequest_allowed (fun m s => s.takeRequest.dieOn m) hm ht (by simp [hs])

/-- The arbiter on I/O die 20 numbers a record that has reached it and holds it for its class's owner. -/
theorem exec_evnt {s : State} {p : Packet} (hp : nth? s.net.inbox s.pick = some (20, p)) (ho : p.opc = 0x66) :
    let e := EventRec.ofNum (nth 0 p.data 0).toNat
    exec .evnt s = .next (s.takeArrived.onMgmt (fun m => { m with
      evSeq := m.evSeq + 1
      events := m.events ++ [{ e with seq := s.mgmt.evSeq, owner := some (ownerOf (s.route e.cls.toNat)) }] })) := by
  change execEvnt s = _
  rw [execEvnt, onPacket_arrived _ hp ho]
  rfl

/-- Settles O47, step by step: a request is carried out by `State.dieOff` or `State.dieOn`, a drain goes on by `State.drainStep`,
`State.memoryDrained` or `State.migrateOn`, and each of them is followed into the branch that the case names. -/
theorem dieAndEventSteps : Obligations.DieAndEventSteps := by
  unfold Obligations.DieAndEventSteps
  refine ⟨fun s m hm hs => ⟨fun ht => ?dieoff, fun ht => ?dieon⟩, fun s k m hd => ⟨?computeDrain, ?migration, ?memoryDrain, ?restore⟩,
    ?evnt, fun s e owner hf => ⟨?host, ?core⟩⟩
  case dieoff =>
    rw [exec_dieoff hm ht hs]
    refine ⟨fun hk => ?_, fun hk h => ?_, fun hk h => ?_, fun h8 hk h => ⟨fun ho => ?_, fun ho => ?_⟩, fun hk h hi hb => ?_⟩
    · exact congrArg _ (dieOff_ioDie hk)
    · exact congrArg _ (dieOff_draining hk h)
    · exact congrArg _ (dieOff_offline hk h)
    · exact congrArg _ (dieOff_otherMemoryOut h8 hk h ((otherMemoryOut_iff _ _).2 ho))
    · exact congrArg _ (dieOff_memoryDie h8 hk h (otherMemoryOut_eq_false ho))
    · exact congrArg _ (dieOff_computeDie hk h hi hb)
  case dieon =>
    rw [exec_dieon hm ht hs]
    refine ⟨fun h => ?_, fun h8 h => ?_, fun hk h hd => ?_⟩
    · exact congrArg _ (dieOn_online h)
    · exact congrArg _ (dieOn_memoryDie h8 h)
    · exact congrArg _ (dieOn_computeDie hk h hd)
  case computeDrain =>
    intro hk hst hr hl he why
    have hmem : (k, m) ∈ s.mgmt.draining := by simp [hd]
    have hd' : (s.setDieState k 2).mgmt.draining = [(k, m)] := by simpa using hd
    exact (execDieDrainDone_computeDie hk hst hmem why).trans
      (congrArg _ ((drainStep_of_empty hr hl he).trans (answerDraining_of_sole hd' 0 0)))
  case migration =>
    intro h8 h20 x t hx ht why
    refine (execDieDrainDone_migrating h8 h20 hx why).trans (congrArg _ ?_)
    simp only [State.migrateOn, ht]
  case memoryDrain =>
    intro h8 h20 hst hx
    have hmem : (k, m) ∈ s.mgmt.draining := by simp [hd]
    have step (why : BitVec 3) : exec (.dieDrainDone k why) s = .next (s.memoryDrained k why.toNat) :=
      execDieDrainDone_memoryDie h8 h20 hst hx hmem why
    have answers (sts : Nat) (arg : BitVec 32) := answerDraining_of_sole hd sts arg
    refine ⟨fun why hw => ?_, fun mp hmp => ⟨fun hs => ?_, fun hs => ⟨fun hl => ?_, fun l hl => ⟨fun hr => ?_, fun d hr => ?_⟩⟩⟩⟩
    · have hw' : why.toNat = 1 ∨ why.toNat = 2 ∨ why.toNat = 4 := by bv_omega
      exact (step why).trans (congrArg _ ((memoryDrained_of_reason hw').trans (answers ..)))
    · exact (step 0).trans (congrArg _ ((memoryDrained_localStructure k hmp hs).trans (answers ..)))
    · have hd' : (s.setDieState k 2).mgmt.draining = [(k, m)] := by simpa using hd
      exact (step 0).trans (congrArg _ ((memoryDrained_noLeaf k hmp hs hl).trans (answerDraining_of_sole hd' 0 0)))
    · exact (step 0).trans (congrArg _ ((memoryDrained_noRoom k hmp hs hl hr).trans (answers ..)))
    · exact (step 0).trans (congrArg _ (memoryDrained_room k hmp hs hl hr))
  case restore =>
    intro h8 h20 hst
    have hmem : (k, m) ∈ s.mgmt.draining := by simp [hd]
    have hd' : ((s.clearStack k).setDieState k 0).mgmt.draining = [(k, m)] := (draining_setDieState _ _ _).trans hd
    exact (execMemoryDieRestoreDone_offline h8 h20 hst hmem).trans (congrArg _ (answerDraining_of_sole hd' 0 0))
  case evnt =>
    intro s d p hp ho hd
    exact exec_evnt (hd ▸ hp) ho
  case host =>
    intro h0
    refine ⟨fun h => ?_, fun hen hroom => ?_⟩
    · exact execEventDeliver_host_waits hf h0 (deliverHost_noRoom e h)
    · refine (execEventDeliver_host_taken hf h0 (deliverHost_room e hen hroom) : exec (.eventDeliver owner) s = _).trans ?_
      simp only [State.onMgmt]
  case core =>
    intro h0
    refine ⟨fun hring => ?_, fun ring h u v hring hh h6 h20 hroom hu hv => ?_⟩
    · exact execEventDeliver_core_waits hf h0 (deliverCore_noRing e hring)
    · exact execEventDeliver_core_taken hf h0 (deliverCore_room hring rfl hh rfl rfl h6 h20 hroom hu hv)

end Sys2Proof.DieAndEvents
end

section
/-! PROOFS. What arrives: values and failures that reach their threads (R305, R375), and the reads that a bank's refresh held up (R184,
R213). -/

namespace Sys2Proof.Arrivals

open Sys2Proof Sys2Proof.Machine

/-! ## Values that arrive (R305) -/

/-- The state whose arrival that the step picks is no longer on its way. -/
def taken (s : State) : State := { s with returns := removeNth s.returns s.pick }

@[simp] theorem thread_taken (s : State) (x : ThreadId) : (taken s).thread x = s.thread x := rfl

/-- One value is written to its register where that still waits for it. -/
theorem deliver_waiting {th : Thread} {p mark : Nat} (h : (p, mark) ∈ th.pending) (v : Reg) :
    th.deliver mark [(p, v)] = { th with regs := put p v th.regs, pending := th.pending.filter (fun x => x ≠ (p, mark)) } := by
  simp [Thread.deliver, h]

/-- What has arrived without a failure is delivered, and is no longer on its way. -/
theorem exec_pendingRegisterWrite_value {s : State} {r : Return} (hr : nth? s.returns s.pick = some r)
    (hx : (lookup? r.thread s.threads).isSome = true) (ht : r.trap = none) :
    exec .pendingRegisterWrite s =
      .next ((taken s).setThread r.thread ((s.thread r.thread).deliver r.mark r.regs)) := by
  change execPendingRegisterWrite s = _
  simp only [execPendingRegisterWrite, hr, ht, State.deliver, hx, if_true]
  rfl

/-! ## Failures that arrive (R375) -/

@[simp] theorem leaveGroup_thread (s : State) (x y : ThreadId) : (s.leaveGroup x).thread y = s.thread y := rfl

/-- Trap entry of the model leaves what the statements ask of a trapped thread (R248 to R250). -/
theorem enterTrap_eq_trapped (th : Thread) (t : Trap) (tbase : BitVec 64) (now : Nat) :
    th.enterTrap t tbase now = th.trapped t tbase th.lr now := by
  simp only [Thread.enterTrap, Thread.trapped, Trap.detail, Trap.allFlags, Nat.mul_comm]
  cases t.xpc <;> rfl

/-- A thread that can enter its handler leaves its group and does so; nothing else changes (R248). -/
theorem takeTrap_of_canTrap {s : State} {x : ThreadId} (h : s.canTrap x) (t : Trap) :
    takeTrap t x s =
      (s.leaveGroup x).setThread x ((s.thread x).trapped t (s.warp x.warp).tbase (s.thread x).lr s.time) := by
  obtain ⟨htbase, hhm, hgrid⟩ := h
  have henters : ¬ ((s.warp x.warp).tbase = 0 ∨ (s.thread x).hm = true ∨ s.gridEnding x = true) :=
    not_or.2 ⟨htbase, by simp [hhm, hgrid]⟩
  rw [← enterTrap_eq_trapped]
  exact if_neg henters

/-- A thread that can enter its handler still can when the wait under a mark is over. -/
theorem canTrap_released {s : State} {x : ThreadId} (h : s.canTrap x) (mark : Nat) :
    ((taken s).setThread x ((s.thread x).release mark)).canTrap x := by
  obtain ⟨htbase, hhm, hgrid⟩ := h
  exact ⟨htbase, by rwa [State.thread_setThread_same], hgrid⟩

/-- A READY thread is in no group and so stands at a run boundary: it takes a failure now. -/
theorem lateTrap_of_ready {s : State} {x : ThreadId} (h : (s.thread x).st = .ready) (t : Trap) : s.lateTrap x t = takeTrap t x s := by
  simp [State.lateTrap, State.atBoundary, h]

/-- A failure that has arrived ends the wait under its mark, and a READY thread that can enter its handler does so. -/
theorem exec_pendingRegisterWrite_failure {s : State} {r : Return} {e : Trap} (hr : nth? s.returns s.pick = some r)
    (hx : (lookup? r.thread s.threads).isSome = true) (ht : r.trap = some e) (hst : (s.thread r.thread).st = .ready)
    (hcan : s.canTrap r.thread) :
    let u := (taken s).setThread r.thread ((s.thread r.thread).release r.mark)
    exec .pendingRegisterWrite s =
      .next ((u.leaveGroup r.thread).setThread r.thread
        (((s.thread r.thread).release r.mark).trapped e (s.warp r.thread.warp).tbase (s.thread r.thread).lr s.time)) := by
  intro u
  have hu : u.thread r.thread = (s.thread r.thread).release r.mark := State.thread_setThread_same ..
  have hready : (u.thread r.thread).st = .ready := by
    rw [hu]
    exact hst
  have hlate : exec .pendingRegisterWrite s = .next (u.lateTrap r.thread e) := by
    change execPendingRegisterWrite s = _
    simp only [execPendingRegisterWrite, hr, ht, hx, if_true]
    rfl
  rw [hlate, lateTrap_of_ready hready, takeTrap_of_canTrap (canTrap_released hcan r.mark), hu]
  rfl

/-! ## Acquires performed together (R213) -/

/-- A read that a refresh held up makes an acquire at CLU scope or wider for the cache of a core. -/
def acquiresAt (c : CoreId) (r : Nat × Nat × Return) : Bool := decide (3 ≤ r.2.1) && decide (r.2.2.thread.warp.coreId = c)

/-- The acquires of held reads performed one after another. -/
def acquireAll (due : List (Nat × Nat × Return)) (s : State) : State := due.foldl (fun s r => s.acquire r.2.2.thread r.2.1) s

/-- A line of a core's cache without its clean bytes. -/
def dirtyOnly (l : L1Line) : L1Line := { l with valid := l.valid &&& l.dirty }

theorem l1_acquired (k : Core) : k.acquired.l1 = (k.l1.map dirtyOnly).filter (fun l => l.valid != 0) := rfl

theorem dirtyOnly_dirtyOnly (l : L1Line) : dirtyOnly (dirtyOnly l) = dirtyOnly l := by
  simp only [dirtyOnly, BitVec.and_assoc, BitVec.and_self]

/-- A cache without clean bytes has none to drop. -/
theorem acquired_acquired (k : Core) : k.acquired.acquired = k.acquired := by
  have hclean : ∀ l ∈ k.acquired.l1, dirtyOnly l = l := by
    intro l hl
    rw [l1_acquired] at hl
    obtain ⟨l', -, rfl⟩ := List.mem_map.1 (List.mem_filter.1 hl).1
    exact dirtyOnly_dirtyOnly l'
  have hl1 : k.acquired.acquired.l1 = k.acquired.l1 := by
    rw [l1_acquired k.acquired, List.map_congr_left hclean, List.map_id', l1_acquired, List.filter_filter]
    simp only [Bool.and_self]
  exact congrArg (fun ls => { k with l1 := ls }) hl1

/-- The acquire of a held read drops the clean bytes of its thread's core's cache, at CLU scope or wider, and changes no other core. -/
theorem core_acquire (s : State) (c : CoreId) (r : Nat × Nat × Return) :
    (s.acquire r.2.2.thread r.2.1).core c = if acquiresAt c r then (s.core c).acquired else s.core c := by
  by_cases hsc : 3 ≤ r.2.1
  · have honCore : s.acquire r.2.2.thread r.2.1 = s.onCore r.2.2.thread.warp.coreId Core.acquired := if_pos hsc
    by_cases hc : r.2.2.thread.warp.coreId = c
    · subst hc
      simp [honCore, acquiresAt, hsc]
    · simp [honCore, acquiresAt, hc, Ne.symm hc]
  · simp [State.acquire, acquiresAt, hsc]

theorem acquire_cores_only (s : State) (x : ThreadId) (sc : Nat) : ∃ cs, s.acquire x sc = { s with cores := cs } := by
  unfold State.acquire
  split
  · exact ⟨_, rfl⟩
  · exact ⟨s.cores, rfl⟩

/-- A core's cache drops its clean bytes where some acquire is for it, however many are. -/
theorem core_acquireAll (c : CoreId) : ∀ (due : List (Nat × Nat × Return)) (s : State),
    (acquireAll due s).core c = if due.any (acquiresAt c) then (s.core c).acquired else s.core c
  | [], _ => rfl
  | r :: due, s => by
    have ih := core_acquireAll c due (s.acquire r.2.2.thread r.2.1)
    rw [core_acquire] at ih
    change (acquireAll due (s.acquire r.2.2.thread r.2.1)).core c = _
    rw [ih, List.any_cons]
    cases acquiresAt c r
    · rfl
    · simp [acquired_acquired]

theorem acquireAll_cores_only : ∀ (due : List (Nat × Nat × Return)) (s : State), ∃ cs, acquireAll due s = { s with cores := cs }
  | [], s => ⟨s.cores, rfl⟩
  | r :: due, s => by
    obtain ⟨cs, hhead⟩ := acquire_cores_only s r.2.2.thread r.2.1
    obtain ⟨cs', htail⟩ := acquireAll_cores_only due (s.acquire r.2.2.thread r.2.1)
    exact ⟨cs', by rw [show acquireAll (r :: due) s = _ from htail, hhead]⟩

/-! ## The end of a refresh window (R184) -/

/-- The reads of a die that stalled at a bank. -/
def heldAt (s : State) (die bank : Nat) : List (Nat × Nat × Return) := (s.die die).refreshWaits.filter (fun r => decide (r.1 = bank))

/-- A die whose reads that stalled at a bank have gone on. -/
def withoutHeld (bank : Nat) (d : Die) : Die := { d with refreshWaits := d.refreshWaits.filter (fun r => decide (r.1 ≠ bank)) }

/-- Once the bank's refresh is over, the reads that stalled at it leave the die, their acquires are performed, and their values are on
their way. -/
theorem exec_refreshWindowEnd {s : State} {bank : Nat} (h : s.refreshing bank = false) (die : Nat) :
    exec (.refreshWindowEnd die bank) s =
      .next { acquireAll (heldAt s die bank) (s.onDie die (withoutHeld bank)) with
        returns := s.returns ++ (heldAt s die bank).map (fun r => r.2.2) } := by
  change execRefreshWindowEnd die bank s = _
  obtain ⟨cs, hcs⟩ := acquireAll_cores_only (heldAt s die bank) (s.onDie die (withoutHeld bank))
  have hreturns : (acquireAll (heldAt s die bank) (s.onDie die (withoutHeld bank))).returns = s.returns := by rw [hcs]; rfl
  rw [← hreturns]
  simp only [execRefreshWindowEnd, h, Bool.false_eq_true, if_false]
  rfl

/-! ## The statement -/

/-- Settles O15: a value by `deliver_waiting`, a failure by `takeTrap_of_canTrap`, and the end of a refresh window by induction on the
reads that it held up. -/
theorem arrivalResults : Obligations.ArrivalResults := by
  unfold Obligations.ArrivalResults
  refine ⟨fun s r p v hr hx => ⟨?value, ?failure⟩, ?refresh⟩
  case value =>
    intro ht hregs hp
    refine ⟨_, exec_pendingRegisterWrite_value hr hx ht, ?_, fun y hy => ?_, rfl, rfl⟩
    · rw [State.thread_setThread_same, hregs, deliver_waiting hp]
    · exact State.thread_setThread_other _ hy _
  case failure =>
    intro e ht hst hcan
    refine ⟨_, exec_pendingRegisterWrite_failure hr hx ht hst hcan, ?_, fun y hy => ?_, ?_, ?_⟩
    · exact State.thread_setThread_same ..
    · simp [hy]
    · rfl
    · simp only [State.setThread, State.leaveGroup, taken]
  case refresh =>
    intro s die bank h
    obtain ⟨cs, hcs⟩ := acquireAll_cores_only (heldAt s die bank) (s.onDie die (withoutHeld bank))
    refine ⟨_, exec_refreshWindowEnd h die, rfl, fun c => ?_, ?_, fun d hd => ?_, ?_⟩
    · exact core_acquireAll c (heldAt s die bank) (s.onDie die (withoutHeld bank))
    · rw [hcs]
      exact State.die_onDie_same s die (withoutHeld bank)
    · rw [hcs]
      exact State.die_onDie_other s hd (withoutHeld bank)
    · rw [hcs]
      rfl

end Sys2Proof.Arrivals
end
